-- ==== Sys2Proof/Word.lean ====
section
/-! DEFINITION. The word types of the manual (00 R10 to R12), the one representation of sparse data, and the plain
data that commands carry as operands. Nothing here computes anything the manual states. -/

namespace Sys2Proof

set_option Elab.async false

/-- One byte. -/
abbrev Byte := BitVec 8

/-- A control register word or a packet word (00 R12, 02 R66). -/
abbrev Word := BitVec 32

/-- A bank word or a 64-bit register (01 R35, 00 R12). -/
abbrev DWord := BitVec 64

/-- Sparse data by key: keys strictly rising, and no entry equal to the value an unlisted key has. The value of an
unlisted key is given where the map is read (`SMap.get`). -/
abbrev SMap (α : Type) := List (Nat × α)

/-- Who issues an access: the attachment points of Table 1-3 and the JTAG port of 19 R511. A DMA access names its
port and the ring group it acts for, a region access the region port, an MGC access the owner it acts for, if any
(07 R200). -/
inductive Requester
  | mgc
  | mgcFor (owner : BitVec 8)
  | loader
  | repairer
  | selftest (group : Fin 16)
  | scrubber (group : Fin 16)
  | host (k : Fin 4)
  | spi
  | jtag
  | region (p : Fin 64)
  | ring (port : Fin 8) (group : Fin 64)
  deriving DecidableEq, Repr

/-- Table 7-3, TYPE. -/
inductive TxnKind | read | write | flush | reserved
  deriving DecidableEq, Repr

/-- One request beat (07 R201): byte enables and, for a write, data. -/
structure BeatIn where
  be : BitVec 32
  data : BitVec 256
  deriving DecidableEq, Repr

/-- Spine response codes, Table 7-4 (07 R204). -/
inductive Resp | ok | decerr | notown | dark | poison | narrow | timeout | suserase | fenced
  deriving DecidableEq, Repr

/-- One response beat (07 R203): code, word-OK bits and read data. -/
structure BeatOut where
  code : Resp
  wok : BitVec 4
  data : BitVec 256
  deriving DecidableEq, Repr

/-- What a request of a host addresses in an endpoint: a BAR of Table 2-2, or the configuration space (02 R57 step 5). -/
inductive Bar | bar0 | bar2 | bar4 | config
  deriving DecidableEq, Repr

/-- The link power changes of 02 R51. -/
inductive LinkPower | enterD3hot | leaveD3hot | enterL1 | leaveL1
  deriving DecidableEq, Repr

/-- The wake sources of 13 R389. -/
inductive WakeSource
  | mailbox (m : Fin 5)
  | ring (r : Fin 8192)
  | link (k : Fin 4)
  | field (g : Fin 4)
  | alarm
  | nreset
  deriving DecidableEq, Repr

/-- The units the stall watchdog watches (07 R225, R227): a hop or arbiter input of a node in one plane, or the head
of a target port's ingress queue. -/
inductive StallUnit
  | hop (node : Fin 21) (input : Fin 16) (plane : Bool)
  | ingress (port : Fin 97)
  deriving DecidableEq, Repr

/-! ## What a fabric clock edge brings -/

/-- The sources of the fabric's clock lines (Tables 3-6, 3-7). -/
inductive ClockSource
  | clkin (i : Fin 4)
  | oscillator
  | pll (j : Fin 16) (o : Fin 5)
  | recovered (quad : Fin 8) (i : Fin 2)
  deriving DecidableEq, Repr

/-- The source of Z (03 R96). -/
inductive MacZ | zero | c | p | casc
  deriving DecidableEq, Repr

/-- What the inputs of a MAC block carry (03 R96), but for the cascade. -/
structure MacIn where
  a : BitVec 24 := 0
  d : BitVec 24 := 0
  b : BitVec 20 := 0
  c : BitVec 48 := 0
  z : MacZ := .zero
  negate : Bool := false
  preSub : Bool := false
  bypass : Bool := false
  deriving DecidableEq, Repr

/-- Beats of a request that a design offers on INI_REQ, with the BEATS field of its header (03 R106). -/
structure IniBeats where
  count : Fin 16
  beats : List BeatIn
  deriving DecidableEq, Repr

/-- Data of the beats of a response that a design offers on TGT_RSP, none for a write, and whether LAST is among them. -/
structure RspBeats where
  data : List (BitVec 256)
  last : Bool
  deriving DecidableEq, Repr

/-- A word at a transceiver lane's fabric interface (15 Table 15-1): data bits, and K flags, sync headers or control
flags, lowest first. -/
structure LaneWord where
  data : BitVec 128
  flags : BitVec 16
  deriving DecidableEq, Repr

/-- What a general output pin drives (20 R518). -/
inductive PinLevel | hiz | low | high
  deriving DecidableEq, Repr

/-- What has come in on a lane's line since the last edge of the track that clocks its FIFOs (15 R437). -/
structure LaneEdge where
  lane : Fin 32
  arrived : List LaneWord
  /-- Code, disparity or header errors, and blocks that Clause 74 FEC corrected or could not. -/
  errors : Nat := 0
  corrected : Nat := 0
  uncorrected : Nat := 0
  deriving DecidableEq, Repr

end Sys2Proof
end

