-- ==== Sys2Proof/Syntax.lean ====
section
/-! DEFINITION. The commands of the device: one constructor per row of spec/opcode_table.json. Each is a step that is
whole and indivisible (spec/95); its operands are what the outside world supplies: the requester, the address and data
of an access, a measured value, the result of a check the manual leaves to a published standard. -/

namespace Sys2Proof

set_option Elab.async false

/-- The commands, in the table's order. -/
inductive Instr
  /-- VIN_GOOD (R537). VIN at or above 9.5 V with NRESET_IN high for 1 ms in OFF raises VIN good and starts the BOOT
  sequence of Table 5-2. -/
  | vinGood
  /-- TIMEBASE_SWITCH (R418). At the first reference oscillator tick after step 2 ends, TMB_NOW changes over to the
  reference oscillator without a step. -/
  | timebaseSwitch
  /-- IMAGE_CHECK (R158). The configuration engine runs the header, region table, trailer and signature checks of
  one image before any of its frames is written. -/
  | imageCheck (errors : List (Nat × List Nat))
  /-- CHUNK_ARRIVAL (R159). A chunk read from Slate passes the erased, hash, decryption and record checks, and its
  records are routed to the frame writers. -/
  | chunkArrival (ix : Nat) (errors : List (Nat × List Nat))
  /-- FRAME_WRITE (R161). A frame writer writes a frame, confirms it through the CRC unit and rewrites it at most
  twice before declaring UNSTABLE. -/
  | frameWrite (k : Fin 16) (misses : Fin 4)
  /-- LOAD_COMPLETE (R163). After all 4,000 frames of a region are confirmed, the hold registers, signatures and
  flip-flops are updated and the load fence cause clears. -/
  | loadComplete (k : Fin 16)
  /-- WIPE_DONE (R164). A wipe ends, and the region is left unloaded and fenced, or the fallback proceeds. -/
  | wipeDone (k : Fin 16)
  /-- GOLD_FALLBACK (R166). After a boot failure and its wipe, the Gold image is loaded in native style with the
  Gold PLL boot record. -/
  | goldFallback
  /-- RUN_ENTRY (R156). BOOT enters RUN and asserts READY once every region has completed and the holdup bank holds
  95 % of its charge. -/
  | runEntry
  /-- PERST_RELEASE (R57). A rising edge of PERSTk_N lets endpoint k start link training 1 ms later. -/
  | perstRelease (k : Fin 4)
  /-- LINK_UP (R57). A PCIe link reaches the up state, and its host stops being absent. -/
  | linkUp (k : Fin 4) (gen : Fin 6) (width : Fin 9)
  /-- PERST_LOW (R74). A low level on PERSTk_N is a host reset, with the effects of Table 2-9 on host k's state. -/
  | perstLow (k : Fin 4)
  /-- HOT_RESET (R74). A PCIe hot reset on endpoint k is a host reset with the effects of Table 2-9. -/
  | hotReset (k : Fin 4)
  /-- LINK_DOWN (R74). The link of endpoint k goes down, so host k becomes absent and a host reset follows. -/
  | linkDown (k : Fin 4)
  /-- FUNCTION_LEVEL_RESET (R74). A Function Level Reset on endpoint k is a host reset with the effects of Table
  2-9. -/
  | functionLevelReset (k : Fin 4)
  /-- MAILBOX_CLEAR_DONE (R74). The clearing of a mailbox's pointers and rings after a host reset or CLEAR
  completes, and its accesses stop answering DARK. -/
  | mailboxClearDone (m : Fin 5)
  /-- LINK_POWER_STATE (R51). An endpoint enters or leaves D3hot or ASPM L1, which affects that endpoint only. -/
  | linkPowerState (k : Fin 4) (change : LinkPower)
  /-- BAR_TLP (R53). An endpoint receives a BAR TLP and splits it into spine transactions in ascending address
  order. -/
  | barTlp (k : Fin 4) (bar : Bar) (offset : BitVec 32) (write : Bool) (ds : List (BitVec 4 × BitVec 32))
  /-- SPI_READ (R61). An SPI READ operation returns response bytes and data words from consecutive control-space
  addresses. -/
  | spiRead (addr : BitVec 24) (words : Nat) (late : Bool)
  /-- SPI_WRITE_WORD (R61). The fourth data byte of a word in an SPI WRITE issues that word to the spine. -/
  | spiWriteWord (addr : BitVec 24) (data : BitVec 32)
  /-- SPI_STATUS (R60). An SPI STATUS operation returns the last write response and the non-OK count, and clears the
  count. -/
  | spiStatus
  /-- SPI_UNKNOWN_OPERATION (R60). An unknown SPI operation byte makes the port drive 0x00 until MSPI_CS_N rises,
  with no effect. -/
  | spiUnknownOperation (op : BitVec 8)
  /-- SPI_CS_RISE (R61). MSPI_CS_N rises and ends the transaction, discarding a partly received word. -/
  | spiCsRise
  /-- MAILBOX_ENTRY_WRITE (R64). A write to a request ring entry is taken, or refused with NOTOWN when the entry
  lies between HEAD and TAIL. -/
  | mailboxEntryWrite (who : Requester) (m : Fin 5) (word : Fin 4096) (data : BitVec 32)
  /-- MBX_REQ_TAIL_WRITE (R64). A write to MBX_REQ_TAIL is the mailbox doorbell, accepted when the occupancy rules
  hold. -/
  | mbxReqTailWrite (who : Requester) (m : Fin 5) (tail : BitVec 16)
  /-- MBX_RSP_HEAD_WRITE (R65). Host software frees reply entries by advancing MBX_RSP_HEAD within the bounds of the
  reply ring. -/
  | mbxRspHeadWrite (who : Requester) (m : Fin 5) (head : BitVec 16)
  /-- MBX_CLEAR (R75). A write of CLEAR = 1 to MBX_CTL clears the mailbox, acknowledged when the clearing is
  complete. -/
  | mbxClear (who : Requester) (m : Fin 5) (irqEn : Bool)
  /-- PACKET_START (R69). The MGC takes a complete packet once the reply ring has room and checks it in the order of
  R69 before executing it. -/
  | packetStart
  /-- NOP (R72). NOP returns its parameter words unchanged. -/
  | nop (m : Fin 5)
  /-- HOST_ATTACH_GET (R72). HOST_ATTACH_GET returns the stored host attachment record word of each endpoint. -/
  | hostAttachGet (m : Fin 5)
  /-- HOST_ATTACH_SET (R73). HOST_ATTACH_SET journals a new host attachment record, effective at the next boot. -/
  | hostAttachSet (m : Fin 5) (fails0 : Nat) (fails1 : Nat)
  /-- REGISTER_WRITE (R16). A write to a control register with no behaviour of its own sets its fields per the
  access codes, owner rules and R8. -/
  | registerWrite (who : Requester) (off : BitVec 24) (wide : Bool) (data : BitVec 64)
  /-- LATCHING_READ (R12). A read of the low word of a 64-bit register latches its high word, and any further fields
  its chapter names, for that requester. -/
  | latchingRead (who : Requester) (off : BitVec 24) (wide : Bool)
  /-- REQUEST_SUBMIT (R202). A requester port accepts a transaction from its consumer, rejects malformed requests
  with DECERR and queues the rest for a credit. -/
  | requestSubmit (who : Requester) (kind : TxnKind) (addr : BitVec 48) (beats : List BeatIn)
  /-- CREDIT_GRANT (R208). A target's credit arbiter grants a credit to a waiting requester port, which then issues
  its request onto the request plane. -/
  | creditGrant (t : Fin 97)
  /-- SPINE_REQUEST (R39). A target takes a request from its ingress queue, runs the checks of R39 in order and
  executes it or answers with the first failing code. -/
  | spineRequest (t : Fin 97)
  /-- FLUSH (R205). A FLUSH is answered OK once earlier writes to its target are acknowledged, or after a zero-
  length read completes at an endpoint. -/
  | flush (t : Fin 97)
  /-- RESPONSE_ARRIVAL (R203). A response arrives at its requester port, frees its tag and reservation and is
  delivered, or discarded if late. -/
  | responseArrival (port : Fin 97) (tag : Fin 2048)
  /-- REQUESTER_TIMEOUT (R216). A requester port's timer expires, and the transaction completes toward its consumer
  with TIMEOUT. -/
  | requesterTimeout (id : Nat)
  /-- INI_REQ (R109). A region design transfers a request on INI_REQ, which takes a tag and crosses to the spine. -/
  | iniReq (p : Fin 64) (dtag : Fin 64) (write : Bool) (addr : BitVec 48) (offered : IniBeats)
  /-- TGT_RSP (R110). A region design answers a delivered target request on TGT_RSP, with codes other than OK,
  DECERR and POISON converted to DECERR. -/
  | tgtRsp (p : Fin 64) (code : Fin 16) (offered : RspBeats)
  /-- TARGET_RESPONSE_TIMEOUT (R110). A design that has not produced the first response beat within 8 µs gets
  TIMEOUT answered on its behalf. -/
  | targetResponseTimeout (p : Fin 64)
  /-- INGRESS_WAIT_TIMEOUT (R222). A request that waits 8 µs in a region port's target ingress queue is answered
  TIMEOUT and never delivered. -/
  | ingressWaitTimeout (p : Fin 64)
  /-- RESYNC_ACK (R113). The design's RESYNC_ACK frees all initiator tags and reopens the port after a fence. -/
  | resyncAck (p : Fin 64)
  /-- CHANNEL_REOPEN (R88). A boundary channel reopens once all conditions of R87 have held for 1 µs. -/
  | channelReopen (c : Fin 24)
  /-- STALL_DETECT (R227). A wait of 10 µs at a link hop, arbiter or watched ingress head is a stall, which isolates
  the unit and causes SAFE. -/
  | stallDetect (stalled : StallUnit)
  /-- SPINE_RATE_MEASURE (R221). Every 100 µs the spine's live rate is measured from replica paths and a rate below
  the floor is out of bounds. -/
  | spineRateMeasure (mtps : BitVec 16)
  /-- MARGIN_PROBE (R448). Every 100 µs one spine link is paused and probed to find its delay margin, checked
  against 12 %. -/
  | marginProbe (percent : Fin 101)
  /-- SPN_FAIR_CLR (R229). A write of CLR = 1 to SPN_FAIR clears both observed arbitration maxima. -/
  | spnFairClr (who : Requester)
  /-- SPN_STALL_INJECT (R230). Arming SPN_STALL_INJECT withholds the acknowledgement of the next beat at the named
  input, producing an injected stall. -/
  | spnStallInject (who : Requester) (node : BitVec 5) (input : BitVec 4) (plane : Bool)
  /-- BNK_OWNER_HANDOVER (R238). A compare-and-set write to BNK_OWNER hands a bank over, with an optional clear. -/
  | bnkOwnerHandover (who : Requester) (n : Fin 128) (expect : BitVec 8) (new : BitVec 8) (clr : Bool)
  /-- ATT_REGION_PARENT_HANDOVER (R242). A compare-and-set write to ATT_REGION_PARENT hands a region over, with an
  optional wipe of the region and its banks. -/
  | attRegionParentHandover (who : Requester) (k : Fin 16) (expect : BitVec 8) (new : BitVec 8) (wipe : Bool)
  /-- ATT_GROUP_PARENT_HANDOVER (R243). A compare-and-set write to ATT_GROUP_PARENT hands a ring group over, halting
  its rings and optionally clearing its banks. -/
  | attGroupParentHandover (who : Requester) (g : Fin 64) (expect : BitVec 8) (new : BitVec 8) (clr : Bool)
  /-- CLEAR_ON_HANDOVER (R241). After every transaction admitted under the old owner has completed, the bank is
  cleared and CLEARING falls. -/
  | clearOnHandover (n : Fin 128)
  /-- OWN_READ (R248). OWN_READ returns the current owners, parents, ADMIN and absence bits in the 53-word layout.
  -/
  | ownRead (m : Fin 5)
  /-- OWN_HANDOVER (R249). OWN_HANDOVER performs a handover as a register write would, replying after any clear or
  wipe. -/
  | ownHandover (m : Fin 5)
  /-- OWN_RECORD_GET (R248). OWN_RECORD_GET returns the stored ownership record. -/
  | ownRecordGet (m : Fin 5)
  /-- OWN_RECORD_SET (R250). OWN_RECORD_SET journals a new ownership record, effective at the next boot. -/
  | ownRecordSet (m : Fin 5) (fails0 : Nat) (fails1 : Nat)
  /-- BANK_READ (R262). A bank reads a data word, correcting it, starting a page correction or returning POISON as
  Table 9-2 states. -/
  | bankRead (who : Requester) (n : Fin 128) (w : BitVec 16)
  /-- BANK_WRITE (R265). A bank writes full words and updates the page code by delta, correcting or re-sealing the
  page where needed. -/
  | bankWrite (who : Requester) (n : Fin 128) (w : BitVec 16) (data : BitVec 64) (whole : Bool)
  /-- SCRUB_STEP (R267). In each 7.5 ms slot a bank's scrubber reads and decodes one page, correcting, poisoning and
  tracking suspect words. -/
  | scrubStep (n : Fin 128)
  /-- SCRUB_PASS_OVERDUE (R268). A bank scrub pass not ending within 1 s of running time is a scrubber fault and
  causes SAFE. -/
  | scrubPassOverdue (n : Fin 128)
  /-- BANK_CLEAR (R273). A group's clear engine starts the next requested clear and zeroes every word, parity word,
  spare cell and poison bit of the bank. -/
  | bankClear (g : Fin 16)
  /-- BANK_CLEAR_DONE (R274). A bank clear ends, CLEARING falls and the scrubber resumes or starts a new pass. -/
  | bankClearDone (g : Fin 16)
  /-- BNK_INJECT (R281). Arming BNK_INJECT inverts one or two bits of a stored row, which is then handled as a real
  error. -/
  | bnkInject (who : Requester) (n : Fin 128) (word : BitVec 16) (bitA : BitVec 7) (bitB : BitVec 7) (double : Bool)
  /-- BNK_PARK_WRITE (R282). A write to BNK_PARK designates or clears a quadrant's parking banks, subject to the
  rules of R275. -/
  | bnkParkWrite (who : Requester) (q : Fin 4) (bankA : Fin 128) (validA : Bool) (bankB : Fin 128) (validB : Bool)
  /-- SLICE_PAGE (R276). A slice test of one page runs save, test, clear, restore and release while accesses are
  redirected to the park page. -/
  | slicePage (g : Fin 16) (found : List (Nat × Nat))
  /-- DMA_DOORBELL (R285). A write to DMA_RING_TAIL posts slots to a ring when the occupancy rules hold, and the
  ring scheduler takes it within 0.2 µs. -/
  | dmaDoorbell (who : Requester) (r : Fin 8192) (tail : BitVec 32)
  /-- RING_ENABLE (R287). ENABLE 0 → 1 in DMA_RING_CTL sets HEAD and TAIL to 0 and starts the ring RUNNING. -/
  | ringEnable (who : Requester) (r : Fin 8192) (size : BitVec 5) (vector : BitVec 11)
  /-- RING_DISABLE (R287). ENABLE 1 → 0 in DMA_RING_CTL returns a HALTED ring to DISABLED. -/
  | ringDisable (who : Requester) (r : Fin 8192)
  /-- RING_HALT (R287). HALT = 1 moves a RUNNING ring to HALTING at its next slot boundary. -/
  | ringHalt (who : Requester) (r : Fin 8192)
  /-- RING_RESUME (R287). RESUME = 1 restarts a HALTED ring from slot HEAD. -/
  | ringResume (who : Requester) (r : Fin 8192)
  /-- DMA_ISSUE (R307). A DMA port's two-level round robin picks the next ring of the next group and issues one
  transaction. -/
  | dmaIssue (p : Fin 8)
  /-- DESCRIPTOR_START (R290). A fetched descriptor is checked against its opcode constraints and then starts its
  transfers. -/
  | descriptorStart (r : Fin 8192) (ix : Fin 8)
  /-- CHAIN_NEXT (R297). A finished descriptor with CHAIN fetches the descriptor at NEXT within the same slot,
  subject to HOPMAX. -/
  | chainNext (r : Fin 8192) (ix : Fin 8)
  /-- COMPLETION_WRITE (R301). A slot's completion entry is written in slot order, HEAD advances and a halting ring
  may become HALTED. -/
  | completionWrite (r : Fin 8192)
  /-- MSIX_SEND (R302). A pending ring vector sends its MSI-X message once the holdoff since the ring's previous
  message has passed. -/
  | msixSend (r : Fin 8192)
  /-- ATT_KEY_CHANGE (R305). A compare-and-set write to ATT_ENT_KEY claims or releases an ATT entry, clearing its
  MAP. -/
  | attKeyChange (who : Requester) (e : Fin 32768) (expect : BitVec 8) (new : BitVec 8)
  /-- ATT_MAP_WRITE (R305). A 64-bit write to ATT_ENT_MAP sets an entry's rights, base and limit when the writer and
  range rules hold. -/
  | attMapWrite (who : Requester) (e : Fin 32768) (rd : Bool) (wr : Bool) (base : BitVec 32) (limit : BitVec 16)
  /-- ATT_SWEEP (R306). After a parent handover a sweep frees every stale entry and lowers the former family's USED
  count. -/
  | attSweep
  /-- SLATE_READ (R319). A Slate window page read returns decoded data, erased bytes, POISON or SUSPERASE as Table
  11-4 states. -/
  | slateRead (id : Nat) (flips : List Nat)
  /-- ERASE_RESUME (R322). A suspended erase resumes when nothing waits, or after 200 µs of suspension for ordinary
  reads. -/
  | eraseResume (l : Fin 4096)
  /-- SLATE_INGRESS_TIMEOUT (R317). A request that has waited 8 µs at the Slate controller's ingress head completes
  with TIMEOUT. -/
  | slateIngressTimeout
  /-- PAGE_PROGRAM_DONE (R321). A page program ends after verification, or fails after 31 pulses and marks the block
  RETIRE_PENDING. -/
  | pageProgramDone (l : Fin 4096) (pulses : BitVec 6)
  /-- BLOCK_ERASE_DONE (R333). A block erase ends after verification, retiring the block into a spare if it fails or
  was RETIRE_PENDING. -/
  | blockEraseDone (l : Fin 4096) (pulses : BitVec 4) (badSpares : Nat)
  /-- PATROL_READ (R332). The patrol reads a programmed page at lowest priority and updates its correction
  statistics. -/
  | patrolRead (flips : List Nat)
  /-- CHECKPOINT (R346). When a copy's free blocks fall to 24, the MGC writes a checkpoint transaction to both
  copies once admitted. -/
  | checkpoint (fails0 : Nat) (fails1 : Nat)
  /-- JOURNAL_ERASE_AHEAD (R346). The MGC erases blocks ahead of each copy's write point as admitted operations,
  keeping four erased. -/
  | journalEraseAhead (c : Fin 2)
  /-- INDEX_REBUILD (R347). In RUN the MGC rebuilds its host item index from the last checkpoint and starts a
  checkpoint if the copies differ. -/
  | indexRebuild
  /-- ARCHIVE_WRITE (R349). In RUN the MGC archives event-log entries to the event-log archive whenever 1,024
  entries are not yet archived. -/
  | archiveWrite (failed : Bool)
  /-- EXTENT_ERASE (R348). After a boot with changed extent assignments, the MGC erases each block of an ERASING
  extent as admitted operations. -/
  | extentErase (x : Fin 64)
  /-- SET_READ (R353). SET_READ copies an item of the sender's owner, staged or committed, into a bank. -/
  | setRead (m : Fin 5) (unreadable : Bool)
  /-- SET_WRITE (R340). SET_WRITE stages a new value of an item, admitted against the reserve and the pending
  limits. -/
  | setWrite (m : Fin 5)
  /-- SET_DELETE (R340). SET_DELETE stages the deletion of an item. -/
  | setDelete (m : Fin 5)
  /-- SET_COMMIT (R345). SET_COMMIT writes the sender owner's staged changes as one transaction to copy 0 and then
  copy 1. -/
  | setCommit (m : Fin 5) (fails0 : Nat) (fails1 : Nat)
  /-- SET_LIST (R352). SET_LIST returns the IDs and lengths of the sender owner's items from a first ID. -/
  | setList (m : Fin 5)
  /-- PAGE_STABILITY (R328). PAGE_STABILITY reads a page, or its block, R times and classifies it as stable
  programmed, stable erased or unstable. -/
  | pageStability (m : Fin 5) (flips : List (List (List Nat)))
  /-- USR_WRITE (R353). USR_WRITE programs pages of a user extent from a bank, one page at a time. -/
  | usrWrite (m : Fin 5)
  /-- USR_ERASE (R353). USR_ERASE erases one block of a user extent. -/
  | usrErase (m : Fin 5)
  /-- USR_EXTENT_SET (R348). USR_EXTENT_SET journals a new family for a user extent, effective at the next boot. -/
  | usrExtentSet (m : Fin 5) (fails0 : Nat) (fails1 : Nat)
  /-- LEDGER_SAMPLE (R359). Every microsecond the ledger samples voltages and currents, adds to the energy counters
  and recomputes E_avail. -/
  | ledgerSample (vinMv : BitVec 16) (iinMa : BitVec 16) (intMv : BitVec 16) (extMv : BitVec 16) (charging : Bool) (domains : List (Fin 64 × Nat))
  /-- CAPACITANCE_MEASUREMENT (R357). At boot and every 60 s the ledger measures each bank's capacitance by the
  charge or discharge method, once the margin allows. -/
  | capacitanceMeasurement (ext : Bool) (discharge : Bool) (current : Nat) (time : Nat) (drop : Nat)
  /-- EXT_HOLD_CHARGE_TIMEOUT (R357). An EXT_HOLD bank that has not reached 8.0 V within 2 s of charging counts as
  absent. -/
  | extHoldChargeTimeout
  /-- RESERVE_SHORT (R367). A margin below 0 for 100 µs sets RESERVE_SHORT and commits every staged change on VIN
  power. -/
  | reserveShort (fails : List (Nat × Nat))
  /-- RESERVE_SHORT_CLEAR (R367). RESERVE_SHORT clears once the margin has stayed at or above 0 for 1 ms. -/
  | reserveShortClear
  /-- HOLDUP_ENTRY (R368). VIN below 8.0 V for 1 µs enters HOLDUP, switching the banks onto the rail, outputs to
  safe states and stopping the fabric and DMA. -/
  | holdupEntry
  /-- HOLDUP_ROUND (R372). The MGC starts the next program round of the HOLDUP commit only while E_avail covers it
  and the close. -/
  | holdupRound (fail : Option (Fin 16))
  /-- HOLDUP_OFF (R374). When the last admitted erase and any HOLDUP self-test have ended, every domain but the
  Umber island is unpowered. -/
  | holdupOff
  /-- VIN_RETURN (R375). VIN returning after HOLDUP detection sets VIN_RETURNED; the sequence completes and BOOT
  follows at least 1 ms after OFF. -/
  | vinReturn
  /-- NRG_QUERY (R378). NRG_QUERY reports whether a class would be admitted now and the current margin. -/
  | nrgQuery (m : Fin 5)
  /-- NRG_SNAPSHOT_READ (R378). NRG_SNAPSHOT_READ copies the committed state snapshot into a bank. -/
  | nrgSnapshotRead (m : Fin 5) (bad : Bool)
  /-- NRG_CAP_MEASURE (R378). NRG_CAP_MEASURE remeasures both banks by the discharge method and returns the new
  capacitances. -/
  | nrgCapMeasure (m : Fin 5)
  /-- PWR_DOZE (R387). PWR_DOZE checks the refusal order and, if admitted, runs the DOZE entry steps of Table 13-6.
  -/
  | pwrDoze (m : Fin 5)
  /-- DOZE_ENTRY_COMPLETE (R388). DOZE entry completes with MODE reading 3, and exit starts at once if a wake is
  pending. -/
  | dozeEntryComplete
  /-- DOZE_WAKE (R389). A wake source in DOZE or during entry is recorded and requests DOZE exit. -/
  | dozeWake (source : WakeSource)
  /-- DOZE_EXIT (R391). Once class 10 is admitted, the reference oscillator, banks, Slate die and PLLs resume and
  the device returns to RUN. -/
  | dozeExit
  /-- PWR_REGION (R384). PWR_REGION takes a region DARK through Table 13-4 or powers it up cleared, subject to its
  refusals and admission. -/
  | pwrRegion (m : Fin 5)
  /-- PWR_BANK_GROUP (R386). PWR_BANK_GROUP switches a bank group off after its admitted requests drain, or powers
  it up and clears its banks. -/
  | pwrBankGroup (m : Fin 5)
  /-- PWR_QUAD (R382). PWR_QUAD powers a transceiver quad on or off, subject to endpoint vetoes. -/
  | pwrQuad (m : Fin 5)
  /-- DEV_SHUTDOWN (R392). DEV_SHUTDOWN checks vetoes, waits for uncuttable work, commits and runs the shutdown
  self-test before OFF. -/
  | devShutdown (m : Fin 5)
  /-- DEV_REBOOT (R396). DEV_REBOOT checks vetoes, waits for uncuttable work, commits and enters OFF, then BOOT 1 ms
  later. -/
  | devReboot (m : Fin 5)
  /-- ORDERLY_COMMIT (R393). After uncuttable work ends, the fabric stops and the commit of R370 runs on VIN power,
  after which the reply is written. -/
  | orderlyCommit (fails : List (Nat × Nat))
  /-- RESTART (R396). 1 ms after an orderly OFF with restart, BOOT starts if NRESET_IN is high and VIN is good. -/
  | restart (nresetHigh : Bool) (vinGood : Bool)
  /-- VIN_OFF (R538). VIN below 6.0 V for 1 ms raises VIN off, re-enabling VIN good after a shutdown without
  restart. -/
  | vinOff
  /-- NRESET_IN (R397). NRESET_IN held low for 10 µs acts as DEV_REBOOT with FORCE, or wakes the device from DOZE
  first. -/
  | nresetIn
  /-- PLL_APPLY (R416). A write of APPLY = 1 to PLL_CFG checks the staged configuration, chooses a band and runs the
  frequency change of Table 14-4. -/
  | pllApply (who : Requester) (k : Fin 16) (m : BitVec 6) (n : BitVec 10)
  /-- REFERENCE_WINDOW (R407). At the end of each 100 µs window the PLL reference monitor updates PLL_MEAS and the
  reference's presence. -/
  | referenceWindow (k : Fin 16) (khz : BitVec 19)
  /-- PLL_LOCK (R412). A PLL declares lock after 64 consecutive comparisons with small phase error. -/
  | pllLock (k : Fin 16)
  /-- PLL_QUALIFIED (R413). After 1,024 PFD cycles of held lock the PLL outputs start without runt pulses and
  dependent fence causes clear. -/
  | pllQualified (k : Fin 16)
  /-- PLL_LOSS (R414). Two consecutive failing PFD cycles are a loss of lock or reference, gating the outputs and
  fencing dependent regions or causing SAFE. -/
  | pllLoss (k : Fin 16) (reference : Bool)
  /-- PLL_SET (R427). PLL_SET applies a new PLL configuration and replies when the outputs are qualified, or stages
  it for a DARK region. -/
  | pllSet (m : Fin 5)
  /-- PLL_SET_TIMEOUT (R427). PLL_SET returns TIMEOUT when the outputs are not qualified within 200 µs plus the
  relock bound. -/
  | pllSetTimeout (m : Fin 5)
  /-- PLL_BOOT_SET (R427). PLL_BOOT_SET journals a PLL boot record entry after a range check. -/
  | pllBootSet (m : Fin 5) (fails0 : Nat) (fails1 : Nat)
  /-- PLL_BAND_LOAD (R410). PLL_BAND_LOAD restores one PLL's band table from the factory record. -/
  | pllBandLoad (m : Fin 5)
  /-- TMB_SAMPLE (R427). TMB_SAMPLE returns TMB_NOW, TMB_EPOCH, TMB_UNCERT, TMB_STAT and TMB_CORR captured at one
  instant. -/
  | tmbSample (m : Fin 5)
  /-- ALARM_ARM (R424). A write of ARM = 1 to TMB_ALARM_CTL latches the alarm time and period and arms the alarm. -/
  | alarmArm (who : Requester) (a : Fin 5) (vector : BitVec 11) (clear : Bool)
  /-- ALARM_DISARM (R424). A write of ARM = 0 to TMB_ALARM_CTL disarms the alarm. -/
  | alarmDisarm (who : Requester) (a : Fin 5) (vector : BitVec 11) (clear : Bool)
  /-- ALARM_FIRE (R424). An armed alarm fires when TMB_NOW reaches its time, setting PENDING, sending its vector and
  advancing or disarming. -/
  | alarmFire (a : Fin 5)
  /-- CLR_UNCERT (R422). A write of CLR_UNCERT = 1 to TMB_CTL sets TMB_UNCERT to 0. -/
  | clrUncert (who : Requester)
  /-- LC_PLL_APPLY (R432). A write with EN = 1 to XCV_LCPLL applies an LC PLL setting within the limits of R432. -/
  | lcPllApply (who : Requester) (q : Fin 8) (p : Fin 2) (refsel : BitVec 4) (m : BitVec 3) (n : BitVec 9) (khz : BitVec 19)
  /-- LC_PLL_LOSS (R434). An LC PLL loss idles every fabric lane on it and is counted, after which it reacquires. -/
  | lcPllLoss (q : Fin 8) (p : Fin 2)
  /-- LC_PLL_LOCK (R434). An LC PLL declares lock after its lock count, letting its lanes relock and adapt. -/
  | lcPllLock (q : Fin 8) (p : Fin 2)
  /-- LANE_CONFIGURATION (R435). A write to XCV_LANE_CFG configures a fabric lane, idling it and restarting lock and
  adaptation. -/
  | laneConfiguration (who : Requester) (l : Fin 32) (setting : BitVec 20)
  /-- CDR_LOCK (R441). A lane's CDR locks after PLL lock and signal presence. -/
  | cdrLock (l : Fin 32)
  /-- ALIGNMENT (R441). A lane reaches comma, block or header lock and becomes ACTIVE. -/
  | alignment (l : Fin 32)
  /-- ADAPTATION (R445). A lane's CTLE and DFE finish initial adaptation or readaptation and continue tracking. -/
  | adaptation (l : Fin 32)
  /-- TX_UNDERRUN (R438). An empty TX FIFO at a word time sends a fill word and counts TX_UNDERRUN. -/
  | txUnderrun (l : Fin 32)
  /-- RX_OVERFLOW (R438). A word arriving at a full RX FIFO is discarded and counted. -/
  | rxOverflow (l : Fin 32)
  /-- RECOVERED_CLOCK_START (R439). A recovered-clock output starts once its lane's CDR lock has held for 10 µs. -/
  | recoveredClockStart (q : Fin 8) (ix : Fin 2)
  /-- EYE_SCAN_START (R440). A write of START = 1 to XCV_EYE_CTL starts an eye scan at the given offsets. -/
  | eyeScanStart (who : Requester) (l : Fin 32) (phase : BitVec 6) (voff : BitVec 7) (log2Bits : BitVec 6)
  /-- EYE_SCAN_DONE (R440). An eye scan ends after its bit count, or early with ABORTED. -/
  | eyeScanDone (l : Fin 32) (errors : Nat)
  /-- REFERENCE_OSCILLATOR_WINDOW (R446). Each 10 ms window classes the host references, moves TMB_CORR toward the
  disciplining source and checks loop 1's bounds. -/
  | referenceOscillatorWindow (complete : Bool) (refs : List (Fin 4 × Int × Nat)) (umber : BitVec 21)
  /-- CORRECTION_HOLD_EXPIRY (R446). 60 s after the disciplining source is lost, TMB_CORR starts returning to the
  compensated value. -/
  | correctionHoldExpiry
  /-- SLATE_READ_REFERENCE_WINDOW (R449). Each 10 ms window may move a flash bank's read reference one step toward
  balance and checks its limit. -/
  | slateReadReferenceWindow (b : Fin 8) (image : Bool) (onesAsZero : Nat) (zerosAsOne : Nat)
  /-- ENERGY_METER_WINDOW (R450). Each 10 ms window corrects the ledger's voltage offsets and current gains and
  checks their bounds. -/
  | energyMeterWindow (complete : Bool) (vin : BitVec 8) (int : BitVec 8) (ext : BitVec 8) (gain : BitVec 8)
  /-- THERMAL_WINDOW (R451). Each 10 ms window corrects one sensor per zone against its diode and checks the sensor
  bounds. -/
  | thermalWindow (complete : Bool) (zones : List (Fin 19 × BitVec 8))
  /-- THERMAL_SAMPLE (R461). Each 1 ms sample applies the over-temperature limit and warning threshold to each zone.
  -/
  | thermalSample (zones : List (Fin 19 × BitVec 12 × BitVec 12))
  /-- CAL_INJECT (R455). Arming CAL_INJECT forces the named loop's next evaluation out of bounds. -/
  | calInject (who : Requester) (loop : BitVec 3)
  /-- LOCKSTEP_MISMATCH (R28). A lockstep compare mismatch halts the MGC and causes SAFE. -/
  | lockstepMismatch
  /-- SAF_REQ (R462). A write of REQ = 1 to SAF_REQ is an external dangerous fault that causes SAFE. -/
  | safReq (who : Requester)
  /-- SAF_ENTER (R479). SAF_ENTER causes SAFE with the sender's owner ID and a user code. -/
  | safEnter (m : Fin 5)
  /-- SAF_CFG_CRIT_WRITE (R458). The single write to SAF_CFG_CRIT marks regions safety-relevant for configuration
  upsets. -/
  | safCfgCritWrite (who : Requester) (regions : BitVec 16)
  /-- SAF_PLL_CRIT_WRITE (R458). The single write to SAF_PLL_CRIT marks PLLs whose loss is dangerous. -/
  | safPllCritWrite (who : Requester) (plls : BitVec 16)
  /-- SAF_IO_CRIT_WRITE (R458). The single write to SAF_IO_CRIT marks regions whose output shorts are dangerous. -/
  | safIoCritWrite (who : Requester) (regions : BitVec 16)
  /-- SAF_INJECT (R481). Arming SAF_INJECT injects the named diagnostic fault within 1 µs. -/
  | safInject (who : Requester) (diag : BitVec 4) (index : BitVec 9)
  /-- EVENT_LOG_ENTRY (R470). An event entry is taken from the input buffer into the next log slot with the next
  event index, overwriting the oldest if full. -/
  | eventLogEntry
  /-- SCRUB_COMPARE (R180). A scrub lane compares one static frame's CRC against the live signature entry and
  handles a mismatch. -/
  | scrubCompare (k : Fin 16) (struck : List (Fin 10240))
  /-- SCRUB_REPAIR (R187). A queued repair reads the frame's record from Slate, checks it and rewrites and confirms
  the frame, or fails and wipes the region. -/
  | scrubRepair (k : Fin 16) (misses : Fin 4) (errors : List (Nat × List Nat))
  /-- CFG_SCRUB_INJECT (R196). Arming CFG_SCRUB_INJECT forces a mismatch at the named frame's next comparison. -/
  | cfgScrubInject (who : Requester) (frame : BitVec 16)
  /-- SCRUB_QUERY (R194). SCRUB_QUERY reports match and mismatch counts from the next complete sweep of each MASK
  region. -/
  | scrubQuery (m : Fin 5)
  /-- LD_RELOAD (R170). LD_RELOAD checks a region reload request and the source image while the regions keep
  running. -/
  | ldReload (m : Fin 5) (errors : List (Nat × List Nat))
  /-- RELOAD_FENCE (R173). At step 3 of a reload the region conditions are rechecked, the regions are fenced and the
  reply OK is written. -/
  | reloadFence
  /-- IMG_DIR_READ (R178). IMG_DIR_READ returns the directory header fields and a range of entries. -/
  | imgDirRead (m : Fin 5)
  /-- IMG_ALLOC (R174). IMG_ALLOC creates a WRITING directory entry for a range of segments. -/
  | imgAlloc (m : Fin 5)
  /-- IMG_WRITE (R174). IMG_WRITE copies image bytes from a bank into a slot, erasing blocks first. -/
  | imgWrite (m : Fin 5)
  /-- IMG_COMMIT (R174). IMG_COMMIT checks the stored image in full and marks its entry VALID. -/
  | imgCommit (m : Fin 5) (errors : List (Nat × List Nat))
  /-- IMG_SET_STATE (R179). IMG_SET_STATE frees or retires a directory entry. -/
  | imgSetState (m : Fin 5)
  /-- IMG_SELECT (R176). IMG_SELECT sets BOOT_ENTRY and BOOT_STYLE for the next boot. -/
  | imgSelect (m : Fin 5)
  /-- IMG_REGION_SELECT (R176). IMG_REGION_SELECT sets REGION_ENTRY of one region for the next boot. -/
  | imgRegionSelect (m : Fin 5)
  /-- BST_SLICE (R491). BST_SLICE slice-tests a range of pages of one bank, one page after another. -/
  | bstSlice (m : Fin 5)
  /-- BST_PROG_RUN (R496). BST_PROG_RUN checks a program, commits as DEV_REBOOT, runs the program and reboots. -/
  | bstProgRun (m : Fin 5)
  /-- SELFTEST_DONE (R488). A SHUTDOWN, STARTUP or custom program ends and writes its result record and SELFTEST
  events. -/
  | selftestDone (counts : List (Option Nat)) (fails : List (Fin 6 × BitVec 24))
  /-- LC_ADVANCE (R502). LC_ADVANCE checks an ADVANCE token, commits, blows the state bits, wipes diagnostic records
  and reboots. -/
  | lcAdvance (m : Fin 5)
  /-- LC_KEY_SET (R505). LC_KEY_SET programs a key hash slot, without a token in BLANK or with a KEY_SET token
  otherwise. -/
  | lcKeySet (m : Fin 5) (good : Bool)
  /-- LC_REVOKE (R506). LC_REVOKE blows the revocation flag of a slot on a REVOKE token signed by that slot. -/
  | lcRevoke (m : Fin 5)
  /-- LC_IMAGE_KEY_SET (R507). LC_IMAGE_KEY_SET programs the image key fuses once. -/
  | lcImageKeySet (m : Fin 5)
  /-- LC_GOLD_WRITE (R508). LC_GOLD_WRITE writes Gold image bytes into slot 0 in PROVISIONED. -/
  | lcGoldWrite (m : Fin 5)
  /-- LC_GOLD_COMMIT (R508). LC_GOLD_COMMIT checks the Gold image in full and updates or creates the Gold directory
  entry. -/
  | lcGoldCommit (m : Fin 5) (errors : List (Nat × List Nat))
  /-- TEST_LOGIC_RESET (R509). TRST_N or the Test-Logic-Reset state selects IDCODE. -/
  | testLogicReset
  /-- EXTEST (R510). EXTEST controls the pins through the boundary register, only in BOOT with STATE BLANK or
  FAILED, otherwise acting as BYPASS. -/
  | extest (pins : BitVec 1552) (load : BitVec 1552)
  /-- SAMPLE_PRELOAD (R509). SAMPLE/PRELOAD observes the pins without controlling them. -/
  | samplePreload (pins : BitVec 1552) (load : BitVec 1552)
  /-- IDCODE (R509). IDCODE selects the 0x0D31_3A5F identification register. -/
  | idcode
  /-- CLAMP (R510). CLAMP holds the pins from the boundary register under the pin-control rule of R510. -/
  | clamp
  /-- HIGHZ (R510). HIGHZ sets the pins to high impedance under the pin-control rule of R510. -/
  | highz
  /-- EXTEST_PULSE (R510). EXTEST_PULSE drives IEEE 1149.6 pulses on the lanes under the pin-control rule of R510.
  -/
  | extestPulse (pins : BitVec 1552) (load : BitVec 1552)
  /-- EXTEST_TRAIN (R510). EXTEST_TRAIN drives IEEE 1149.6 pulse trains on the lanes under the pin-control rule of
  R510. -/
  | extestTrain (pins : BitVec 1552) (load : BitVec 1552)
  /-- BYPASS (R509). BYPASS, or any undefined instruction code, selects the bypass register. -/
  | bypass
  /-- JTAG_REG (R511). On Update-DR, JTAG_REG issues one control-space access under owner 0x15 and captures its
  response for the next shift. -/
  | jtagReg (offset : BitVec 24) (write : Bool) (data : BitVec 32)
  /-- JTAG_LOAD (R512). JTAG_LOAD streams an image that acts as a reload in RUN or a boot load in a failed boot,
  without writing Slate. -/
  | jtagLoad (bytes : List Byte)
  /-- OUTPUT_SHORT (R524). Three counted mismatching samples on a checked general output disable the pin and log
  DIAG 6. -/
  | outputShort (n : Fin 448)
  /-- GIO_REARM (R524). A 1 written to a bit of GIO_REARM re-enables a pin disabled by a short. -/
  | gioRearm (who : Requester) (b : Fin 14) (pins : BitVec 32)
  /-- FIELD_OVERCURRENT (R527). An overcurrent on a field output is limited, switched off, disabled and logged as
  DIAG 7. -/
  | fieldOvercurrent (n : Fin 64) (mA : BitVec 16)
  /-- GROUP_OVERLOAD (R527). A field group total above 4.4 A switches off and disables every output of the group. -/
  | groupOverload (g : Fin 4) (mA : BitVec 16)
  /-- INRUSH_WINDOW_END (R527). 10 ms after switch-on the trip level of an INRUSH output returns to 0.75 A. -/
  | inrushWindowEnd (n : Fin 64)
  /-- FIO_REARM (R527). A 1 written to a bit of FIO_REARM re-enables a disabled field output. -/
  | fioRearm (who : Requester) (g : Fin 4) (pins : BitVec 16)
  /-- FIELD_INPUT_CHANGE (R525). A field input's raw state held for its filter time changes the filtered value
  delivered to the design. -/
  | fieldInputChange (n : Fin 64) (value : Bool)
  /-- WIRE_BREAK (R526). An input current below 0.2 mA for 10 ms sets a wire break, and at or above 0.35 mA for 10
  ms clears it. -/
  | wireBreak (n : Fin 64) (broken : Bool)
  /-- OPEN_LOAD_TEST (R528). Every 100 ms a 50 µA test current probes an off output for an open load. -/
  | openLoadTest (n : Fin 64) (mV : BitVec 16)
  /-- OPEN_LOAD (R528). An open load is set after the on-state or off-state condition persists and clears after a
  clear interval. -/
  | openLoad (n : Fin 64) (isOpen : Bool)
  /-- VFIELD_GOOD (R529). VFIELDg held at or above 10.0 V for 10 ms becomes good and the group's outputs and
  detection resume. -/
  | vfieldGood (g : Fin 4) (mV : BitVec 16)
  /-- VFIELD_UNDERVOLTAGE (R529). VFIELDg below 9.0 V for 10 µs switches the group's outputs off and suspends its
  detection. -/
  | vfieldUndervoltage (g : Fin 4) (mV : BitVec 16)
  /-- VFIELD_REVERSAL (R529). VFIELDg below −0.5 V disables the group as for undervoltage and sets REVERSED. -/
  | vfieldReversal (g : Fin 4) (mV : BitVec 16)
  /-- PCIE_COMPLETION (R205). A completion from the host for a device-issued read or for a FLUSH's zero-length read
  arrives at an endpoint, which then answers the spine request. -/
  | pcieCompletion (id : Nat) (data : List (BitVec 256))
  /-- PCIE_COMPLETION_TIMEOUT (R217). The PCIe completion timeout of a device-issued read or FLUSH expires at an
  endpoint, which answers TIMEOUT. -/
  | pcieCompletionTimeout (id : Nat)
  /-- RETENTION_LOSS (R358). In OFF with VIN absent both holdup banks fall to 2.0 V, the Umber island stops and its
  retained data are lost. -/
  | retentionLoss
  /-- CDR_LOCK_LOSS (R439). A lane's CDR loses lock, so its recovered clock stops, a running eye scan aborts and
  LOCK_LOSS counts the event. -/
  | cdrLockLoss (l : Fin 32)
  /-- ALIGNMENT_LOSS (R445). A lane loses comma, block or header lock, so ALIGNED falls, the adaptation coefficients
  freeze and LOCK_LOSS counts the event. -/
  | alignmentLoss (l : Fin 32)
  /-- FABRIC_CLOCK_EDGE (R79). A fabric clock edge makes the LEs, flip-flops, RAM blocks, FIFOs and MAC blocks of a
  running region compute and capture as their rules state. -/
  | fabricClockEdge (k : Fin 16) (rising falling : List ClockSource) (pads : BitVec 32) (lanes : List LaneEdge)
      (rspReady reqReady : List (Fin 64))
  deriving DecidableEq, Repr

end Sys2Proof
end

