-- ==== Sys2Proof/WellFormed.lean ====
section
/-! DEFINITION. Which commands are well-formed: the bounds on a command's operands that their types do not state. An
ill-formed command stands for nothing that can happen at the device. -/

namespace Sys2Proof

set_option Elab.async false

/-- A list of numbers that names each of its members once. -/
def noRepeats (l : List Nat) : Bool := l.eraseDups.length == l.length

/-- Positions of code bits of a page that read inverted (11 R324): below 37,504, each once. -/
def codeBitSet (l : List Nat) : Bool := noRepeats l && l.all fun j => decide (j < 37504)

/-- The code bits that read inverted in pages of an image, each page named once. -/
def pageErrors (l : List (Nat × List Nat)) : Bool := noRepeats (l.map (·.1)) && l.all (codeBitSet ·.2)

/-- At least one of something, and at most `n`. -/
def someOf (k n : Nat) : Bool := decide (0 < k) && decide (k ≤ n)

/-- A TLP addresses whole doublewords (02 R53). -/
def dwAligned (offset : BitVec 32) : Bool := offset.toNat % 4 == 0

/-- The check of every command, in the table's order. -/
def Instr.wellFormed (i : Instr) : Bool :=
  match i with
  | .vinGood => true
  | .timebaseSwitch => true
  | .imageCheck bad => pageErrors bad
  | .chunkArrival _ bad => pageErrors bad
  | .frameWrite _ _ => true
  | .loadComplete _ => true
  | .wipeDone _ => true
  | .goldFallback => true
  | .runEntry => true
  | .perstRelease _ => true
  | .linkUp _ _ _ => true
  | .perstLow _ => true
  | .hotReset _ => true
  | .linkDown _ => true
  | .functionLevelReset _ => true
  | .mailboxClearDone _ => true
  | .linkPowerState _ _ => true
  | .barTlp _ _ offset _ ds => dwAligned offset && someOf ds.length 1024
  | .spiRead _ words _ => decide (0 < words)
  | .spiWriteWord _ _ => true
  | .spiStatus => true
  | .spiUnknownOperation _ => true
  | .spiCsRise => true
  | .mailboxEntryWrite _ _ _ _ => true
  | .mbxReqTailWrite _ _ _ => true
  | .mbxRspHeadWrite _ _ _ => true
  | .mbxClear _ _ _ => true
  | .packetStart => true
  | .nop _ => true
  | .hostAttachGet _ => true
  | .hostAttachSet _ _ _ => true
  | .registerWrite _ _ _ _ => true
  | .latchingRead _ _ _ => true
  | .requestSubmit _ _ _ beats => someOf beats.length 16
  | .creditGrant _ => true
  | .spineRequest _ => true
  | .flush _ => true
  | .responseArrival _ _ => true
  | .requesterTimeout _ => true
  | .iniReq _ _ _ _ offered => someOf offered.beats.length 16
  | .tgtRsp _ _ offered => decide (offered.data.length ≤ 16)
  | .targetResponseTimeout _ => true
  | .ingressWaitTimeout _ => true
  | .resyncAck _ => true
  | .channelReopen _ => true
  | .stallDetect _ => true
  | .spineRateMeasure _ => true
  | .marginProbe _ => true
  | .spnFairClr _ => true
  | .spnStallInject _ _ _ _ => true
  | .bnkOwnerHandover _ _ _ _ _ => true
  | .attRegionParentHandover _ _ _ _ _ => true
  | .attGroupParentHandover _ _ _ _ _ => true
  | .clearOnHandover _ => true
  | .ownRead _ => true
  | .ownHandover _ => true
  | .ownRecordGet _ => true
  | .ownRecordSet _ _ _ => true
  | .bankRead _ _ _ => true
  | .bankWrite _ _ _ _ _ => true
  | .scrubStep _ => true
  | .scrubPassOverdue _ => true
  | .bankClear _ => true
  | .bankClearDone _ => true
  | .bnkInject _ _ _ _ _ _ => true
  | .bnkParkWrite _ _ _ _ _ _ => true
  | .slicePage _ found => noRepeats (found.map (·.1))
  | .dmaDoorbell _ _ _ => true
  | .ringEnable _ _ _ _ => true
  | .ringDisable _ _ => true
  | .ringHalt _ _ => true
  | .ringResume _ _ => true
  | .dmaIssue _ => true
  | .descriptorStart _ _ => true
  | .chainNext _ _ => true
  | .completionWrite _ => true
  | .msixSend _ => true
  | .attKeyChange _ _ _ _ => true
  | .attMapWrite _ _ _ _ _ _ => true
  | .attSweep => true
  | .slateRead _ flips => codeBitSet flips
  | .eraseResume _ => true
  | .slateIngressTimeout => true
  | .pageProgramDone _ _ => true
  | .blockEraseDone _ _ _ => true
  | .patrolRead flips => codeBitSet flips
  | .checkpoint _ _ => true
  | .journalEraseAhead _ => true
  | .indexRebuild => true
  | .archiveWrite _ => true
  | .extentErase _ => true
  | .setRead _ _ => true
  | .setWrite _ => true
  | .setDelete _ => true
  | .setCommit _ _ _ => true
  | .setList _ => true
  | .pageStability _ flips => flips.all fun page => page.all codeBitSet
  | .usrWrite _ => true
  | .usrErase _ => true
  | .usrExtentSet _ _ _ => true
  | .ledgerSample _ _ _ _ _ domains => noRepeats (domains.map (·.1.val))
  | .capacitanceMeasurement _ _ _ _ _ => true
  | .extHoldChargeTimeout => true
  | .reserveShort _ => true
  | .reserveShortClear => true
  | .holdupEntry => true
  | .holdupRound _ => true
  | .holdupOff => true
  | .vinReturn => true
  | .nrgQuery _ => true
  | .nrgSnapshotRead _ _ => true
  | .nrgCapMeasure _ => true
  | .pwrDoze _ => true
  | .dozeEntryComplete => true
  | .dozeWake _ => true
  | .dozeExit => true
  | .pwrRegion _ => true
  | .pwrBankGroup _ => true
  | .pwrQuad _ => true
  | .devShutdown _ => true
  | .devReboot _ => true
  | .orderlyCommit _ => true
  | .restart _ _ => true
  | .vinOff => true
  | .nresetIn => true
  | .pllApply _ _ _ _ => true
  | .referenceWindow _ _ => true
  | .pllLock _ => true
  | .pllQualified _ => true
  | .pllLoss _ _ => true
  | .pllSet _ => true
  | .pllSetTimeout _ => true
  | .pllBootSet _ _ _ => true
  | .pllBandLoad _ => true
  | .tmbSample _ => true
  | .alarmArm _ _ _ _ => true
  | .alarmDisarm _ _ _ _ => true
  | .alarmFire _ => true
  | .clrUncert _ => true
  | .lcPllApply _ _ _ _ _ _ _ => true
  | .lcPllLoss _ _ => true
  | .lcPllLock _ _ => true
  | .laneConfiguration _ _ _ => true
  | .cdrLock _ => true
  | .alignment _ => true
  | .adaptation _ => true
  | .txUnderrun _ => true
  | .rxOverflow _ => true
  | .recoveredClockStart _ _ => true
  | .eyeScanStart _ _ _ _ _ => true
  | .eyeScanDone _ _ => true
  | .referenceOscillatorWindow _ refs _ => noRepeats (refs.map (·.1.val))
  | .correctionHoldExpiry => true
  | .slateReadReferenceWindow _ _ _ _ => true
  | .energyMeterWindow _ _ _ _ _ => true
  | .thermalWindow _ zones => noRepeats (zones.map (·.1.val))
  | .thermalSample zones => noRepeats (zones.map (·.1.val))
  | .calInject _ _ => true
  | .lockstepMismatch => true
  | .safReq _ => true
  | .safEnter _ => true
  | .safCfgCritWrite _ _ => true
  | .safPllCritWrite _ _ => true
  | .safIoCritWrite _ _ => true
  | .safInject _ _ _ => true
  | .eventLogEntry => true
  | .scrubCompare _ struck => noRepeats (struck.map (·.val))
  | .scrubRepair _ _ bad => pageErrors bad
  | .cfgScrubInject _ _ => true
  | .scrubQuery _ => true
  | .ldReload _ bad => pageErrors bad
  | .reloadFence => true
  | .imgDirRead _ => true
  | .imgAlloc _ => true
  | .imgWrite _ => true
  | .imgCommit _ bad => pageErrors bad
  | .imgSetState _ => true
  | .imgSelect _ => true
  | .imgRegionSelect _ => true
  | .bstSlice _ => true
  | .bstProgRun _ => true
  | .selftestDone _ fails => noRepeats (fails.map (·.1.val))
  | .lcAdvance _ => true
  | .lcKeySet _ _ => true
  | .lcRevoke _ => true
  | .lcImageKeySet _ => true
  | .lcGoldWrite _ => true
  | .lcGoldCommit _ bad => pageErrors bad
  | .testLogicReset => true
  | .extest _ _ => true
  | .samplePreload _ _ => true
  | .idcode => true
  | .clamp => true
  | .highz => true
  | .extestPulse _ _ => true
  | .extestTrain _ _ => true
  | .bypass => true
  | .jtagReg _ _ _ => true
  | .jtagLoad _ => true
  | .outputShort _ => true
  | .gioRearm _ _ _ => true
  | .fieldOvercurrent _ _ => true
  | .groupOverload _ _ => true
  | .inrushWindowEnd _ => true
  | .fioRearm _ _ _ => true
  | .fieldInputChange _ _ => true
  | .wireBreak _ _ => true
  | .openLoadTest _ _ => true
  | .openLoad _ _ => true
  | .vfieldGood _ _ => true
  | .vfieldUndervoltage _ _ => true
  | .vfieldReversal _ _ => true
  | .pcieCompletion _ data => decide (data.length ≤ 16)
  | .pcieCompletionTimeout _ => true
  | .retentionLoss => true
  | .cdrLockLoss _ => true
  | .alignmentLoss _ => true
  | .fabricClockEdge _ rising falling _ lanes rspReady reqReady =>
    !rising.any falling.contains && noRepeats (lanes.map (·.lane.val)) && noRepeats (rspReady.map (·.val)) &&
      noRepeats (reqReady.map (·.val))

end Sys2Proof
end

