-- ==== Sys2Proof/Machine/Codes.lean ====
section
/-! DEFINITION. The codes of stored data: the (72,64) word code (09 R255, R256), the page code over GF(2^16) (09 R257)
with its decoder, and CRC-32 (04 R121). -/

namespace Sys2Proof.Machine

set_option Elab.async false

/-! ## Word code -/

def weight (n : Nat) : Nat → Nat
  | 0 => 0
  | w + 1 => (n.testBit w).toNat + weight n w

/-- The 8-bit column values of the 72 row bits (09 R255). -/
def columns : List Nat :=
  (List.range 256).filter (fun v => weight v 8 = 3) ++
    ((List.range 256).filter (fun v => weight v 8 = 5)).take 8 ++ (List.range 8).map (2 ^ ·)

/-- The check byte of a data word: the exclusive or of the columns of its set bits. -/
def checkByte (d : DWord) : BitVec 8 :=
  (columns.take 64).zipIdx.foldl (fun c ci => if d.getLsbD ci.2 then c ^^^ BitVec.ofNat 8 ci.1 else c) 0

/-- The row that stores a data word: data bits below, check bits above. -/
def encodeRow (d : DWord) : BitVec 72 := checkByte d ++ d

/-- What a row reads as (09 R256). -/
inductive Decoded
  | clean (d : DWord)
  | corrected (d : DWord)
  | uncorrectable (stored : DWord)
  deriving DecidableEq, Repr

def Decoded.value : Decoded → DWord
  | .clean d | .corrected d | .uncorrectable d => d

def Decoded.bad : Decoded → Bool
  | .uncorrectable _ => true
  | _ => false

def Decoded.fixed : Decoded → Bool
  | .corrected _ => true
  | _ => false

/-- The bit of a row whose column is `syn`. -/
def columnIndex (syn : Nat) : Option Nat := columns.findIdx? (· == syn)

/-- Syndrome decoding of a row (09 R256). -/
def decodeRow (r : BitVec 72) : Decoded :=
  let d : DWord := r.setWidth 64
  let syn := (checkByte d ^^^ (r >>> 64).setWidth 8).toNat
  if syn = 0 then .clean d
  else match columnIndex syn with
    | some i => .corrected (if i < 64 then d ^^^ BitVec.ofNat 64 (2 ^ i) else d)
    | none => .uncorrectable d

/-! ## GF(2^16), x^16 + x^12 + x^3 + x + 1 -/

def gfDouble (a : Nat) : Nat := if a < 0x8000 then 2 * a else Nat.xor (2 * a) 0x1100B

/-- Product, over the bits of the second factor from bit `n - 1` down. -/
def gfMulFrom (a b : Nat) : Nat → Nat → Nat
  | 0, acc => acc
  | n + 1, acc => gfMulFrom a b n (Nat.xor (gfDouble acc) (if b.testBit n then a else 0))

def gfMul (a b : Nat) : Nat := gfMulFrom a b 16 0

def gfPow (a : Nat) : Nat → Nat
  | 0 => 1
  | n + 1 => gfMul a (gfPow a n)

/-- a to the power 2^16 − 2, by squaring: the inverse. -/
def gfInvFrom (sq : Nat) : Nat → Nat → Nat
  | 0, acc => acc
  | n + 1, acc => gfInvFrom (gfMul sq sq) n (gfMul acc sq)

def gfInv (a : Nat) : Nat := gfInvFrom (gfMul a a) 15 1

/-- α to the power n, α = 2. -/
def alpha : Nat → Nat
  | 0 => 1
  | n + 1 => gfDouble (alpha n)

/-! ## Page code -/

/-- The coefficients of g(x) = (x − α^0) … (x − α^7) below x^8, highest first. -/
def generator : List Nat :=
  ((List.range 8).foldl (fun (g : List Nat) j =>
    List.zipWith Nat.xor (g ++ [0]) (0 :: g.map (gfMul (alpha j)))) [1]).tail

/-- One division step: the remainder after the next symbol, highest coefficient first. -/
def remainderStep (rem : List Nat) (sym : Nat) : List Nat :=
  let f := Nat.xor sym (rem.headD 0)
  List.zipWith Nat.xor (rem.tail ++ [0]) (generator.map (gfMul f))

/-- The 8 parity symbols of a lane's 512 data symbols, p(l, 0) first. -/
def laneParity (syms : List Nat) : List Nat := syms.foldl remainderStep (List.replicate 8 0)

/-- R_w(x) = x^(519 − w) mod g(x), highest coefficient first (09 R258). -/
def deltaRow (w : Nat) : List Nat :=
  (List.range (511 - w)).foldl (fun r _ => remainderStep r 0) (remainderStep (List.replicate 8 0) 1)

/-- Evaluation of a codeword, highest coefficient first. -/
def evalPoly (cs : List Nat) (x : Nat) : Nat := cs.foldl (fun a c => Nat.xor (gfMul a x) c) 0

def syndromes (cw : List Nat) : List Nat := (List.range 8).map fun j => evalPoly cw (alpha j)

/-- The state of the Berlekamp–Massey iteration: Λ and B, lowest coefficient first, L, and the last discrepancy with
the steps since it. -/
structure Locator where
  lam : List Nat
  prev : List Nat
  len : Nat
  disc : Nat
  gap : Nat

def addPoly (a b : List Nat) : List Nat :=
  (List.range (max a.length b.length)).map fun i => Nat.xor (a.getD i 0) (b.getD i 0)

def locatorStep (syn : List Nat) (st : Locator) (n : Nat) : Locator :=
  let d := (List.range (st.len + 1)).foldl
    (fun a i => Nat.xor a (gfMul (st.lam.getD i 0) (if i ≤ n then syn.getD (n - i) 0 else 0))) 0
  if d = 0 then { st with gap := st.gap + 1 }
  else
    let c := gfMul d (gfInv st.disc)
    let lam' := addPoly st.lam (List.replicate st.gap 0 ++ st.prev.map (gfMul c))
    if 2 * st.len ≤ n then { lam := lam', prev := st.lam, len := n + 1 - st.len, disc := d, gap := 1 }
    else { st with lam := lam', gap := st.gap + 1 }

/-- The value at one position of the error pattern (Forney, first root α^0). -/
def errorValue (syn lam : List Nat) (e : Nat) : Nat :=
  let x := alpha e
  let xi := gfInv x
  let omega := (List.range 8).map fun i =>
    (List.range (i + 1)).foldl (fun a j => Nat.xor a (gfMul (lam.getD j 0) (syn.getD (i - j) 0))) 0
  let num := evalPoly omega.reverse xi
  let deriv := (List.range lam.length).foldl
    (fun a i => if i % 2 = 1 then Nat.xor a (gfMul (lam.getD i 0) (gfPow xi (i - 1))) else a) 0
  gfMul x (gfMul num (gfInv deriv))

/-- Decodes a lane of 520 symbols, the symbol of x^519 first: the corrected lane, or none where more than 4 symbols
are in error as far as the decoder can tell. -/
def decodeLane (cw : List Nat) : Option (List Nat) :=
  let syn := syndromes cw
  if syn.all (· == 0) then some cw
  else
    let st := (List.range 8).foldl (locatorStep syn) ⟨[1], [1], 0, 1, 1⟩
    let roots := (List.range 520).filter fun e => evalPoly st.lam.reverse (gfInv (alpha e)) == 0
    if 4 < st.len || roots.length ≠ st.len then none
    else
      let cw' := cw.zipIdx.map fun ci =>
        if roots.contains (519 - ci.2) then Nat.xor ci.1 (errorValue syn st.lam (519 - ci.2)) else ci.1
      if (syndromes cw').all (· == 0) then some cw' else none

/-- Symbol of lane `l` of a word. -/
def lane (l : Nat) (d : DWord) : Nat := (d >>> (16 * l)).toNat % 65536

/-- A word from its four lane symbols. -/
def ofLanes (s0 s1 s2 s3 : Nat) : DWord :=
  BitVec.ofNat 64 (s0 + 2 ^ 16 * s1 + 2 ^ 32 * s2 + 2 ^ 48 * s3)

/-- The 8 parity words of a page's 512 logical data words (09 R257). -/
def pageParity (ws : List DWord) : List DWord :=
  let p := fun l => laneParity (ws.map (lane l))
  (List.range 8).map fun i => ofLanes ((p 0).getD i 0) ((p 1).getD i 0) ((p 2).getD i 0) ((p 3).getD i 0)

/-- The page's 520 logical words, data then parity, after decoding every lane; none where a lane fails (09 R260). -/
def decodePage (ws : List DWord) : Option (List DWord) :=
  match decodeLane (ws.map (lane 0)), decodeLane (ws.map (lane 1)), decodeLane (ws.map (lane 2)),
      decodeLane (ws.map (lane 3)) with
  | some a, some b, some c, some d =>
    some ((List.range 520).map fun i => ofLanes (a.getD i 0) (b.getD i 0) (c.getD i 0) (d.getD i 0))
  | _, _, _, _ => none

/-- Whether a page's 520 logical words form codewords. -/
def pageConsistent (ws : List DWord) : Bool :=
  (List.range 4).all fun l => (syndromes (ws.map (lane l))).all (· == 0)

/-- The parity words after data word `w` changes by `delta` (09 R258). -/
def deltaParity (w : Nat) (delta : DWord) (ps : List DWord) : List DWord :=
  let r := deltaRow w
  let t := fun l i => gfMul (lane l delta) (r.getD i 0)
  ps.zipIdx.map fun pi => pi.1 ^^^ ofLanes (t 0 pi.2) (t 1 pi.2) (t 2 pi.2) (t 3 pi.2)

/-! ## CRC-32 (04 R121) -/

def crcStep (c : Nat) : Nat → Nat
  | 0 => c
  | n + 1 => crcStep (if c.testBit 0 then Nat.xor (c / 2) 0xEDB88320 else c / 2) n

/-- The reflected CRC-32 of a run of bytes, preset and inverted to all ones. -/
def crc32 (bs : List Byte) : Nat :=
  Nat.xor (bs.foldl (fun c b => crcStep (Nat.xor c b.toNat) 8) 0xFFFFFFFF) 0xFFFFFFFF

/-! ## Bytes, little-endian (00 R11) -/

/-- The `n` bytes of a number, low byte first. -/
def leBytes : Nat → Nat → List Byte
  | 0, _ => []
  | n + 1, v => BitVec.ofNat 8 v :: leBytes n (v / 256)

/-- The number of bytes, low byte first. -/
def ofLe : List Byte → Nat
  | [] => 0
  | b :: bs => b.toNat + 256 * ofLe bs

end Sys2Proof.Machine
end

