-- ==== Sys2Proof/Config.lean ====
section
/-! DEFINITION. What the manual leaves open: free values, as constants without a body. -/

namespace Sys2Proof

set_option Elab.async false

/-! ## Layouts of the database (04 R132)

The layout of the cells within logic tile, MAC, RAM control and periphery frames is the database's. Each constant below
reads one element's settings out of a frame's cells; which cells they are is open, and so is every value. -/

/-- The settings of logic element `le` of a tile with these cells. -/
opaque Config.leCells (cells : BitVec 10240) (le : Nat) : BitVec 96

/-- The set/reset line modes of cluster `c` of a tile with these cells. -/
opaque Config.clusterCells (cells : BitVec 10240) (c : Nat) : BitVec 4

/-- The settings in a RAM tile's control frame. -/
opaque Config.ramCells (cells : BitVec 10240) : BitVec 64

/-- The settings in a MAC tile's frame. -/
opaque Config.macCells (cells : BitVec 10240) : BitVec 32

/-- A region port's side enables, from the region control frame that holds them: bit 0 initiator, bit 1 target. -/
opaque Config.portCells (cells : BitVec 10240) : BitVec 2

/-- The quadrant line that track `t` (0 or 1) of a regional clock track frame selects. -/
opaque Config.trackCells (cells : BitVec 10240) (t : Nat) : BitVec 5

/-- The sectors, by bit, that take track `t` (0 or 1) of a regional clock track frame (03 R102). -/
opaque Config.trackSectors (cells : BitVec 10240) (t : Nat) : BitVec 10

/-- Which of its sector's tracks, counted from 0, is clock `i` (0 or 1) of cluster `c` of a logic tile, or of a RAM or MAC
tile, for which `c` is 0. -/
opaque Config.tileTracks (cells : BitVec 10240) (c i : Nat) : BitVec 4

/-- The regional track that clocks a region port, from the port's first frame (03 R106, Table 4-6). -/
opaque Config.portTrack (cells : BitVec 10240) : BitVec 4

/-- The choice that sink `i` of kind `kind` makes among the places it can be driven from (03 R84). -/
opaque Config.route (cells : BitVec 10240) (kind i : Nat) : BitVec 40

/-- The value of a signal in a loop of lookup tables and wires without a register. -/
opaque Config.loopValue : Nat → Bool

/-- CASC_IN of the lowest MAC tile of a column, which has none below it (03 R99). -/
opaque Config.openCascade : Nat → BitVec 64

/-- The region control frame qualifies the channels of the edges N, E, S, W, by bit, to open (Table 4-6). -/
opaque Config.channelQualified (cells : BitVec 10240) : BitVec 4

/-- A boundary channel frame enables its side; and the hold value of incoming signal `i`. -/
opaque Config.channelCells (cells : BitVec 10240) : Bool
opaque Config.channelHold (cells : BitVec 10240) (i : Nat) : Bool

/-- The VCCIO code in the region control frames. -/
opaque Config.vccioCells (cells : BitVec 10240) : BitVec 3

/-- The settings of a general pin's frame, but for the all-zero payload, which 17 R465 fixes: bits 1 and 0 the hold
level (0 LAST, 1 HIZ, 2 LOW, 3 HIGH), bits 3 and 2 the safe state (0 HIZ, 1 LOW, 2 and 3 HIGH), bits 6 to 4 the VCCIO
code of its standard (0 any), bit 7 SHORT_CHK, bit 8 open drain, bits 10 and 9 the output register and bits 12 and 11 the
input register (0 none, 1 SDR, else DDR), bits 16 to 13 the track of those registers, bit 17 LVDS (20 R522). -/
opaque Config.gioCells (cells : BitVec 10240) : BitVec 18

/-- The settings of a field pin's frame, likewise: bit 0 hold level LAST, bit 1 output (else input), bit 2 INRUSH, bit 3
open-load detection, bit 4 wire-break detection, bits 6 and 5 the filter time code, bit 7 low-side. -/
opaque Config.fioCells (cells : BitVec 10240) : BitVec 16

/-! ## Outcomes of a fabric clock edge that the manual does not specify -/

/-- Which of two ports' values a word keeps, and whether a read sees the word before or after a write (03 R91). -/
opaque Config.ramCollision : Nat → Bool

/-- Whether a FIFO's flags reflect the other side's latest access at this edge already (03 R92: within 3 cycles). -/
opaque Config.fifoFlagSeen : Nat → Bool

/-- What the output of a RAM block's port holds before it has first been read, by the block's first frame; and what an ECC
read returns as data when a double error is flagged. -/
opaque Config.ramOutput : Nat → BitVec 80

/-! ## Published algorithms the manual names (04 R133, R135, R138; 19 R501)

SHA-384 of FIPS 180-4, ECDSA over P-384 of FIPS 186-5, and AES-256-GCM of SP 800-38D: the standards are outside the
manual, so what they compute is left open. -/

/-- SHA-384 of a run of bytes. -/
opaque Config.sha384 : List Byte → BitVec 384

/-- Whether a signature (r, s as big-endian bytes) of a message verifies under an uncompressed public key. -/
opaque Config.ecdsaVerify (key message r s : List Byte) : Bool

/-- AES-256-GCM decryption under key and IV: the plaintext, or none where the tag does not match. -/
opaque Config.gcmOpen (key iv cipher tag : List Byte) : Option (List Byte)

/-! ## Undefined Slate pages (11 R327) -/

/-- How an undefined page reads this time: up to 40 as erased with that many zero bits, up to 81 as good with that many
corrections less 41, else as uncorrectable. -/
opaque Config.undefinedPage : Nat → BitVec 7

/-- The pulses that a page program of the journal or the archive took, less one (11 R331): its command carries none. -/
opaque Config.programPulses : Nat → BitVec 5

/-- Word `i` of an undefined page that reads as good this time. -/
opaque Config.undefinedWord (n i : Nat) : BitVec 64

/-! ## What is written at manufacture (14 R410; 16 R449; 19 Table 19-9) -/

/-- Entry `b` of PLL `k`'s band table in the factory record, laid out as PLL_BAND. -/
opaque Config.factoryBand (k b : Nat) : BitVec 32

/-- Word `w` of the device's unique identifier. -/
opaque Config.uid (w : Nat) : BitVec 32

/-- The speed grade is 2, else 1 (01 DEV_STEP). -/
opaque Config.fastGrade : Bool

/-- Spare columns of bank `n` selected by fuses (09 R272). -/
opaque Config.fuseColumns (n : Nat) : Fin 9

/-- What a discharge test that sees no voltage drop measures, in tenths of a microfarad (12 R357 divides by the drop). -/
opaque Config.capacitance (n : Nat) : BitVec 20

/-- The current in milliamperes that flows in a field output whose overcurrent comparator is forced (20 R527). -/
opaque Config.pinCurrent : Nat → BitVec 16

/-- Word `i` of a Slate test block written with pattern 1 to 3 of Table 18-2, whose cells the manual does not lay out. -/
opaque Config.testPattern (pattern i : Nat) : BitVec 64

/-- What a row of a bank holds, by its key, after a self-test of the bank has been cut short. -/
opaque Config.cutRow (n key : Nat) : BitVec 72

/-- The disagreements that an eye scan has counted when it ends early (15 R440). -/
opaque Config.abortedScan : Nat → BitVec 24

/-- ARG1 of a DIAG event whose diagnostic states no value (17 Table 17-5). -/
opaque Config.diagValue : Nat → BitVec 32

end Sys2Proof
end

