-- ==== Sys2Proof/Machine/State.lean ====
section
/-! DEFINITION. The state of the device as plain data. Every control register field lives in `State.regs`; the other
components hold what the chapters give the device beside its registers, one structure per chapter. Sparse data is a
list of key and entry pairs in the canonical form of `SMap`. -/

namespace Sys2Proof.Machine

set_option Elab.async false

/-- No command's meaning stops with a fault but for stress beyond the ratings. -/
inductive Fault
  /-- Raised by a command that carries a measured voltage or temperature beyond Table 21-1: stress beyond the ratings
  may damage the device and the manual gives no behaviour (21 R535). Safe: the model stops where hardware may go on. -/
  | beyondRatings
  deriving DecidableEq, Repr

/-- Why a command has no meaning in this model. -/
inductive Refusal
  /-- Raised by `exec` for a command whose meaning is not written. Safe: the model stops. -/
  | notModelled (mnemonic : String)
  deriving DecidableEq, Repr

/-- The operating modes (13 R380, Table 13-1). -/
inductive Mode | off | boot | run | doze | holdup | safe
  deriving DecidableEq, Repr

/-! ## Host attachment (spec/02) -/

/-- What a mailbox packet that has begun to execute waits for before its reply is written (02 R70): nothing, the end
of a clear or wipe (08 R249), of a power-up (13 R385, R386), of a PLL change (14 R427), of a commit (13 R393), of the
slice tests of BST_SLICE (18 R491), of the counted sweeps of SCRUB_QUERY (06 R194), of a capacitance measurement (12
R378), or of a program or an erase of the Slate store (11 R353, 05 R174). -/
inductive Wait
  | nothing
  | bankClear (n : Nat)
  | regionWipe (k : Nat)
  | groupClear (g : Nat)
  | groupPower (g : Nat)
  | pll (k : Nat)
  | commit
  | slice
  | sweep
  | load
  | capacitance
  | unit
  deriving DecidableEq, Repr

/-- A packet the MGC has taken from a request ring and is executing (02 R66, R70). -/
structure Packet where
  opcode : Nat
  irq : Bool
  seq : Nat
  params : List Word
  /-- The owner the command acts for (02 R69 check 4, 08 R237). -/
  acts : Nat
  /-- TARGET of its header. -/
  target : Nat := 0
  /-- Its reply is discarded and counted (02 Table 2-9). -/
  discard : Bool := false
  wait : Wait := .nothing
  /-- Progress of a command of several units, and what its reply will carry. -/
  progress : Nat := 0
  note : List Nat := []
  deriving DecidableEq, Repr

/-- The five mailboxes (02 R62 to R75). Ring words are keyed `4096 * m + word`. -/
structure Mail where
  request : SMap Word := []
  reply : SMap Word := []
  running : SMap (Option Packet) := []
  /-- 1 while the mailbox's pointers and rings are being cleared (Table 2-9). -/
  clearing : SMap Bool := []
  /-- The CLEAR write whose acknowledgement waits for the clearing (02 R75): 1 a direct access, 2 an SPI write, else a
  spine transaction, by its number and 3. -/
  clearAck : SMap Nat := []
  /-- The mailbox served last (02 R70). -/
  last : Nat := 4
  deriving DecidableEq, Repr

/-- PCIe endpoint k, apart from its registers (02 R50, R51, R57, R74). -/
structure Endpoint where
  perstHigh : Bool := false
  d3hot : Bool := false
  aspmL1 : Bool := false
  /-- Words of the configuration space, as the exclusive or with their values after a reset, keyed by doubleword. -/
  config : SMap Word := []
  deriving DecidableEq, Repr

/-- A TLP completion or SPI or JTAG answer as its host sees it: response codes and data words. -/
structure Answer where
  codes : List Resp
  words : List Word
  /-- Unsupported Request (Table 2-3). -/
  unsupported : Bool := false
  /-- EP bit of a completion (Table 2-3). -/
  poisoned : Bool := false
  deriving DecidableEq, Repr

/-- A BAR TLP whose spine transactions are outstanding (02 R53): endpoint, direction, its doublewords so far, one
response code per part, and the parts still to answer. A part is numbered by its first doubleword. -/
structure BarTlp where
  id : Nat
  k : Nat
  write : Bool
  /-- Spine address of the first doubleword, and how many there are. -/
  base : Nat
  count : Nat
  words : SMap Word := []
  codes : SMap (Option Resp) := []
  left : Nat
  deriving DecidableEq, Repr

/-- Table 2-5. -/
inductive SpiOp | read | write | status | unknown
  deriving DecidableEq, Repr

/-- The management SPI port (02 R59 to R61). -/
structure Spi where
  op : Option SpiOp := none
  /-- Address of the next word of the WRITE in progress. -/
  next : Nat := 0
  lastWrite : Nat := 0
  nonOk : Nat := 0
  out : List Byte := []
  deriving DecidableEq, Repr

/-- Endpoints, SPI port and their local state. MSI-X table words are keyed `8192 * k + word`, PBA bits and sent
messages `2048 * k + vector`. -/
structure HostSide where
  endpoint : SMap Endpoint := []
  msixTable : SMap Word := []
  pba : SMap Bool := []
  msixSent : SMap Nat := []
  spi : Spi := {}
  /-- The last completion each endpoint returned to its host. -/
  completion : SMap Answer := []
  /-- The TLPs of the last write each endpoint sent to its host, none longer than the Maximum Payload Size: host address,
  beats, and whether the TLP was poisoned. -/
  sent : SMap (List (Nat × List BeatIn × Bool)) := []
  /-- PCIe errors reported for posted writes, per endpoint (Table 2-3, AER). -/
  aer : SMap Nat := []
  tlps : List BarTlp := []
  nextTlp : Nat := 0
  deriving DecidableEq, Repr

/-! ## The spine (spec/07) -/

/-- What a requester port does with a response (07 R203): the consumer of the transaction. -/
inductive Consumer
  | bar (tlp : Nat) (part : Nat)
  | design (dtag : Nat)
  | dma (ring : Nat) (job : Nat)
  | other
  deriving DecidableEq, Repr

/-- A transaction: the header of Table 7-3, its beats, and where it came from. -/
structure Txn where
  id : Nat
  src : Nat
  owner : Nat
  kind : TxnKind
  addr : Nat
  beats : List BeatIn
  tag : Nat := 0
  user : Consumer := .other
  /-- The requester port has already completed it with TIMEOUT (07 R216). -/
  expired : Bool := false
  /-- Issued before a fence of its region or a host reset: its response is discarded (07 R224, R228). -/
  stale : Bool := false
  /-- Discarded at an isolated unit: no response will come (07 R227). -/
  lost : Bool := false
  /-- A write toward host memory that is sent as a poisoned TLP (10 R300). -/
  ep : Bool := false
  /-- Its timer has expired and its tag is free, since an isolated unit lets no response pass (07 R227). -/
  freed : Bool := false
  deriving DecidableEq, Repr

/-- A transaction with the response beats its target answered, and the node inputs that the response has still to pass:
it stands at the first of them (07 R199). -/
structure Answered where
  txn : Txn
  beats : List BeatOut
  way : List (Nat × Nat) := []
  deriving DecidableEq, Repr

/-- The link arbiters of both planes, keyed by plane and output (07 R213, R214): the input after the last one granted,
and, keyed `16 * arbiter + input`, the grants that a waiting input has seen go to others (SPN_FAIR). -/
structure Arbiters where
  next : SMap Nat := []
  passed : SMap Nat := []
  deriving DecidableEq, Repr

/-- The spine. A transaction is in exactly one of five lists, oldest first: waiting for a credit at its requester
port, on the request plane with the node inputs it has still to pass, in a target's ingress queue, taken by a target that
has not answered, or answered and on its way back. -/
structure Spine where
  nextId : Nat := 0
  waiting : List Txn := []
  network : List (Txn × List (Nat × Nat)) := []
  ingress : List Txn := []
  taken : List Txn := []
  answered : List Answered := []
  /-- The group after the last one granted by each target's credit arbiter, and the port after the last in each group, keyed
  `8 * target + group` (07 R214, R215). -/
  lastGroup : SMap Nat := []
  lastPort : SMap Nat := []
  /-- Credit grants a waiting port has seen go to others, keyed `128 * target + port` (SPN_FAIR). -/
  passedOver : SMap Nat := []
  arbiters : Arbiters := {}
  /-- Units isolated after a stall (07 R227). -/
  isolated : List StallUnit := []
  /-- The last response each requester port delivered to its consumer, keyed by port. -/
  delivered : SMap (List BeatOut) := []
  deriving DecidableEq, Repr

/-! ## The fabric's ports, fences and channels (spec/03) -/

/-- The fence causes of Table 3-11, per region. A region begins with "no image loaded yet". -/
structure Fences where
  load : Bool := true
  pll : Bool := false
  dep : Bool := false
  abort : Bool := false
  holdup : Bool := false
  safe : Bool := false
  deriving DecidableEq, Repr

/-- A request that a design has begun to transfer on INI_REQ: its header, and the beats in the crossing FIFO. -/
structure IniOpen where
  dtag : Nat
  write : Bool
  addr : Nat
  count : Nat
  beats : List BeatIn
  deriving DecidableEq, Repr

/-- A response on its way to the design on INI_RSP: its tag, its beats, and how many have transferred. -/
structure IniAnswer where
  dtag : Nat
  beats : List BeatOut
  sent : Nat := 0
  /-- A TIMEOUT of the port's own: its tag is free already (07 R223). -/
  free : Bool := false
  deriving DecidableEq, Repr

/-- Region port p, fabric side (03 R105 to R113). The crossing FIFO (R107) holds, outbound, the beats of `opened` and of
`answering`, and inbound those of `rsp` and `req` that have not transferred. -/
structure RegionPort where
  iniOn : Bool := false
  tgtOn : Bool := false
  /-- FENCE_RESYNC: the port waits for RESYNC_ACK. -/
  resync : Bool := false
  /-- The request whose beats the design is transferring. -/
  opened : Option IniOpen := none
  /-- The response whose beats the design is transferring: the code and data of each so far. -/
  answering : Option (List (Nat × BitVec 256)) := none
  /-- Responses to cross to the design, oldest first. -/
  rsp : List IniAnswer := []
  /-- Target requests to cross to the design, oldest first: identifier, and beats not yet transferred. -/
  req : List (Nat × Nat) := []
  /-- Identifiers of the target requests delivered to the design and not answered, oldest first; `0` for one whose
  answer was given on the design's behalf, so that the design's later response is discarded (03 R110). -/
  delivered : List (Option Nat) := []
  /-- Design tags in use (03 R109). -/
  busy : List Nat := []
  /-- The last response delivered on INI_RSP: tag, and beats. -/
  iniRsp : Option (Nat × List BeatOut) := none
  deriving DecidableEq, Repr

/-- A general I/O pin: what its hold register keeps (03 R115, 17 R465), and its values. -/
structure GioPin where
  /-- Table 3-12: `none` is LAST. -/
  hold : Option PinLevel := some .hiz
  safe : PinLevel := .hiz
  /-- The value driven when the fence applied. -/
  held : PinLevel := .hiz
  /-- What the design drives. -/
  design : PinLevel := .hiz
  malformed : Bool := false
  /-- The settings that the last completed load put into force. -/
  settings : Nat := 0
  /-- JTAG drives the pin (19 R510). -/
  jtag : Option PinLevel := none
  /-- The SDR or DDR output registers: the levels captured for the time after a rising and after a falling edge; and the
  input registers, captured at a rising and at a falling edge (20 R522). -/
  outRise : PinLevel := .hiz
  outFall : PinLevel := .hiz
  inRise : Bool := false
  inFall : Bool := false
  deriving DecidableEq, Repr

/-- A field I/O pin. -/
structure FioPin where
  /-- The hold level is LAST; else OFF. -/
  holdLast : Bool := false
  held : Bool := false
  design : Bool := false
  /-- The settings that the last completed load put into force. -/
  settings : Nat := 0
  jtag : Option Bool := none
  /-- The trip level is still the inrush level (20 R527). -/
  inrush : Bool := false
  /-- Disabled by a group overload rather than by its own trip. -/
  overload : Bool := false
  deriving DecidableEq, Repr

/-- A RAM block's output registers and, in FIFO mode, its pointers, sticky flags and each side's view of the other
side's pointer (03 R90, R92, R94). -/
structure RamState where
  /-- The word last read; none before the first read since the load, when the output is open (`Config.ramOutput`). -/
  outA : Option (BitVec 80) := none
  outB : Option (BitVec 80) := none
  sbeA : Bool := false
  dbeA : Bool := false
  sbeB : Bool := false
  dbeB : Bool := false
  writes : Nat := 0
  reads : Nat := 0
  readsSeen : Nat := 0
  writesSeen : Nat := 0
  lagA : Nat := 0
  lagB : Nat := 0
  overflow : Bool := false
  underflow : Bool := false
  deriving DecidableEq, Repr

/-- A MAC block's register stages, accumulator and sticky flags (03 R96 to R99). -/
structure MacState where
  inputs : MacIn := {}
  pre : MacIn × Int := ({}, 0)
  product : MacIn × Int := ({}, 0)
  p : BitVec 64 := 0
  ovf0 : Bool := false
  ovf1 : Bool := false
  qsat : Bool := false
  deriving DecidableEq, Repr

/-- The fabric: configuration cells per frame, flip-flops keyed `64 * tile + 2 * le + (0 for A, 1 for B)`, RAM and MAC
blocks keyed by frame. -/
structure Fabric where
  cells : SMap (BitVec 10240) := []
  flop : SMap Bool := []
  ram : SMap RamState := []
  mac : SMap MacState := []
  /-- Boundary channels that are open (R87), numbered 0 to 23. -/
  channelOpen : SMap Bool := []
  gio : SMap GioPin := []
  fio : SMap FioPin := []
  /-- Source bytes of global clock lines 5 to 7 (03 R100, 04 R120); 0 is unconfigured. -/
  globalLines : SMap Nat := []
  deriving DecidableEq, Repr

/-! ## Images and loading (spec/04 to spec/06) -/

/-- The fields of an image header that loading and the directory use (04 R119). -/
structure Header where
  imageType : Nat
  mask : Nat
  keySlot : Nat
  encrypted : Bool
  frameCount : Nat
  chunkCount : Nat
  imageLen : Nat
  trailer : Nat
  nonce : List Byte
  lines : List Nat
  version : Nat
  deriving DecidableEq, Repr

/-- A directory entry (Table 4-11). -/
structure DirEntry where
  state : Nat := 0
  slot : Nat := 0
  segment : Nat := 0
  segments : Nat := 0
  imageType : Nat := 0
  keySlot : Nat := 0
  mask : Nat := 0
  imageLen : Nat := 0
  version : Nat := 0
  ident : List Byte := List.replicate 32 0
  deriving DecidableEq, Repr

/-- A directory page (Table 4-10). -/
structure Directory where
  generation : Nat := 0
  bootEntry : Nat := 0xFF
  goldEntry : Nat := 0xFF
  bootStyle : Nat := 0
  regionEntry : List Nat := List.replicate 16 0xFF
  entry : List DirEntry := List.replicate 64 {}
  deriving DecidableEq, Repr

/-- Why an image is being loaded. -/
inductive LoadKind | boot | gold | reload | jtag
  deriving DecidableEq, Repr

/-- An image being loaded: its entry (0xFE the implied Gold entry, 0xFD a JTAG stream), its header once checked, the
regions it writes, and the next chunk (05 R158 to R160). -/
structure LoadJob where
  kind : LoadKind
  entry : Nat
  regions : List Nat
  header : Option Header := none
  next : Nat := 0
  /-- The mailbox of an LD_RELOAD whose reply is not written. -/
  mailbox : Option Nat := none
  /-- IDENT of the checked image. -/
  ident : List Byte := []
  /-- Leaf digest table of a JTAG stream. -/
  leaves : List Byte := []
  deriving DecidableEq, Repr

/-- A record on its way to a frame (04 R125). -/
structure FrameWord where
  frame : Nat
  payload : BitVec 10240
  crc : Nat
  dynamic : Bool
  chunk : Nat
  record : Nat
  deriving DecidableEq, Repr

/-- A region's frame writer (05 R161, R162): records not yet written, and the frames of a RAM tile held back. -/
structure Writer where
  waiting : List FrameWord := []
  tile : List FrameWord := []
  deriving DecidableEq, Repr

/-- A queued repair (06 R187). -/
structure Repair where
  frame : Nat
  injected : Bool
  deriving DecidableEq, Repr

/-- A scrub lane (06 R182). -/
structure ScrubLane where
  running : Bool := false
  /-- Region offset of the next frame to compare. -/
  next : Nat := 0
  sweepStart : Nat := 0
  matched : Nat := 0
  mismatched : Nat := 0
  repairs : List Repair := []
  deriving DecidableEq, Repr

/-- A SCRUB_QUERY waiting for sweeps (06 R194): per region of its mask, whether its sweep has begun, and its word. -/
structure ScrubQuery where
  mailbox : Nat
  begun : List Nat := []
  words : List (Nat × Nat) := []
  mask : Nat
  deriving DecidableEq, Repr

/-- The configuration engine beside its registers. -/
structure Loader where
  jobs : List LoadJob := []
  writer : SMap Writer := []
  /-- Live and staged signature entries and skip bits (04 R143), keyed by frame. -/
  live : SMap (Option (Nat × Bool)) := []
  staged : SMap (Option (Nat × Bool)) := []
  /-- IDENT recorded when a region's load completed (06 R187), keyed by region. -/
  ident : SMap (List Byte) := []
  /-- Slot 0 has been programmed by LC_GOLD_WRITE since a region's load (06 R188), keyed by region. -/
  goldTouched : SMap Bool := []
  /-- Image of each region's last completed load: header, and first segment's byte address in the store. -/
  source : SMap (Option (Header × Nat)) := []
  dir : Option Directory := none
  /-- Page position, 0 to 511, of the current directory page. -/
  dirPage : Nat := 511
  /-- A directory update in progress: the new page, and the position being programmed. -/
  dirNext : Option (Directory × Nat) := none
  /-- Write pointers of WRITING entries of this boot (05 R174). -/
  pointer : SMap Nat := []
  lane : SMap ScrubLane := []
  queries : List ScrubQuery := []
  /-- Regions that wipe before a fallback to Gold, and whether the fallback is still to come (05 R166). -/
  fallback : Bool := false
  /-- Reloads whose image has been checked and whose fence is due (05 R171), with the owner that asked; 0x100 is the
  authority of ADMIN for a JTAG stream. -/
  reloads : List (Nat × LoadJob) := []
  /-- Bytes of a JTAG_LOAD stream not yet used (19 R512); whether its image has ended, so that what follows is dropped. -/
  stream : List Byte := []
  streamDone : Bool := false
  deriving DecidableEq, Repr

/-! ## Clocks, lanes and calibration (spec/14 to spec/16) -/

/-- A configuration of a fabric PLL (14 R408): reference and its declared frequency, dividers, and each output's divider
and enable. -/
structure PllSetting where
  refsel : Nat := 0
  khz : Nat := 100000
  m : Nat := 1
  n : Nat := 40
  outs : List (Nat × Bool) := List.replicate 5 (16, false)
  deriving DecidableEq, Repr

/-- A fabric PLL beside its registers: the configuration in force, and what its monitors have seen. -/
structure Pll where
  inForce : PllSetting := {}
  /-- Applied while the region is DARK: comes into force at power-up (R416). -/
  forPowerUp : Option PllSetting := none
  /-- It has qualified since its last APPLY or power-up (R412). -/
  counted : Bool := false
  /-- Acquisition waits for a full window of presence (R407). -/
  window : Bool := false
  /-- The PLL was powered when DOZE entry stopped it. -/
  dozed : Bool := false
  /-- Its configuration broke Table 14-2 or found no band at its last start (R411, R427). -/
  unusable : Bool := false
  deriving DecidableEq, Repr

/-- The clocks: PLLs in force, alarms as latched, and the count across DOZE (14 R422, R424). -/
structure Clocks where
  pll : SMap Pll := []
  /-- Frequency of each external reference source in kilohertz, as last seen, keyed by REFSEL 1 to 8 and exclusive-ored
  with 100,000 (15 R432). -/
  source : SMap Nat := []
  alarmTime : SMap Nat := []
  alarmPeriod : SMap Nat := []
  dozeStart : Nat := 0
  dozeTicks : Nat := 0
  /-- Zone 18's reading at DOZE entry, and the largest difference from it, in 0.125 °C (R422). -/
  dozeTemp : Nat := 0
  dozeDelta : Nat := 0
  /-- TMB_NOW below one nanosecond, in units of 10^−8 ns. -/
  fraction : Nat := 0
  deriving DecidableEq, Repr

/-- A transceiver lane beside its registers (spec/15, 16 R445): whether its adaptation coefficients are kept, its two
16-word FIFOs, the word it last sent on the line, and the word it presents to the design. -/
structure Lane where
  kept : Bool := false
  /-- RX words are discarded while the region is fenced. -/
  discard : Bool := false
  tx : List LaneWord := []
  rx : List LaneWord := []
  sent : Option LaneWord := none
  presented : Option LaneWord := none
  deriving DecidableEq, Repr

/-! ## The event log and safety (spec/17) -/

/-- An event log entry (17 R471, Table 17-4). -/
structure LogEntry where
  index : Nat := 0
  time : Nat
  epoch : Nat
  code : Nat
  flags : Nat
  owner : Nat
  arg0 : Nat
  arg1 : Nat
  deriving DecidableEq, Repr

/-- The safety monitor beside its registers: the event log's input buffer, oldest first, its slots, each requester's
latched slot (R473), the index of the first entry not archived (11 R349), and the zones whose over-temperature warning
has been logged (R461). -/
structure Safety where
  buffer : List LogEntry := []
  slots : SMap (Option LogEntry) := []
  latch : SMap (Option (Nat × LogEntry)) := []
  archived : Nat := 0
  warned : SMap Bool := []
  deriving DecidableEq, Repr

/-! ## Energy and power (spec/12, spec/13) -/

/-- The admitted operations that have not finished (12 R362): class, and what the operation is on. -/
structure Ledger where
  admitted : List (Nat × Nat) := []
  /-- Fractions of a microjoule carried to the next sample, in picojoules, per energy counter (R359). -/
  carried : SMap Nat := []
  /-- The samples of VIN in millivolts and of its current in milliamperes in the last 100 µs, newest first. -/
  samples : List (Nat × Nat) := []
  deriving DecidableEq, Repr

/-- An accepted DEV_SHUTDOWN or DEV_REBOOT (13 R392 to R397), or the reboot after a test program or a life-cycle
step: the mailbox whose packet waits for the reply, if any. -/
inductive PowerCause | shutdown | reboot | program | lifecycle
  deriving DecidableEq, Repr

/-- An orderly OFF in progress. -/
structure Orderly where
  cause : PowerCause
  mailbox : Option Nat
  restart : Bool
  noTest : Bool
  /-- The program to run before OFF (18 R496), and the life-cycle state to enter (19 R502). -/
  program : Option Nat := none
  lifeCycle : Option Nat := none
  /-- The commit has been made. -/
  committed : Bool := false
  deriving DecidableEq, Repr

/-- Supply, pins and mode changes in progress (13, 21 R537, R538). -/
structure Power where
  vinPresent : Bool := false
  /-- After DEV_SHUTDOWN without RESTART: VIN good is not raised (21 R537). -/
  held : Bool := false
  /-- After an orderly OFF: BOOT follows (13 R395, R396). -/
  restart : Bool := false
  orderly : Option Orderly := none
  /-- A DOZE wake has been recorded since the last exit (13 R389). -/
  woken : Bool := false
  /-- Its exit has been refused and counted once (12 R366, 13 R398). -/
  wakeHeld : Bool := false
  /-- NRESET_IN woke the device: DEV_REBOOT with FORCE follows the exit (13 R397). -/
  resetAfterWake : Bool := false
  /-- Quads, by bit, that DOZE entry powered down (13 Table 13-6). -/
  dozedQuads : Nat := 0
  /-- The MGC has halted after a lockstep mismatch (01 R28). -/
  mgcHalted : Bool := false
  /-- The Umber island has kept its retained data since the last boot (12 R358). -/
  retained : Bool := false
  /-- The epoch of the boot that ended, while the island retains it (14 R419). -/
  lastEpoch : Nat := 0
  deriving DecidableEq, Repr

/-! ## The Slate store (spec/11) -/

/-- What a physical page holds (11 R319, R325 to R327): nothing, data, data beyond correction, or what an interrupted
unit left. -/
inductive PageKind | erased | programmed | uncorrectable | undefined
  deriving DecidableEq, Repr

/-- Whose unit a program or erase is, so that its end can go on to the next unit: the packet of a mailbox, an erase
ahead of a settings copy or of the archive, an extent being erased, or a unit nothing waits for. -/
inductive UnitUser
  | packet (m : Nat)
  | ahead (copy : Nat)
  | archive
  | extent (x : Nat)
  | alone
  deriving DecidableEq, Repr

/-- A program or an erase in flight (11 R320 to R322). -/
structure FlashUnit where
  /-- Logical block. -/
  block : Nat
  /-- Page within the block, of a program. -/
  page : Nat := 0
  erase : Bool
  /-- Not started yet: it waits for the end of a stream from its bank, or a program for reads of the bank (Table 5-5,
  R318). -/
  waiting : Bool := false
  suspended : Bool := false
  /-- Held by a load, reload or repair stream or by HOLDUP, not by ordinary reads. -/
  long : Bool := false
  /-- When it last started, was suspended or resumed (R322). -/
  since : Nat := 0
  user : UnitUser
  /-- Admitted under this class of Table 12-3, if it is admitted by itself. -/
  cost : Option Nat := none
  deriving DecidableEq, Repr

/-- A settings item: owner, ID and value (11 R339). -/
structure Item where
  owner : Nat
  id : Nat
  value : List Byte
  deriving DecidableEq, Repr

/-- A staged change: a new value, or a deletion (11 R340). -/
structure Change where
  owner : Nat
  id : Nat
  value : Option (List Byte)
  deriving DecidableEq, Repr

/-- A settings copy: the state its log carries, and where the log stands, counted in pages from the copy's first
block (11 R342, R346). -/
structure Copy where
  items : List Item := []
  seq : Nat := 0
  /-- Block of the log (0 to 63) being written, and the next page in it. -/
  block : Nat := 0
  page : Nat := 0
  /-- Erased blocks ahead of the write point. -/
  ahead : Nat := 63
  /-- Blocks from the newest checkpoint's first page to the write point. -/
  live : Nat := 0
  /-- BOOT_PTR: page number of the newest ITEM record of each system item (R344). -/
  ptr : List Nat := List.replicate 12 0xFFFF_FFFF
  /-- Recovery found nothing that it could read in it (R345, R347). -/
  unreadable : Bool := false
  deriving DecidableEq, Repr

/-- A record of the block map: the logical block, the spare that serves it from then on, and the record's CRC-32 (R313). -/
structure MapRecord where
  logical : Nat
  spare : Nat
  crc : Nat
  deriving DecidableEq, Repr

/-- The Slate die and its controller. Physical blocks are numbered 0 to 4,095, physical pages 64 to a block, words 512
to a page; an unlisted word reads all ones. -/
structure Slate where
  word : SMap DWord := []
  page : SMap PageKind := []
  /-- Block map as the controller has loaded it: logical blocks that a spare serves (R313). -/
  map : SMap (Option Nat) := []
  /-- The map array's records in the order written, at most 1,024, each in two rows. -/
  rows0 : List MapRecord := []
  rows1 : List MapRecord := []
  worn : SMap Bool := []
  /-- Logical blocks whose next erase retires them (R321). -/
  retire : SMap Bool := []
  spareUsed : SMap Bool := []
  erases : SMap Nat := []
  units : List FlashUnit := []
  deriving DecidableEq, Repr

/-- The settings journal and the other records the MGC keeps in the Slate store. -/
structure Journal where
  staged : List Change := []
  copy0 : Copy := {}
  copy1 : Copy := {}
  /-- Next page of the event-log archive to program, counted from its first block (R349). -/
  archivePage : Nat := 0
  /-- The host item index has been rebuilt since the boot (R347). -/
  indexed : Bool := false
  /-- Families of the user extents as the last boot used them (unlisted is 0x10), and blocks still to erase of an
  ERASING extent. -/
  extentFamily : SMap Nat := []
  extentLeft : SMap Nat := []
  deriving DecidableEq, Repr

/-! ## The shared banks (spec/08, spec/09) -/

/-- A slice test of one page (09 R276, R277): the page under test, where it is parked, the step of Table 9-4, and the
words already in the park page (steps 1 to 3) or already restored (step 4). -/
structure SliceTest where
  bank : Nat
  page : Nat
  parkBank : Nat
  parkPage : Nat
  /-- The mailbox whose BST_SLICE it serves. -/
  mailbox : Nat := 0
  /-- Rows that mismatched and their counts, in the order found. -/
  found : List (Nat × Nat) := []
  step : Nat
  copied : List Nat := []
  /-- Words parked as poisoned (R278). -/
  bad : List Nat := []
  deriving DecidableEq, Repr

/-- The 128 banks. Rows are keyed `131072 * bank + cell`: data words 0 to 65,535, parity words from 65,536 (09 R252),
and spare cell e at 66,560 + e. -/
structure Banks where
  row : SMap (BitVec 72) := []
  /-- Banks whose rows a self-test that was cut short has left with what it had written: the number of the free value, plus
  one (18 R494). -/
  left : SMap Nat := []
  /-- The three copies of each poison bit, as a mask, keyed `65536 * bank + word` (09 R261). -/
  poison : SMap (BitVec 3) := []
  /-- Rows holding an injected error, keyed as rows (09 R281). -/
  injected : SMap Bool := []
  /-- Suspect list of each bank: cell index and pass (09 R269). -/
  suspects : SMap (List (Nat × Nat)) := []
  /-- Banks that have ended a page correction, a re-seal or a clear and owe the ingress head its start (09 R253). -/
  owed : SMap Bool := []
  /-- Banks with a scrub step that fell while they were being cleared (09 R266). -/
  deferred : SMap Bool := []
  /-- The pass each bank's scrubber is in, counted from 1. -/
  pass : SMap Nat := []
  /-- Each group's clears in the order requested (09 R273). -/
  clears : SMap (List Nat) := []
  /-- Banks that a region WIPE or a ring group CLR still waits for (08 R242). -/
  regionWait : SMap (List Nat) := []
  groupWait : SMap (List Nat) := []
  slice : SMap (Option SliceTest) := []
  /-- A remap entry has changed since step 3 of the boot (12 Table 12-5). -/
  remapChanged : Bool := false
  deriving DecidableEq, Repr

/-! ## DMA rings (spec/10) -/

/-- A descriptor (Table 10-3). -/
structure Descriptor where
  opcode : Nat
  barrier : Bool
  irq : Bool
  chain : Bool
  sglSrc : Bool
  sglDst : Bool
  poisonOk : Bool
  reserved : Bool
  user : Nat
  length : Nat
  src : Nat
  dst : Nat
  next : Nat
  deriving DecidableEq, Repr

/-- Where one side of a transfer stands: the current piece of memory and, of a list, the next pair and the sum so far
(Table 10-5). -/
structure DmaSide where
  addr : Nat := 0
  /-- Where the range in hand began. -/
  start : Nat := 0
  left : Nat := 0
  list : Option Nat := none
  pairs : Nat := 0
  sum : Nat := 0
  last : Bool := false
  deriving DecidableEq, Repr

/-- What a slot in execution does next, or waits for. -/
inductive DmaPhase
  /-- The descriptor is to be fetched, or its fetch is outstanding. -/
  | fetch | fetching
  /-- Fetched: DESCRIPTOR_START checks it. -/
  | start
  /-- A list pair of the source or of the destination. -/
  | pair (dst : Bool) | pairing (dst : Bool)
  | read | reading | write | writing
  /-- FLUSHes of a barrier, to the endpoints still to flush. -/
  | flush | flushing
  /-- The descriptor has ended; CHAIN_NEXT or the completion follows. -/
  | ended
  | complete | completing
  /-- The completion write has been acknowledged. -/
  | acked
  deriving DecidableEq, Repr

/-- A slot in execution (10 R287, R294, R297). -/
structure DmaJob where
  slot : Nat
  at0 : Nat
  desc : Option Descriptor := none
  phase : DmaPhase := .fetch
  user : Nat := 0
  hops : Nat := 0
  /-- DMA_RING_HOPMAX as the slot started. -/
  hopMax : Nat := 0
  poison : Nat := 0
  source : DmaSide := {}
  dest : DmaSide := {}
  /-- Stream bytes of finished pieces; length of the piece in hand, bytes of it moved, and its direction. -/
  done : Nat := 0
  piece : Nat := 0
  moved : Nat := 0
  down : Bool := false
  /-- Bytes read and not yet written, with one poison mark per byte. -/
  data : List (Byte × Bool) := []
  flushes : List Nat := []
  outcome : Nat × Nat × Nat := (0, 0, 0)
  halts : Bool := false
  /-- BYTES_DONE of the descriptor executed before a chained one. -/
  before : Nat := 0
  deriving DecidableEq, Repr

/-- A ring beside its registers: slots started, slots in execution, oldest first, and the halt it is under. -/
structure Ring where
  next : Nat := 0
  jobs : List DmaJob := []
  /-- A descriptor-boundary halt: chains are cut (R309). -/
  cut : Bool := false
  /-- The completion of slot HEAD has failed: none follows it (R299). -/
  stuck : Bool := false
  /-- When its last message was sent; kept while the ring is DISABLED (R302). -/
  lastIrq : Option Nat := none
  deriving DecidableEq, Repr

/-- The DMA complex: rings not DISABLED, keyed by ring; each port's group in turn and the transactions left to its turn,
and each group's ring served last (R307); sweeps of the ATT, oldest first, as the keys to free and the former parent
(R306). -/
structure Dma where
  ring : SMap (Option Ring) := []
  lastGroup : SMap Nat := []
  turn : SMap Nat := []
  lastRing : SMap Nat := []
  sweeps : List (Nat × Nat) := []
  /-- The family whose ATT_QUOTA USED an entry is charged to, keyed by entry: 1 to 5; unlisted is none. -/
  charged : SMap Nat := []
  deriving DecidableEq, Repr

/-! ## HOLDUP (spec/12) -/

/-- A journal transaction still to be programmed into a copy: owner, SEQ, changes, and, once begun, the pages left. -/
structure PendingTxn where
  owner : Nat
  seq : Nat
  changes : List Change
  begun : Bool := false
  left : List (List Byte) := []
  /-- BOOT_PTR of its commit record, once begun. -/
  ptr : List Nat := []
  deriving DecidableEq, Repr

/-- The HOLDUP sequence from step 5 of Table 12-4 on: the transactions that each copy still needs, in order. -/
structure Holdup where
  copy0 : List PendingTxn := []
  copy1 : List PendingTxn := []
  /-- Copy 1 goes first after a program failure in copy 0 (12 R373). -/
  swapped : Bool := false
  /-- The commit has stopped (12 R372, Table 12-5). -/
  stopped : Bool := false
  /-- Step 8 has ended. -/
  closed : Bool := false
  startTime : Nat := 0
  /-- Counter 5 of Table 12-2 at step 3. -/
  startEnergy : Nat := 0
  deriving DecidableEq, Repr

/-! ## Self-test (spec/18) -/

/-- A result record (18 R488). -/
structure TestRecord where
  program : Nat
  outcome : Nat
  holdup : Bool
  consumed : Bool := false
  steps : Nat
  length : Nat
  sig : Nat
  expected : Nat
  epoch : Nat
  time : Nat
  counts : List Nat
  fails : List (Nat × Nat)
  deriving DecidableEq, Repr

/-- The self-test engine: the program running, its steps, and the record kept by the Umber island. -/
structure SelfTest where
  program : Option Nat := none
  steps : List Word := []
  /-- The engine has been stopped: SELFTEST_DONE writes the record of the steps that were complete (18 R494). -/
  cut : Bool := false
  record : Option TestRecord := none
  deriving DecidableEq, Repr

/-! ## Fuses and JTAG (spec/19) -/

/-- The life-cycle fuses: blown copies of each flag as a mask of three bits, keyed by flag (0 to 3 the state bits,
4 RETURN_DONE, 8 + s PROGRAMMED, 12 + s revoked, 16 KEY_PRESENT, 17 KEY_DESTROYED), and the data fields. State bit 0 is
blown at manufacture. -/
structure Fuses where
  flag : SMap Nat := [(0, 7)]
  slotHash : SMap (List Byte) := []
  slotTouched : SMap Bool := []
  imageKey : List Byte := []
  keyTouched : Bool := false
  deriving DecidableEq, Repr

/-- The JTAG port (19 R509 to R512). -/
structure Jtag where
  /-- The boundary register's update stage and its shift stage, in cell order. -/
  update : BitVec 1552 := 0
  shift : BitVec 1552 := 0
  /-- Spine response and read data of the last JTAG_REG access. -/
  resp : Nat := 0
  data : Nat := 0
  deriving DecidableEq, Repr

/-! ## Calibration (spec/16) -/

/-- The calibration loops beside their registers. -/
structure Calib where
  /-- Link of the next margin probe (R448). -/
  nextLink : Nat := 0
  /-- Loops whose next evaluation is forced out of bounds (R455). -/
  armed : SMap Bool := []
  /-- Endpoint whose reference disciplines TMB_CORR (R446). -/
  source : Option Nat := none
  /-- The 60 s hold has ended without another source (R446). -/
  expired : Bool := false
  /-- Loops whose last window gave a result, so that the next one has a predecessor (R447, R450). -/
  seen : SMap Bool := []
  /-- Zones whose check sensor is corrected next, and the check sensors' offset corrections (R451). -/
  check : SMap Bool := []
  offset : SMap Nat := []
  /-- Zones whose next reading is forced to 135.0 °C (17 R481). -/
  hot : SMap Bool := []
  deriving DecidableEq, Repr

/-! ## The state -/

/-- The whole state of the device. -/
structure State where
  /-- The commands that are waiting, first in, first out. -/
  pending : List Instr := []
  /-- The model's own counter: `Config`'s free values are applied to it. -/
  freeCount : Nat := 0
  /-- Every control register field, as the exclusive or of its value and its reset value, keyed by bit address
  (`Fld.key`): an unlisted field is at its reset value. -/
  regs : SMap Nat := []
  /-- Latches of latching reads (00 R12, 01 R45, 02 R55), keyed by requester and word offset. -/
  latch : SMap (Option Nat) := []
  /-- Response and data of the last access made directly at the control register space. -/
  answer : Option Answer := none
  mode : Mode := .off
  mail : Mail := {}
  hosts : HostSide := {}
  spine : Spine := {}
  fences : SMap Fences := []
  ports : SMap RegionPort := []
  fabric : Fabric := {}
  loader : Loader := {}
  clocks : Clocks := {}
  lanes : SMap Lane := []
  safety : Safety := {}
  ledger : Ledger := {}
  power : Power := {}
  slate : Slate := {}
  journal : Journal := {}
  banks : Banks := {}
  dma : Dma := {}
  holdup : Holdup := {}
  test : SelfTest := {}
  fuses : Fuses := {}
  /-- Write pointer of the Gold image (19 R508). -/
  goldPointer : Option Nat := none
  jtag : Jtag := {}
  calib : Calib := {}
  deriving DecidableEq, Repr

/-- The machine right after reset: OFF, no supply, every register at its reset value, nothing stored. -/
def State.reset : State := {}

end Sys2Proof.Machine
end

