-- ==== Sys2Proof/Machine/Registers.lean ====
section
/-! DEFINITION. The control registers, transcribed from the field tables of spec/01 to spec/20: one constructor of
`Reg` per register heading, one `Fld` per named field (bits, access code of Table 0-4, reset value, retained or not),
and the address of every instance. Reserved bits have no field: they read 0 and ignore writes (00 R14). -/

namespace Sys2Proof.Machine

set_option Elab.async false

/-- Access codes of Table 0-4 (00 R16). -/
inductive Acc | ro | rw | wo | w1c | w1s | rwo | rl
  deriving DecidableEq, Repr

/-- One constructor per register heading of the manual, under the manual's own name. -/
inductive Reg
  | DEV_IDCODE
  | DEV_STEP
  | DEV_GEOM
  | DEV_FRAMES
  | DEV_REQ_ID
  | DEV_DECERR_ADDR
  | DEV_DECERR_INFO
  | MBX_REQ_TAIL
  | MBX_REQ_HEAD
  | MBX_RSP_TAIL
  | MBX_RSP_HEAD
  | MBX_CTL
  | MBX_STAT
  | MBX_EP_ERR_ADDR
  | MBX_EP_ERR_INFO
  | MBX_EP_STAT
  | MBX_EP_RESETS
  | CFG_BOOT_STAT
  | CFG_BOOT_FAIL
  | CFG_GOLD_FAIL
  | CFG_BOOT_TIME
  | CFG_LOAD_ACTIVE
  | CFG_FAIL_POS
  | CFG_REGION_STAT
  | CFG_REGION_FRAMES
  | CFG_REGION_COUNT
  | CFG_REGION_FAIL
  | CFG_SCRUB_STAT
  | CFG_SCRUB_LAST
  | CFG_SCRUB_LAST_TIME
  | CFG_SCRUB_INJECT
  | CFG_SCRUB_SWEEPS
  | CFG_SCRUB_CNT
  | CFG_SCRUB_TIME
  | CFG_SCRUB_FAIL
  | SPN_RATE
  | SPN_RATE_MAX
  | SPN_BEATS
  | SPN_DARK_CNT
  | SPN_TO_CNT
  | SPN_FAIR
  | SPN_STALL
  | SPN_STALL_TIME
  | SPN_STALL_INJECT
  | SPN_STALL_CNT
  | SPN_RESP_CNT
  | SPN_RP_CFG
  | SPN_RP_DISC
  | SPN_RP_TGT
  | SPN_RP_TO
  | SPN_RP_STAT
  | BNK_OWNER
  | ATT_REGION_PARENT
  | ATT_GROUP_PARENT
  | ATT_ADMIN
  | ATT_HO_LAST
  | ATT_HO_CNT
  | ATT_HO_TIME
  | BNK_STAT
  | BNK_CE
  | BNK_UE
  | BNK_POISON
  | BNK_LAST_ERR
  | BNK_LAST_TIME
  | BNK_SCRUB
  | BNK_SUSPECT
  | BNK_INJECT
  | BNK_CE_SPARE
  | BNK_CLR_STAT
  | BNK_PARK
  | BNK_REMAP_ENT
  | DMA_TIMEOUT
  | DMA_STAT
  | DMA_BYTES
  | DMA_PORT_STAT
  | DMA_GROUP_CFG
  | DMA_GROUP_STAT
  | DMA_RING_TAIL
  | DMA_RING_HEAD
  | DMA_RING_CTL
  | DMA_RING_STAT
  | DMA_RING_BASE
  | DMA_RING_CQ
  | DMA_RING_HOPMAX
  | DMA_RING_IRQ
  | DMA_RING_ERR
  | DMA_RING_DONE
  | DMA_RING_ERR_IDX
  | ATT_ENT_MAP
  | ATT_ENT_KEY
  | ATT_QUOTA
  | ATT_FAULT_INFO
  | ATT_FAULT_CNT
  | ATT_FAULT_ADDR
  | ATT_SWEEP
  | SLT_STAT
  | SLT_SPARE
  | SLT_PART
  | SLT_RD_ERR
  | SLT_LAST_UE
  | SLT_LAST_UE_TIME
  | SLT_SUSPEND
  | SLT_QUEUE
  | SLT_SET_STAT
  | SLT_SET_PEND
  | SLT_SET_SEQ
  | SLT_PATROL
  | SLT_BLK_ERASES
  | SLT_BLK_WEAR
  | SLT_BLK_MAP
  | SLT_SPARE_ENT
  | SLT_SPARE_ERASES
  | NRG_VIN
  | NRG_BANK
  | NRG_CAP_INT
  | NRG_CAP_EXT
  | NRG_AVAIL
  | NRG_RESERVE
  | NRG_ENCUMB
  | NRG_MARGIN
  | NRG_STAT
  | NRG_PEND
  | NRG_REFUSE_LAST
  | NRG_HU_TIME
  | NRG_REFUSE_TIME
  | NRG_HU_LAST
  | NRG_HU_ENERGY
  | NRG_CNT
  | NRG_COST
  | NRG_REFUSE
  | DEV_MODE
  | DEV_MODE_TIME
  | DEV_MODE_CNT
  | PWR_DOMAINS
  | PWR_VETO
  | PWR_WAKE_EN
  | PWR_WAKE_LAST
  | PWR_WAKE_TIME
  | PWR_REFUSE_LAST
  | PWR_REFUSE_TIME
  | PWR_ABORT_CNT
  | PWR_REFUSE_RSN
  | PWR_REFUSE_OWN
  | PLL_REF
  | PLL_CFG
  | PLL_OUT
  | PLL_STAT
  | PLL_MEAS
  | PLL_VCO
  | PLL_EVT
  | PLL_EVT_TIME
  | PLL_BAND
  | TMB_NOW
  | TMB_EPOCH
  | TMB_UNCERT
  | TMB_CTL
  | TMB_STAT
  | TMB_CORR
  | TMB_UMBER_PER
  | TMB_DOZE_LAST
  | TMB_DOZE_UNC
  | TMB_ALARM_TIME
  | TMB_ALARM_PER
  | TMB_ALARM_CTL
  | XCV_LCPLL
  | XCV_QUAD_STAT
  | XCV_RCLK
  | XCV_LANE_CFG
  | XCV_LANE_STAT
  | XCV_LANE_ERR
  | XCV_LANE_FEC
  | XCV_EYE_CTL
  | XCV_EYE_RES
  | CAL_STAT
  | CAL_REF
  | CAL_REF_TIME
  | CAL_SPN
  | CAL_SPN_TIME
  | CAL_NRG
  | CAL_NRG_TIME
  | CAL_SLT
  | CAL_SLT_TIME
  | CAL_TEMP
  | CAL_TEMP_TIME
  | CAL_OOB
  | CAL_OOB_TIME
  | CAL_INJECT
  | SAF_STAT
  | SAF_CFG_CRIT
  | SAF_PLL_CRIT
  | SAF_IO_CRIT
  | SAF_REQ
  | SAF_LAST
  | SAF_LAST_TIME
  | SAF_LAST_EPOCH
  | SAF_CNT
  | SAF_INJECT
  | SAF_LOG_HEAD
  | SAF_LOG_OVF
  | SAF_LOG_LOSS
  | SAF_DIAG_CNT
  | SAF_LOG_ENT
  | BST_STAT
  | BST_REC_HDR
  | BST_REC_STEPS
  | BST_REC_SIG
  | BST_REC_SIG_EXP
  | BST_REC_EPOCH
  | BST_REC_TIME
  | BST_REC_FAIL
  | BST_REC_CNT
  | BST_SLICE_LAST
  | BST_SLICE_CNT
  | BST_SLICE_FAIL
  | BST_SLICE_TIME
  | DEV_LC
  | DEV_KEY_SLOT
  | DEV_UID
  | DEV_LC_LAST
  | DEV_LC_CNT
  | DEV_JTAG
  | DEV_KEY_HASH
  | GIO_BANK_STAT
  | GIO_SHORT
  | GIO_SHORT_CNT
  | GIO_PAD
  | GIO_REARM
  | GIO_SHORT_LAST
  | GIO_SHORT_TIME
  | FIO_GRP_STAT
  | FIO_IN
  | FIO_OUT_STAT
  | FIO_DIAG
  | FIO_REARM
  | FIO_WAKE
  | FIO_CNT
  | FIO_LAST
  | FIO_LAST_TIME
  deriving DecidableEq, Repr

/-- The place of a register: base offset, stride and count of its first index, stride and count of its second, and
whether it is a 64-bit register (00 R12). -/
structure Place where
  base : Nat
  stride : Nat := 0
  count : Nat := 1
  stride2 : Nat := 0
  count2 : Nat := 1
  wide : Bool := false
  deriving DecidableEq, Repr

/-- The register headings' addresses (01 R36, Table 1-7, and each chapter's headings). -/
def Reg.place : Reg → Place
  | .DEV_IDCODE => { base := 0x0 }
  | .DEV_STEP => { base := 0x4 }
  | .DEV_GEOM => { base := 0x8 }
  | .DEV_FRAMES => { base := 0xc }
  | .DEV_REQ_ID => { base := 0x10 }
  | .DEV_DECERR_ADDR => { base := 0x18, wide := true }
  | .DEV_DECERR_INFO => { base := 0x20 }
  | .MBX_REQ_TAIL => { base := 0x10000, stride := 0x100, count := 5 }
  | .MBX_REQ_HEAD => { base := 0x10004, stride := 0x100, count := 5 }
  | .MBX_RSP_TAIL => { base := 0x10008, stride := 0x100, count := 5 }
  | .MBX_RSP_HEAD => { base := 0x1000c, stride := 0x100, count := 5 }
  | .MBX_CTL => { base := 0x10010, stride := 0x100, count := 5 }
  | .MBX_STAT => { base := 0x10014, stride := 0x100, count := 5 }
  | .MBX_EP_ERR_ADDR => { base := 0x10800, stride := 0x40, count := 4, wide := true }
  | .MBX_EP_ERR_INFO => { base := 0x10808, stride := 0x40, count := 4 }
  | .MBX_EP_STAT => { base := 0x1080c, stride := 0x40, count := 4 }
  | .MBX_EP_RESETS => { base := 0x10810, stride := 0x40, count := 4 }
  | .CFG_BOOT_STAT => { base := 0x100000 }
  | .CFG_BOOT_FAIL => { base := 0x100004 }
  | .CFG_GOLD_FAIL => { base := 0x100008 }
  | .CFG_BOOT_TIME => { base := 0x10000c }
  | .CFG_LOAD_ACTIVE => { base := 0x100010 }
  | .CFG_FAIL_POS => { base := 0x100014 }
  | .CFG_REGION_STAT => { base := 0x100100, stride := 0x10, count := 16 }
  | .CFG_REGION_FRAMES => { base := 0x100104, stride := 0x10, count := 16 }
  | .CFG_REGION_COUNT => { base := 0x100108, stride := 0x10, count := 16 }
  | .CFG_REGION_FAIL => { base := 0x10010c, stride := 0x10, count := 16 }
  | .CFG_SCRUB_STAT => { base := 0x101000 }
  | .CFG_SCRUB_LAST => { base := 0x101004 }
  | .CFG_SCRUB_LAST_TIME => { base := 0x101008, wide := true }
  | .CFG_SCRUB_INJECT => { base := 0x101010 }
  | .CFG_SCRUB_SWEEPS => { base := 0x101100, stride := 0x10, count := 16 }
  | .CFG_SCRUB_CNT => { base := 0x101104, stride := 0x10, count := 16 }
  | .CFG_SCRUB_TIME => { base := 0x101108, stride := 0x10, count := 16 }
  | .CFG_SCRUB_FAIL => { base := 0x10110c, stride := 0x10, count := 16 }
  | .SPN_RATE => { base := 0x200000 }
  | .SPN_RATE_MAX => { base := 0x200004 }
  | .SPN_BEATS => { base := 0x200008, wide := true }
  | .SPN_DARK_CNT => { base := 0x200010 }
  | .SPN_TO_CNT => { base := 0x200014 }
  | .SPN_FAIR => { base := 0x200018 }
  | .SPN_STALL => { base := 0x20001c }
  | .SPN_STALL_TIME => { base := 0x200020, wide := true }
  | .SPN_STALL_INJECT => { base := 0x200028 }
  | .SPN_STALL_CNT => { base := 0x20002c }
  | .SPN_RESP_CNT => { base := 0x200040, stride := 0x4, count := 9 }
  | .SPN_RP_CFG => { base := 0x201000, stride := 0x20, count := 64 }
  | .SPN_RP_DISC => { base := 0x201004, stride := 0x20, count := 64 }
  | .SPN_RP_TGT => { base := 0x201008, stride := 0x20, count := 64 }
  | .SPN_RP_TO => { base := 0x20100c, stride := 0x20, count := 64 }
  | .SPN_RP_STAT => { base := 0x201010, stride := 0x20, count := 64 }
  | .BNK_OWNER => { base := 0x400000, stride := 0x40, count := 128 }
  | .ATT_REGION_PARENT => { base := 0xd80000, stride := 0x4, count := 16 }
  | .ATT_GROUP_PARENT => { base := 0xd80040, stride := 0x4, count := 64 }
  | .ATT_ADMIN => { base := 0xd80200 }
  | .ATT_HO_LAST => { base := 0xd80204 }
  | .ATT_HO_CNT => { base := 0xd80208 }
  | .ATT_HO_TIME => { base := 0xd80210, wide := true }
  | .BNK_STAT => { base := 0x400004, stride := 0x40, count := 128 }
  | .BNK_CE => { base := 0x400008, stride := 0x40, count := 128 }
  | .BNK_UE => { base := 0x40000c, stride := 0x40, count := 128 }
  | .BNK_POISON => { base := 0x400010, stride := 0x40, count := 128 }
  | .BNK_LAST_ERR => { base := 0x400014, stride := 0x40, count := 128 }
  | .BNK_LAST_TIME => { base := 0x400018, stride := 0x40, count := 128, wide := true }
  | .BNK_SCRUB => { base := 0x400020, stride := 0x40, count := 128 }
  | .BNK_SUSPECT => { base := 0x400024, stride := 0x40, count := 128 }
  | .BNK_INJECT => { base := 0x400028, stride := 0x40, count := 128 }
  | .BNK_CE_SPARE => { base := 0x40002c, stride := 0x40, count := 128 }
  | .BNK_CLR_STAT => { base := 0x402000, stride := 0x10, count := 16 }
  | .BNK_PARK => { base := 0x403000, stride := 0x4, count := 4 }
  | .BNK_REMAP_ENT => { base := 0x404000, stride := 0x40, count := 128, stride2 := 0x4, count2 := 16 }
  | .DMA_TIMEOUT => { base := 0x300000 }
  | .DMA_STAT => { base := 0x300004 }
  | .DMA_BYTES => { base := 0x300008, wide := true }
  | .DMA_PORT_STAT => { base := 0x300100, stride := 0x4, count := 8 }
  | .DMA_GROUP_CFG => { base := 0x301000, stride := 0x10, count := 64 }
  | .DMA_GROUP_STAT => { base := 0x301004, stride := 0x10, count := 64 }
  | .DMA_RING_TAIL => { base := 0x310000, stride := 0x40, count := 8192 }
  | .DMA_RING_HEAD => { base := 0x310004, stride := 0x40, count := 8192 }
  | .DMA_RING_CTL => { base := 0x310008, stride := 0x40, count := 8192 }
  | .DMA_RING_STAT => { base := 0x31000c, stride := 0x40, count := 8192 }
  | .DMA_RING_BASE => { base := 0x310010, stride := 0x40, count := 8192, wide := true }
  | .DMA_RING_CQ => { base := 0x310018, stride := 0x40, count := 8192, wide := true }
  | .DMA_RING_HOPMAX => { base := 0x310020, stride := 0x40, count := 8192 }
  | .DMA_RING_IRQ => { base := 0x310024, stride := 0x40, count := 8192 }
  | .DMA_RING_ERR => { base := 0x310028, stride := 0x40, count := 8192 }
  | .DMA_RING_DONE => { base := 0x31002c, stride := 0x40, count := 8192 }
  | .DMA_RING_ERR_IDX => { base := 0x310030, stride := 0x40, count := 8192 }
  | .ATT_ENT_MAP => { base := 0xd00000, stride := 0x10, count := 32768, wide := true }
  | .ATT_ENT_KEY => { base := 0xd00008, stride := 0x10, count := 32768 }
  | .ATT_QUOTA => { base := 0xd90000, stride := 0x4, count := 5 }
  | .ATT_FAULT_INFO => { base := 0xd90100 }
  | .ATT_FAULT_CNT => { base := 0xd90104 }
  | .ATT_FAULT_ADDR => { base := 0xd90108, wide := true }
  | .ATT_SWEEP => { base := 0xd90110 }
  | .SLT_STAT => { base := 0x500000 }
  | .SLT_SPARE => { base := 0x500004 }
  | .SLT_PART => { base := 0x500008 }
  | .SLT_RD_ERR => { base := 0x50000c }
  | .SLT_LAST_UE => { base := 0x500010 }
  | .SLT_LAST_UE_TIME => { base := 0x500018, wide := true }
  | .SLT_SUSPEND => { base := 0x500020 }
  | .SLT_QUEUE => { base := 0x500024 }
  | .SLT_SET_STAT => { base := 0x500040 }
  | .SLT_SET_PEND => { base := 0x500044 }
  | .SLT_SET_SEQ => { base := 0x500048, wide := true }
  | .SLT_PATROL => { base := 0x500050 }
  | .SLT_BLK_ERASES => { base := 0x510000, stride := 0x10, count := 4096 }
  | .SLT_BLK_WEAR => { base := 0x510004, stride := 0x10, count := 4096 }
  | .SLT_BLK_MAP => { base := 0x510008, stride := 0x10, count := 4096 }
  | .SLT_SPARE_ENT => { base := 0x520000, stride := 0x8, count := 256 }
  | .SLT_SPARE_ERASES => { base := 0x520004, stride := 0x8, count := 256 }
  | .NRG_VIN => { base := 0x780000 }
  | .NRG_BANK => { base := 0x780004 }
  | .NRG_CAP_INT => { base := 0x780008 }
  | .NRG_CAP_EXT => { base := 0x78000c }
  | .NRG_AVAIL => { base := 0x780010 }
  | .NRG_RESERVE => { base := 0x780014 }
  | .NRG_ENCUMB => { base := 0x780018 }
  | .NRG_MARGIN => { base := 0x78001c }
  | .NRG_STAT => { base := 0x780020 }
  | .NRG_PEND => { base := 0x780024 }
  | .NRG_REFUSE_LAST => { base := 0x780028 }
  | .NRG_HU_TIME => { base := 0x78002c }
  | .NRG_REFUSE_TIME => { base := 0x780030, wide := true }
  | .NRG_HU_LAST => { base := 0x780038 }
  | .NRG_HU_ENERGY => { base := 0x78003c }
  | .NRG_CNT => { base := 0x781000, stride := 0x8, count := 56, wide := true }
  | .NRG_COST => { base := 0x782000, stride := 0x4, count := 16 }
  | .NRG_REFUSE => { base := 0x782040, stride := 0x4, count := 16 }
  | .DEV_MODE => { base := 0x100 }
  | .DEV_MODE_TIME => { base := 0x108, wide := true }
  | .DEV_MODE_CNT => { base := 0x110 }
  | .PWR_DOMAINS => { base := 0x700000, wide := true }
  | .PWR_VETO => { base := 0x700050, stride := 0x4, count := 5 }
  | .PWR_WAKE_EN => { base := 0x700020 }
  | .PWR_WAKE_LAST => { base := 0x700024 }
  | .PWR_WAKE_TIME => { base := 0x700028, wide := true }
  | .PWR_REFUSE_LAST => { base := 0x700030 }
  | .PWR_REFUSE_TIME => { base := 0x700038, wide := true }
  | .PWR_ABORT_CNT => { base := 0x700040 }
  | .PWR_REFUSE_RSN => { base := 0x700100, stride := 0x4, count := 8 }
  | .PWR_REFUSE_OWN => { base := 0x700400, stride := 0x4, count := 256 }
  | .PLL_REF => { base := 0x600000, stride := 0x100, count := 16 }
  | .PLL_CFG => { base := 0x600004, stride := 0x100, count := 16 }
  | .PLL_OUT => { base := 0x600010, stride := 0x100, count := 16, stride2 := 0x4, count2 := 5 }
  | .PLL_STAT => { base := 0x600030, stride := 0x100, count := 16 }
  | .PLL_MEAS => { base := 0x600034, stride := 0x100, count := 16 }
  | .PLL_VCO => { base := 0x600038, stride := 0x100, count := 16 }
  | .PLL_EVT => { base := 0x60003c, stride := 0x100, count := 16 }
  | .PLL_EVT_TIME => { base := 0x600040, stride := 0x100, count := 16, wide := true }
  | .PLL_BAND => { base := 0x601000, stride := 0x80, count := 16, stride2 := 0x4, count2 := 32 }
  | .TMB_NOW => { base := 0xa00000, wide := true }
  | .TMB_EPOCH => { base := 0xa00008 }
  | .TMB_UNCERT => { base := 0xa0000c }
  | .TMB_CTL => { base := 0xa00010 }
  | .TMB_STAT => { base := 0xa00014 }
  | .TMB_CORR => { base := 0xa00018 }
  | .TMB_UMBER_PER => { base := 0xa0001c }
  | .TMB_DOZE_LAST => { base := 0xa00020, wide := true }
  | .TMB_DOZE_UNC => { base := 0xa00028 }
  | .TMB_ALARM_TIME => { base := 0xa00100, stride := 0x20, count := 5, wide := true }
  | .TMB_ALARM_PER => { base := 0xa00108, stride := 0x20, count := 5 }
  | .TMB_ALARM_CTL => { base := 0xa0010c, stride := 0x20, count := 5 }
  | .XCV_LCPLL => { base := 0xc00000, stride := 0x100, count := 8, stride2 := 0x4, count2 := 2 }
  | .XCV_QUAD_STAT => { base := 0xc00008, stride := 0x100, count := 8 }
  | .XCV_RCLK => { base := 0xc0000c, stride := 0x100, count := 8 }
  | .XCV_LANE_CFG => { base := 0xc10000, stride := 0x100, count := 32 }
  | .XCV_LANE_STAT => { base := 0xc10004, stride := 0x100, count := 32 }
  | .XCV_LANE_ERR => { base := 0xc10008, stride := 0x100, count := 32 }
  | .XCV_LANE_FEC => { base := 0xc1000c, stride := 0x100, count := 32 }
  | .XCV_EYE_CTL => { base := 0xc10010, stride := 0x100, count := 32 }
  | .XCV_EYE_RES => { base := 0xc10014, stride := 0x100, count := 32 }
  | .CAL_STAT => { base := 0x908000 }
  | .CAL_REF => { base := 0x908004 }
  | .CAL_REF_TIME => { base := 0x908008, wide := true }
  | .CAL_SPN => { base := 0x908010 }
  | .CAL_SPN_TIME => { base := 0x908018, wide := true }
  | .CAL_NRG => { base := 0x908020 }
  | .CAL_NRG_TIME => { base := 0x908028, wide := true }
  | .CAL_SLT => { base := 0x908040, stride := 0x4, count := 8 }
  | .CAL_SLT_TIME => { base := 0x908060, wide := true }
  | .CAL_TEMP => { base := 0x908080, stride := 0x4, count := 19 }
  | .CAL_TEMP_TIME => { base := 0x9080d0, wide := true }
  | .CAL_OOB => { base := 0x9080e0 }
  | .CAL_OOB_TIME => { base := 0x9080e8, wide := true }
  | .CAL_INJECT => { base := 0x9080f0 }
  | .SAF_STAT => { base := 0x900000 }
  | .SAF_CFG_CRIT => { base := 0x900004 }
  | .SAF_PLL_CRIT => { base := 0x900008 }
  | .SAF_IO_CRIT => { base := 0x90000c }
  | .SAF_REQ => { base := 0x900010 }
  | .SAF_LAST => { base := 0x900018 }
  | .SAF_LAST_TIME => { base := 0x900020, wide := true }
  | .SAF_LAST_EPOCH => { base := 0x900028 }
  | .SAF_CNT => { base := 0x90002c }
  | .SAF_INJECT => { base := 0x900030 }
  | .SAF_LOG_HEAD => { base := 0x900040, wide := true }
  | .SAF_LOG_OVF => { base := 0x900048 }
  | .SAF_LOG_LOSS => { base := 0x90004c }
  | .SAF_DIAG_CNT => { base := 0x900100, stride := 0x4, count := 16 }
  | .SAF_LOG_ENT => { base := 0x920000, stride := 0x20, count := 4096 }
  | .BST_STAT => { base := 0x800000 }
  | .BST_REC_HDR => { base := 0x800100, stride := 0x100, count := 2 }
  | .BST_REC_STEPS => { base := 0x800104, stride := 0x100, count := 2 }
  | .BST_REC_SIG => { base := 0x800108, stride := 0x100, count := 2 }
  | .BST_REC_SIG_EXP => { base := 0x80010c, stride := 0x100, count := 2 }
  | .BST_REC_EPOCH => { base := 0x800110, stride := 0x100, count := 2 }
  | .BST_REC_TIME => { base := 0x800118, stride := 0x100, count := 2, wide := true }
  | .BST_REC_FAIL => { base := 0x800140, stride := 0x100, count := 2, stride2 := 0x4, count2 := 16 }
  | .BST_REC_CNT => { base := 0x800180, stride := 0x100, count := 2, stride2 := 0x4, count2 := 6 }
  | .BST_SLICE_LAST => { base := 0x800300 }
  | .BST_SLICE_CNT => { base := 0x800304 }
  | .BST_SLICE_FAIL => { base := 0x800308 }
  | .BST_SLICE_TIME => { base := 0x800310, wide := true }
  | .DEV_LC => { base := 0x200 }
  | .DEV_KEY_SLOT => { base := 0x204 }
  | .DEV_UID => { base := 0x208, wide := true }
  | .DEV_LC_LAST => { base := 0x210 }
  | .DEV_LC_CNT => { base := 0x214 }
  | .DEV_JTAG => { base := 0x218 }
  | .DEV_KEY_HASH => { base := 0x220, stride := 0x30, count := 4, stride2 := 0x4, count2 := 12 }
  | .GIO_BANK_STAT => { base := 0xe00000, stride := 0x20, count := 14 }
  | .GIO_SHORT => { base := 0xe00004, stride := 0x20, count := 14 }
  | .GIO_SHORT_CNT => { base := 0xe00008, stride := 0x20, count := 14 }
  | .GIO_PAD => { base := 0xe0000c, stride := 0x20, count := 14 }
  | .GIO_REARM => { base := 0xe00010, stride := 0x20, count := 14 }
  | .GIO_SHORT_LAST => { base := 0xe00400 }
  | .GIO_SHORT_TIME => { base := 0xe00408, wide := true }
  | .FIO_GRP_STAT => { base := 0xb00000, stride := 0x40, count := 4 }
  | .FIO_IN => { base := 0xb00004, stride := 0x40, count := 4 }
  | .FIO_OUT_STAT => { base := 0xb00008, stride := 0x40, count := 4 }
  | .FIO_DIAG => { base := 0xb0000c, stride := 0x40, count := 4 }
  | .FIO_REARM => { base := 0xb00010, stride := 0x40, count := 4 }
  | .FIO_WAKE => { base := 0xb00014, stride := 0x40, count := 4 }
  | .FIO_CNT => { base := 0xb00018, stride := 0x40, count := 4 }
  | .FIO_LAST => { base := 0xb00400 }
  | .FIO_LAST_TIME => { base := 0xb00408, wide := true }

/-- The byte offset of instance `i` of a register; a doubly indexed register numbers its instances row by row. -/
def Reg.addr (r : Reg) (i : Nat) : Nat :=
  r.place.base + r.place.stride * (i / r.place.count2) + r.place.stride2 * (i % r.place.count2)

/-- A named field of a register. -/
structure Fld where
  reg : Reg
  lo : Nat
  width : Nat
  acc : Acc
  rst : Nat
  /-- "Retained": kept by the Umber island through OFF (12 R358). -/
  keep : Bool := false
  deriving DecidableEq, Repr

/-- Where the field of instance `i` is held in `State.regs`: its bit address. -/
def Fld.key (f : Fld) (i : Nat) : Nat := 64 * f.reg.addr i + f.lo

def Fld.DEV_IDCODE_IDCODE : Fld := ⟨.DEV_IDCODE, 0, 32, .ro, 0xd313a5f, false⟩
def Fld.DEV_STEP_STEP : Fld := ⟨.DEV_STEP, 0, 4, .ro, 0x1, false⟩
def Fld.DEV_STEP_SPEED : Fld := ⟨.DEV_STEP, 4, 4, .ro, 0x0, false⟩
def Fld.DEV_STEP_TGRADE : Fld := ⟨.DEV_STEP, 8, 4, .ro, 0x0, false⟩
def Fld.DEV_GEOM_REGIONS : Fld := ⟨.DEV_GEOM, 0, 8, .ro, 0x10, false⟩
def Fld.DEV_GEOM_SECTORS : Fld := ⟨.DEV_GEOM, 8, 8, .ro, 0xa, false⟩
def Fld.DEV_GEOM_QUADRANTS : Fld := ⟨.DEV_GEOM, 16, 8, .ro, 0x4, false⟩
def Fld.DEV_GEOM_BANK_GROUPS : Fld := ⟨.DEV_GEOM, 24, 8, .ro, 0x10, false⟩
def Fld.DEV_FRAMES_TOTAL : Fld := ⟨.DEV_FRAMES, 0, 16, .ro, 0xfa00, false⟩
def Fld.DEV_FRAMES_PER_REGION : Fld := ⟨.DEV_FRAMES, 16, 16, .ro, 0xfa0, false⟩
def Fld.DEV_REQ_ID_REQ_ID : Fld := ⟨.DEV_REQ_ID, 0, 8, .ro, 0x0, false⟩
def Fld.DEV_DECERR_ADDR_ADDR : Fld := ⟨.DEV_DECERR_ADDR, 0, 48, .ro, 0x0, false⟩
def Fld.DEV_DECERR_INFO_REQ_ID : Fld := ⟨.DEV_DECERR_INFO, 0, 8, .ro, 0x0, false⟩
def Fld.DEV_DECERR_INFO_WRITE : Fld := ⟨.DEV_DECERR_INFO, 8, 1, .ro, 0x0, false⟩
def Fld.DEV_DECERR_INFO_CAUSE : Fld := ⟨.DEV_DECERR_INFO, 9, 1, .ro, 0x0, false⟩
def Fld.DEV_DECERR_INFO_COUNT : Fld := ⟨.DEV_DECERR_INFO, 16, 16, .rw, 0x0, false⟩
def Fld.MBX_REQ_TAIL_TAIL : Fld := ⟨.MBX_REQ_TAIL, 0, 16, .rw, 0x0, false⟩
def Fld.MBX_REQ_HEAD_HEAD : Fld := ⟨.MBX_REQ_HEAD, 0, 16, .ro, 0x0, false⟩
def Fld.MBX_RSP_TAIL_TAIL : Fld := ⟨.MBX_RSP_TAIL, 0, 16, .ro, 0x0, false⟩
def Fld.MBX_RSP_HEAD_HEAD : Fld := ⟨.MBX_RSP_HEAD, 0, 16, .rw, 0x0, false⟩
def Fld.MBX_CTL_IRQ_EN : Fld := ⟨.MBX_CTL, 0, 1, .rw, 0x0, false⟩
def Fld.MBX_CTL_CLEAR : Fld := ⟨.MBX_CTL, 1, 1, .wo, 0x0, false⟩
def Fld.MBX_STAT_ACTIVE : Fld := ⟨.MBX_STAT, 0, 1, .ro, 0x0, false⟩
def Fld.MBX_STAT_PARTIAL : Fld := ⟨.MBX_STAT, 1, 1, .ro, 0x0, false⟩
def Fld.MBX_STAT_RSP_WAIT : Fld := ⟨.MBX_STAT, 2, 1, .ro, 0x0, false⟩
def Fld.MBX_STAT_DISCARDS : Fld := ⟨.MBX_STAT, 16, 16, .ro, 0x0, false⟩
def Fld.MBX_EP_ERR_ADDR_ADDR : Fld := ⟨.MBX_EP_ERR_ADDR, 0, 48, .ro, 0x0, false⟩
def Fld.MBX_EP_ERR_INFO_RESP : Fld := ⟨.MBX_EP_ERR_INFO, 0, 4, .ro, 0x0, false⟩
def Fld.MBX_EP_ERR_INFO_WRITE : Fld := ⟨.MBX_EP_ERR_INFO, 4, 1, .ro, 0x0, false⟩
def Fld.MBX_EP_ERR_INFO_COUNT : Fld := ⟨.MBX_EP_ERR_INFO, 16, 16, .rw, 0x0, false⟩
def Fld.MBX_EP_STAT_ENABLED : Fld := ⟨.MBX_EP_STAT, 0, 1, .ro, 0x0, false⟩
def Fld.MBX_EP_STAT_LINK_UP : Fld := ⟨.MBX_EP_STAT, 1, 1, .ro, 0x0, false⟩
def Fld.MBX_EP_STAT_PRESENT : Fld := ⟨.MBX_EP_STAT, 2, 1, .ro, 0x0, false⟩
def Fld.MBX_EP_STAT_GEN : Fld := ⟨.MBX_EP_STAT, 3, 3, .ro, 0x0, false⟩
def Fld.MBX_EP_STAT_WIDTH : Fld := ⟨.MBX_EP_STAT, 6, 4, .ro, 0x0, false⟩
def Fld.MBX_EP_STAT_CFG_WIDTH : Fld := ⟨.MBX_EP_STAT, 10, 2, .ro, 0x0, false⟩
def Fld.MBX_EP_STAT_CFG_GEN : Fld := ⟨.MBX_EP_STAT, 12, 3, .ro, 0x0, false⟩
def Fld.MBX_EP_RESETS_COUNT : Fld := ⟨.MBX_EP_RESETS, 0, 16, .ro, 0x0, false⟩
def Fld.MBX_EP_RESETS_LAST : Fld := ⟨.MBX_EP_RESETS, 16, 4, .ro, 0x0, false⟩
def Fld.CFG_BOOT_STAT_STATE : Fld := ⟨.CFG_BOOT_STAT, 0, 3, .ro, 0x0, false⟩
def Fld.CFG_BOOT_STAT_STYLE : Fld := ⟨.CFG_BOOT_STAT, 3, 1, .ro, 0x0, false⟩
def Fld.CFG_BOOT_STAT_FALLBACK : Fld := ⟨.CFG_BOOT_STAT, 4, 1, .ro, 0x0, false⟩
def Fld.CFG_BOOT_STAT_SELFTEST : Fld := ⟨.CFG_BOOT_STAT, 5, 1, .ro, 0x0, false⟩
def Fld.CFG_BOOT_STAT_NO_DIR : Fld := ⟨.CFG_BOOT_STAT, 6, 1, .ro, 0x0, false⟩
def Fld.CFG_BOOT_STAT_ENTRY : Fld := ⟨.CFG_BOOT_STAT, 16, 8, .ro, 0xff, false⟩
def Fld.CFG_BOOT_FAIL_STATUS : Fld := ⟨.CFG_BOOT_FAIL, 0, 16, .ro, 0x0, false⟩
def Fld.CFG_BOOT_FAIL_ENTRY : Fld := ⟨.CFG_BOOT_FAIL, 16, 8, .ro, 0x0, false⟩
def Fld.CFG_BOOT_FAIL_STAGE : Fld := ⟨.CFG_BOOT_FAIL, 24, 4, .ro, 0x0, false⟩
def Fld.CFG_GOLD_FAIL_STATUS : Fld := ⟨.CFG_GOLD_FAIL, 0, 16, .ro, 0x0, false⟩
def Fld.CFG_GOLD_FAIL_ENTRY : Fld := ⟨.CFG_GOLD_FAIL, 16, 8, .ro, 0x0, false⟩
def Fld.CFG_GOLD_FAIL_STAGE : Fld := ⟨.CFG_GOLD_FAIL, 24, 4, .ro, 0x0, false⟩
def Fld.CFG_BOOT_TIME_TIME : Fld := ⟨.CFG_BOOT_TIME, 0, 24, .ro, 0x0, false⟩
def Fld.CFG_LOAD_ACTIVE_LOADING : Fld := ⟨.CFG_LOAD_ACTIVE, 0, 16, .ro, 0x0, false⟩
def Fld.CFG_LOAD_ACTIVE_CHECKING : Fld := ⟨.CFG_LOAD_ACTIVE, 16, 1, .ro, 0x0, false⟩
def Fld.CFG_FAIL_POS_CHUNK : Fld := ⟨.CFG_FAIL_POS, 0, 12, .ro, 0x0, false⟩
def Fld.CFG_FAIL_POS_RECORD : Fld := ⟨.CFG_FAIL_POS, 12, 4, .ro, 0x0, false⟩
def Fld.CFG_REGION_STAT_STATE : Fld := ⟨.CFG_REGION_STAT, 0, 3, .ro, 0x0, false⟩
def Fld.CFG_REGION_STAT_ENTRY : Fld := ⟨.CFG_REGION_STAT, 8, 8, .ro, 0xff, false⟩
def Fld.CFG_REGION_STAT_LAST_STATUS : Fld := ⟨.CFG_REGION_STAT, 16, 16, .ro, 0x0, false⟩
def Fld.CFG_REGION_FRAMES_FRAMES : Fld := ⟨.CFG_REGION_FRAMES, 0, 12, .ro, 0x0, false⟩
def Fld.CFG_REGION_COUNT_LOADS : Fld := ⟨.CFG_REGION_COUNT, 0, 16, .ro, 0x0, false⟩
def Fld.CFG_REGION_COUNT_ABORTS : Fld := ⟨.CFG_REGION_COUNT, 16, 16, .ro, 0x0, false⟩
def Fld.CFG_REGION_FAIL_CHUNK : Fld := ⟨.CFG_REGION_FAIL, 0, 12, .ro, 0x0, false⟩
def Fld.CFG_REGION_FAIL_RECORD : Fld := ⟨.CFG_REGION_FAIL, 12, 4, .ro, 0x0, false⟩
def Fld.CFG_REGION_FAIL_STAGE : Fld := ⟨.CFG_REGION_FAIL, 16, 4, .ro, 0x0, false⟩
def Fld.CFG_SCRUB_STAT_ACTIVE : Fld := ⟨.CFG_SCRUB_STAT, 0, 16, .ro, 0x0, false⟩
def Fld.CFG_SCRUB_STAT_RUNNING : Fld := ⟨.CFG_SCRUB_STAT, 16, 1, .ro, 0x0, false⟩
def Fld.CFG_SCRUB_LAST_FRAME : Fld := ⟨.CFG_SCRUB_LAST, 0, 16, .ro, 0x0, false⟩
def Fld.CFG_SCRUB_LAST_OUTCOME : Fld := ⟨.CFG_SCRUB_LAST, 16, 3, .ro, 0x0, false⟩
def Fld.CFG_SCRUB_LAST_INJECTED : Fld := ⟨.CFG_SCRUB_LAST, 19, 1, .ro, 0x0, false⟩
def Fld.CFG_SCRUB_LAST_TIME_TIME : Fld := ⟨.CFG_SCRUB_LAST_TIME, 0, 64, .ro, 0x0, false⟩
def Fld.CFG_SCRUB_INJECT_FRAME : Fld := ⟨.CFG_SCRUB_INJECT, 0, 16, .rw, 0x0, false⟩
def Fld.CFG_SCRUB_INJECT_ARM : Fld := ⟨.CFG_SCRUB_INJECT, 16, 1, .rw, 0x0, false⟩
def Fld.CFG_SCRUB_SWEEPS_SWEEPS : Fld := ⟨.CFG_SCRUB_SWEEPS, 0, 32, .ro, 0x0, false⟩
def Fld.CFG_SCRUB_CNT_MISMATCHES : Fld := ⟨.CFG_SCRUB_CNT, 0, 16, .ro, 0x0, false⟩
def Fld.CFG_SCRUB_CNT_REPAIRS : Fld := ⟨.CFG_SCRUB_CNT, 16, 16, .ro, 0x0, false⟩
def Fld.CFG_SCRUB_TIME_LAST_US : Fld := ⟨.CFG_SCRUB_TIME, 0, 13, .ro, 0x0, false⟩
def Fld.CFG_SCRUB_TIME_MAX_US : Fld := ⟨.CFG_SCRUB_TIME, 16, 13, .ro, 0x0, false⟩
def Fld.CFG_SCRUB_FAIL_FRAME : Fld := ⟨.CFG_SCRUB_FAIL, 0, 16, .ro, 0x0, false⟩
def Fld.CFG_SCRUB_FAIL_CAUSE : Fld := ⟨.CFG_SCRUB_FAIL, 16, 3, .ro, 0x0, false⟩
def Fld.SPN_RATE_CUR_MTPS : Fld := ⟨.SPN_RATE, 0, 16, .ro, 0x0, false⟩
def Fld.SPN_RATE_MIN_MTPS : Fld := ⟨.SPN_RATE, 16, 16, .ro, 0x0, false⟩
def Fld.SPN_RATE_MAX_MAX_MTPS : Fld := ⟨.SPN_RATE_MAX, 0, 16, .ro, 0x0, false⟩
def Fld.SPN_RATE_MAX_FLOOR_MTPS : Fld := ⟨.SPN_RATE_MAX, 16, 16, .ro, 0x3e8, false⟩
def Fld.SPN_BEATS_BEATS : Fld := ⟨.SPN_BEATS, 0, 64, .ro, 0x0, false⟩
def Fld.SPN_DARK_CNT_COUNT : Fld := ⟨.SPN_DARK_CNT, 0, 32, .ro, 0x0, false⟩
def Fld.SPN_TO_CNT_EXPIRED : Fld := ⟨.SPN_TO_CNT, 0, 16, .ro, 0x0, false⟩
def Fld.SPN_TO_CNT_LATE : Fld := ⟨.SPN_TO_CNT, 16, 16, .ro, 0x0, false⟩
def Fld.SPN_FAIR_LINK_WAIT_MAX : Fld := ⟨.SPN_FAIR, 0, 4, .ro, 0x0, false⟩
def Fld.SPN_FAIR_CREDIT_WAIT_MAX : Fld := ⟨.SPN_FAIR, 8, 7, .ro, 0x0, false⟩
def Fld.SPN_FAIR_CLR : Fld := ⟨.SPN_FAIR, 31, 1, .wo, 0x0, false⟩
def Fld.SPN_STALL_NODE : Fld := ⟨.SPN_STALL, 0, 5, .ro, 0x0, false⟩
def Fld.SPN_STALL_INPUT : Fld := ⟨.SPN_STALL, 5, 4, .ro, 0x0, false⟩
def Fld.SPN_STALL_PLANE : Fld := ⟨.SPN_STALL, 9, 1, .ro, 0x0, false⟩
def Fld.SPN_STALL_PORT : Fld := ⟨.SPN_STALL, 10, 7, .ro, 0x0, false⟩
def Fld.SPN_STALL_KIND : Fld := ⟨.SPN_STALL, 17, 1, .ro, 0x0, false⟩
def Fld.SPN_STALL_VALID : Fld := ⟨.SPN_STALL, 18, 1, .ro, 0x0, false⟩
def Fld.SPN_STALL_INJECTED : Fld := ⟨.SPN_STALL, 19, 1, .ro, 0x0, false⟩
def Fld.SPN_STALL_TIME_TIME : Fld := ⟨.SPN_STALL_TIME, 0, 64, .ro, 0x0, false⟩
def Fld.SPN_STALL_INJECT_NODE : Fld := ⟨.SPN_STALL_INJECT, 0, 5, .rw, 0x0, false⟩
def Fld.SPN_STALL_INJECT_INPUT : Fld := ⟨.SPN_STALL_INJECT, 5, 4, .rw, 0x0, false⟩
def Fld.SPN_STALL_INJECT_PLANE : Fld := ⟨.SPN_STALL_INJECT, 9, 1, .rw, 0x0, false⟩
def Fld.SPN_STALL_INJECT_ARM : Fld := ⟨.SPN_STALL_INJECT, 16, 1, .rw, 0x0, false⟩
def Fld.SPN_STALL_CNT_COUNT : Fld := ⟨.SPN_STALL_CNT, 0, 16, .ro, 0x0, false⟩
def Fld.SPN_RESP_CNT_COUNT : Fld := ⟨.SPN_RESP_CNT, 0, 32, .ro, 0x0, false⟩
def Fld.SPN_RP_CFG_TIMEOUT_US : Fld := ⟨.SPN_RP_CFG, 0, 14, .rw, 0x64, false⟩
def Fld.SPN_RP_DISC_REQ_DISC : Fld := ⟨.SPN_RP_DISC, 0, 16, .ro, 0x0, false⟩
def Fld.SPN_RP_DISC_RSP_DISC : Fld := ⟨.SPN_RP_DISC, 16, 16, .ro, 0x0, false⟩
def Fld.SPN_RP_TGT_TGT_DISC : Fld := ⟨.SPN_RP_TGT, 0, 16, .ro, 0x0, false⟩
def Fld.SPN_RP_TGT_CONVERTED : Fld := ⟨.SPN_RP_TGT, 16, 16, .ro, 0x0, false⟩
def Fld.SPN_RP_TO_TGT_TIMEOUT : Fld := ⟨.SPN_RP_TO, 0, 16, .ro, 0x0, false⟩
def Fld.SPN_RP_TO_INI_TIMEOUT : Fld := ⟨.SPN_RP_TO, 16, 16, .ro, 0x0, false⟩
def Fld.SPN_RP_STAT_FREE_TAGS : Fld := ⟨.SPN_RP_STAT, 0, 8, .ro, 0x80, false⟩
def Fld.SPN_RP_STAT_FREE_RSP : Fld := ⟨.SPN_RP_STAT, 8, 8, .ro, 0x80, false⟩
def Fld.SPN_RP_STAT_INGRESS : Fld := ⟨.SPN_RP_STAT, 16, 5, .ro, 0x0, false⟩
def Fld.SPN_RP_STAT_FENCED : Fld := ⟨.SPN_RP_STAT, 21, 1, .ro, 0x0, false⟩
def Fld.BNK_OWNER_OWNER : Fld := ⟨.BNK_OWNER, 0, 8, .ro, 0x0, false⟩
def Fld.BNK_OWNER_EXPECT : Fld := ⟨.BNK_OWNER, 8, 8, .wo, 0x0, false⟩
def Fld.BNK_OWNER_NEW : Fld := ⟨.BNK_OWNER, 16, 8, .wo, 0x0, false⟩
def Fld.BNK_OWNER_CLR : Fld := ⟨.BNK_OWNER, 24, 1, .wo, 0x0, false⟩
def Fld.BNK_OWNER_CLEARING : Fld := ⟨.BNK_OWNER, 25, 1, .ro, 0x0, false⟩
def Fld.BNK_OWNER_ABSENT : Fld := ⟨.BNK_OWNER, 26, 1, .ro, 0x0, false⟩
def Fld.ATT_REGION_PARENT_PARENT : Fld := ⟨.ATT_REGION_PARENT, 0, 8, .ro, 0x0, false⟩
def Fld.ATT_REGION_PARENT_EXPECT : Fld := ⟨.ATT_REGION_PARENT, 8, 8, .wo, 0x0, false⟩
def Fld.ATT_REGION_PARENT_NEW : Fld := ⟨.ATT_REGION_PARENT, 16, 8, .wo, 0x0, false⟩
def Fld.ATT_REGION_PARENT_WIPE : Fld := ⟨.ATT_REGION_PARENT, 24, 1, .wo, 0x0, false⟩
def Fld.ATT_REGION_PARENT_WIPING : Fld := ⟨.ATT_REGION_PARENT, 25, 1, .ro, 0x0, false⟩
def Fld.ATT_REGION_PARENT_ABSENT : Fld := ⟨.ATT_REGION_PARENT, 26, 1, .ro, 0x0, false⟩
def Fld.ATT_GROUP_PARENT_PARENT : Fld := ⟨.ATT_GROUP_PARENT, 0, 8, .ro, 0x0, false⟩
def Fld.ATT_GROUP_PARENT_EXPECT : Fld := ⟨.ATT_GROUP_PARENT, 8, 8, .wo, 0x0, false⟩
def Fld.ATT_GROUP_PARENT_NEW : Fld := ⟨.ATT_GROUP_PARENT, 16, 8, .wo, 0x0, false⟩
def Fld.ATT_GROUP_PARENT_CLR : Fld := ⟨.ATT_GROUP_PARENT, 24, 1, .wo, 0x0, false⟩
def Fld.ATT_GROUP_PARENT_CLEARING : Fld := ⟨.ATT_GROUP_PARENT, 25, 1, .ro, 0x0, false⟩
def Fld.ATT_GROUP_PARENT_ABSENT : Fld := ⟨.ATT_GROUP_PARENT, 26, 1, .ro, 0x0, false⟩
def Fld.ATT_ADMIN_ADMIN : Fld := ⟨.ATT_ADMIN, 0, 8, .ro, 0x14, false⟩
def Fld.ATT_ADMIN_ABSENT : Fld := ⟨.ATT_ADMIN, 8, 4, .ro, 0x0, false⟩
def Fld.ATT_HO_LAST_KIND : Fld := ⟨.ATT_HO_LAST, 0, 2, .ro, 0x0, false⟩
def Fld.ATT_HO_LAST_INDEX : Fld := ⟨.ATT_HO_LAST, 2, 7, .ro, 0x0, false⟩
def Fld.ATT_HO_LAST_OLD : Fld := ⟨.ATT_HO_LAST, 16, 8, .ro, 0x0, false⟩
def Fld.ATT_HO_LAST_NEW : Fld := ⟨.ATT_HO_LAST, 24, 8, .ro, 0x0, false⟩
def Fld.ATT_HO_CNT_DONE : Fld := ⟨.ATT_HO_CNT, 0, 16, .ro, 0x0, false⟩
def Fld.ATT_HO_CNT_FAILED : Fld := ⟨.ATT_HO_CNT, 16, 16, .ro, 0x0, false⟩
def Fld.ATT_HO_TIME_TIME : Fld := ⟨.ATT_HO_TIME, 0, 64, .ro, 0x0, false⟩
def Fld.BNK_STAT_POWERED : Fld := ⟨.BNK_STAT, 0, 1, .ro, 0x0, false⟩
def Fld.BNK_STAT_RETENTION : Fld := ⟨.BNK_STAT, 1, 1, .ro, 0x0, false⟩
def Fld.BNK_STAT_PU_CLEAR : Fld := ⟨.BNK_STAT, 2, 1, .ro, 0x0, false⟩
def Fld.BNK_STAT_PARKED : Fld := ⟨.BNK_STAT, 3, 1, .ro, 0x0, false⟩
def Fld.BNK_STAT_PARK_PAGE : Fld := ⟨.BNK_STAT, 4, 7, .ro, 0x0, false⟩
def Fld.BNK_STAT_PARKING : Fld := ⟨.BNK_STAT, 11, 1, .ro, 0x0, false⟩
def Fld.BNK_STAT_REMAP_FULL : Fld := ⟨.BNK_STAT, 12, 1, .ro, 0x0, false⟩
def Fld.BNK_STAT_REMAP_USED : Fld := ⟨.BNK_STAT, 13, 5, .ro, 0x0, false⟩
def Fld.BNK_STAT_FUSE_USED : Fld := ⟨.BNK_STAT, 18, 4, .ro, 0x0, false⟩
def Fld.BNK_CE_WORD_CE : Fld := ⟨.BNK_CE, 0, 16, .ro, 0x0, false⟩
def Fld.BNK_CE_PAGE_CORR : Fld := ⟨.BNK_CE, 16, 16, .ro, 0x0, false⟩
def Fld.BNK_UE_LATENT_UE : Fld := ⟨.BNK_UE, 0, 16, .ro, 0x0, false⟩
def Fld.BNK_UE_ACCESS_UE : Fld := ⟨.BNK_UE, 16, 16, .ro, 0x0, false⟩
def Fld.BNK_POISON_COUNT : Fld := ⟨.BNK_POISON, 0, 17, .ro, 0x0, false⟩
def Fld.BNK_LAST_ERR_CELL : Fld := ⟨.BNK_LAST_ERR, 0, 17, .ro, 0x0, false⟩
def Fld.BNK_LAST_ERR_KIND : Fld := ⟨.BNK_LAST_ERR, 17, 3, .ro, 0x0, false⟩
def Fld.BNK_LAST_ERR_OWNER : Fld := ⟨.BNK_LAST_ERR, 20, 8, .ro, 0x0, false⟩
def Fld.BNK_LAST_ERR_INJECTED : Fld := ⟨.BNK_LAST_ERR, 28, 1, .ro, 0x0, false⟩
def Fld.BNK_LAST_TIME_TIME : Fld := ⟨.BNK_LAST_TIME, 0, 64, .ro, 0x0, false⟩
def Fld.BNK_SCRUB_NEXT_PAGE : Fld := ⟨.BNK_SCRUB, 0, 7, .ro, 0x0, false⟩
def Fld.BNK_SCRUB_RUNNING : Fld := ⟨.BNK_SCRUB, 7, 1, .ro, 0x0, false⟩
def Fld.BNK_SCRUB_PASSES : Fld := ⟨.BNK_SCRUB, 16, 16, .ro, 0x0, false⟩
def Fld.BNK_SUSPECT_USED : Fld := ⟨.BNK_SUSPECT, 0, 6, .ro, 0x0, false⟩
def Fld.BNK_SUSPECT_SUSPECT_OVF : Fld := ⟨.BNK_SUSPECT, 16, 16, .ro, 0x0, false⟩
def Fld.BNK_INJECT_WORD : Fld := ⟨.BNK_INJECT, 0, 16, .rw, 0x0, false⟩
def Fld.BNK_INJECT_BIT_A : Fld := ⟨.BNK_INJECT, 16, 7, .rw, 0x0, false⟩
def Fld.BNK_INJECT_BIT_B : Fld := ⟨.BNK_INJECT, 23, 7, .rw, 0x0, false⟩
def Fld.BNK_INJECT_DOUBLE : Fld := ⟨.BNK_INJECT, 30, 1, .rw, 0x0, false⟩
def Fld.BNK_INJECT_ARM : Fld := ⟨.BNK_INJECT, 31, 1, .wo, 0x0, false⟩
def Fld.BNK_CE_SPARE_COUNT : Fld := ⟨.BNK_CE_SPARE, 0, 16, .ro, 0x0, false⟩
def Fld.BNK_CLR_STAT_PENDING : Fld := ⟨.BNK_CLR_STAT, 0, 8, .ro, 0x0, false⟩
def Fld.BNK_CLR_STAT_CURRENT : Fld := ⟨.BNK_CLR_STAT, 8, 3, .ro, 0x0, false⟩
def Fld.BNK_CLR_STAT_ACTIVE : Fld := ⟨.BNK_CLR_STAT, 11, 1, .ro, 0x0, false⟩
def Fld.BNK_CLR_STAT_CLEARS : Fld := ⟨.BNK_CLR_STAT, 16, 16, .ro, 0x0, false⟩
def Fld.BNK_PARK_BANK_A : Fld := ⟨.BNK_PARK, 0, 7, .rw, 0x0, false⟩
def Fld.BNK_PARK_VALID_A : Fld := ⟨.BNK_PARK, 7, 1, .rw, 0x0, false⟩
def Fld.BNK_PARK_BANK_B : Fld := ⟨.BNK_PARK, 8, 7, .rw, 0x0, false⟩
def Fld.BNK_PARK_VALID_B : Fld := ⟨.BNK_PARK, 15, 1, .rw, 0x0, false⟩
def Fld.BNK_PARK_IN_USE : Fld := ⟨.BNK_PARK, 16, 4, .ro, 0x0, false⟩
def Fld.BNK_REMAP_ENT_CELL : Fld := ⟨.BNK_REMAP_ENT, 0, 17, .ro, 0x0, false⟩
def Fld.BNK_REMAP_ENT_VALID : Fld := ⟨.BNK_REMAP_ENT, 17, 1, .ro, 0x0, false⟩
def Fld.DMA_TIMEOUT_TIMEOUT_US : Fld := ⟨.DMA_TIMEOUT, 0, 14, .rw, 0x64, false⟩
def Fld.DMA_STAT_ENABLED : Fld := ⟨.DMA_STAT, 0, 14, .ro, 0x0, false⟩
def Fld.DMA_STAT_HALTED : Fld := ⟨.DMA_STAT, 16, 14, .ro, 0x0, false⟩
def Fld.DMA_BYTES_BYTES : Fld := ⟨.DMA_BYTES, 0, 64, .ro, 0x0, false⟩
def Fld.DMA_PORT_STAT_FREE_TAGS : Fld := ⟨.DMA_PORT_STAT, 0, 12, .ro, 0x800, false⟩
def Fld.DMA_GROUP_CFG_WEIGHT : Fld := ⟨.DMA_GROUP_CFG, 0, 4, .rw, 0x0, false⟩
def Fld.DMA_GROUP_CFG_TAG_CAP : Fld := ⟨.DMA_GROUP_CFG, 4, 12, .rw, 0x100, false⟩
def Fld.DMA_GROUP_STAT_TAGS_USED : Fld := ⟨.DMA_GROUP_STAT, 0, 12, .ro, 0x0, false⟩
def Fld.DMA_GROUP_STAT_RUNNING : Fld := ⟨.DMA_GROUP_STAT, 12, 8, .ro, 0x0, false⟩
def Fld.DMA_GROUP_STAT_HALTED : Fld := ⟨.DMA_GROUP_STAT, 20, 8, .ro, 0x0, false⟩
def Fld.DMA_RING_TAIL_TAIL : Fld := ⟨.DMA_RING_TAIL, 0, 32, .rw, 0x0, false⟩
def Fld.DMA_RING_HEAD_HEAD : Fld := ⟨.DMA_RING_HEAD, 0, 32, .ro, 0x0, false⟩
def Fld.DMA_RING_CTL_ENABLE : Fld := ⟨.DMA_RING_CTL, 0, 1, .rw, 0x0, false⟩
def Fld.DMA_RING_CTL_HALT : Fld := ⟨.DMA_RING_CTL, 1, 1, .wo, 0x0, false⟩
def Fld.DMA_RING_CTL_RESUME : Fld := ⟨.DMA_RING_CTL, 2, 1, .wo, 0x0, false⟩
def Fld.DMA_RING_CTL_SIZE_LOG2 : Fld := ⟨.DMA_RING_CTL, 8, 5, .rw, 0x4, false⟩
def Fld.DMA_RING_CTL_VECTOR : Fld := ⟨.DMA_RING_CTL, 16, 11, .rw, 0x1, false⟩
def Fld.DMA_RING_STAT_STATE : Fld := ⟨.DMA_RING_STAT, 0, 2, .ro, 0x0, false⟩
def Fld.DMA_RING_STAT_HALT_CAUSE : Fld := ⟨.DMA_RING_STAT, 4, 3, .ro, 0x0, false⟩
def Fld.DMA_RING_STAT_INFLIGHT : Fld := ⟨.DMA_RING_STAT, 8, 4, .ro, 0x0, false⟩
def Fld.DMA_RING_STAT_IRQ_PENDING : Fld := ⟨.DMA_RING_STAT, 12, 1, .ro, 0x0, false⟩
def Fld.DMA_RING_BASE_BASE : Fld := ⟨.DMA_RING_BASE, 0, 64, .rw, 0x0, false⟩
def Fld.DMA_RING_CQ_CQ : Fld := ⟨.DMA_RING_CQ, 0, 64, .rw, 0x0, false⟩
def Fld.DMA_RING_HOPMAX_HOPMAX : Fld := ⟨.DMA_RING_HOPMAX, 0, 16, .rw, 0x1000, false⟩
def Fld.DMA_RING_IRQ_HOLDOFF_US : Fld := ⟨.DMA_RING_IRQ, 0, 10, .rw, 0x0, false⟩
def Fld.DMA_RING_ERR_STATUS : Fld := ⟨.DMA_RING_ERR, 0, 16, .ro, 0x0, false⟩
def Fld.DMA_RING_ERR_CAUSE : Fld := ⟨.DMA_RING_ERR, 16, 8, .ro, 0x0, false⟩
def Fld.DMA_RING_ERR_CODE : Fld := ⟨.DMA_RING_ERR, 24, 4, .ro, 0x0, false⟩
def Fld.DMA_RING_DONE_DONE : Fld := ⟨.DMA_RING_DONE, 0, 32, .ro, 0x0, false⟩
def Fld.DMA_RING_ERR_IDX_INDEX : Fld := ⟨.DMA_RING_ERR_IDX, 0, 16, .ro, 0x0, false⟩
def Fld.ATT_ENT_MAP_RD : Fld := ⟨.ATT_ENT_MAP, 0, 1, .rw, 0x0, false⟩
def Fld.ATT_ENT_MAP_WR : Fld := ⟨.ATT_ENT_MAP, 1, 1, .rw, 0x0, false⟩
def Fld.ATT_ENT_MAP_BASE : Fld := ⟨.ATT_ENT_MAP, 12, 32, .rw, 0x0, false⟩
def Fld.ATT_ENT_MAP_LIMIT : Fld := ⟨.ATT_ENT_MAP, 44, 16, .rw, 0x0, false⟩
def Fld.ATT_ENT_KEY_KEY : Fld := ⟨.ATT_ENT_KEY, 0, 8, .ro, 0x0, false⟩
def Fld.ATT_ENT_KEY_EXPECT : Fld := ⟨.ATT_ENT_KEY, 8, 8, .wo, 0x0, false⟩
def Fld.ATT_ENT_KEY_NEW : Fld := ⟨.ATT_ENT_KEY, 16, 8, .wo, 0x0, false⟩
def Fld.ATT_ENT_KEY_STALE : Fld := ⟨.ATT_ENT_KEY, 24, 1, .ro, 0x0, false⟩
def Fld.ATT_QUOTA_LIMIT : Fld := ⟨.ATT_QUOTA, 0, 16, .rw, 0x8000, false⟩
def Fld.ATT_QUOTA_USED : Fld := ⟨.ATT_QUOTA, 16, 16, .ro, 0x0, false⟩
def Fld.ATT_FAULT_INFO_OWNER : Fld := ⟨.ATT_FAULT_INFO, 0, 8, .ro, 0x0, false⟩
def Fld.ATT_FAULT_INFO_CAUSE : Fld := ⟨.ATT_FAULT_INFO, 8, 8, .ro, 0x0, false⟩
def Fld.ATT_FAULT_INFO_WRITE : Fld := ⟨.ATT_FAULT_INFO, 16, 1, .ro, 0x0, false⟩
def Fld.ATT_FAULT_CNT_DMA : Fld := ⟨.ATT_FAULT_CNT, 0, 16, .ro, 0x0, false⟩
def Fld.ATT_FAULT_CNT_REGION : Fld := ⟨.ATT_FAULT_CNT, 16, 16, .ro, 0x0, false⟩
def Fld.ATT_FAULT_ADDR_ADDR : Fld := ⟨.ATT_FAULT_ADDR, 0, 48, .ro, 0x0, false⟩
def Fld.ATT_SWEEP_ACTIVE : Fld := ⟨.ATT_SWEEP, 0, 1, .ro, 0x0, false⟩
def Fld.ATT_SWEEP_FREED : Fld := ⟨.ATT_SWEEP, 16, 16, .ro, 0x0, false⟩
def Fld.SLT_STAT_PROGRAMMING : Fld := ⟨.SLT_STAT, 0, 8, .ro, 0x0, false⟩
def Fld.SLT_STAT_ERASING : Fld := ⟨.SLT_STAT, 8, 8, .ro, 0x0, false⟩
def Fld.SLT_STAT_SUSPENDED : Fld := ⟨.SLT_STAT, 16, 8, .ro, 0x0, false⟩
def Fld.SLT_STAT_MAP_LOADED : Fld := ⟨.SLT_STAT, 24, 1, .ro, 0x0, false⟩
def Fld.SLT_STAT_STANDBY : Fld := ⟨.SLT_STAT, 25, 1, .ro, 0x0, false⟩
def Fld.SLT_SPARE_FREE : Fld := ⟨.SLT_SPARE, 0, 9, .ro, 0x100, false⟩
def Fld.SLT_SPARE_WORN : Fld := ⟨.SLT_SPARE, 9, 9, .ro, 0x0, false⟩
def Fld.SLT_PART_SLOT_LOCK : Fld := ⟨.SLT_PART, 0, 4, .ro, 0x0, false⟩
def Fld.SLT_PART_DIR_LOCK : Fld := ⟨.SLT_PART, 4, 1, .ro, 0x0, false⟩
def Fld.SLT_PART_SET_LOCK : Fld := ⟨.SLT_PART, 5, 2, .ro, 0x0, false⟩
def Fld.SLT_PART_LOG_LOCK : Fld := ⟨.SLT_PART, 7, 1, .ro, 0x0, false⟩
def Fld.SLT_PART_USER_LOCK : Fld := ⟨.SLT_PART, 8, 1, .ro, 0x0, false⟩
def Fld.SLT_RD_ERR_UE_PAGES : Fld := ⟨.SLT_RD_ERR, 0, 16, .ro, 0x0, false⟩
def Fld.SLT_RD_ERR_PAGE_CORR : Fld := ⟨.SLT_RD_ERR, 16, 16, .ro, 0x0, false⟩
def Fld.SLT_LAST_UE_PAGE : Fld := ⟨.SLT_LAST_UE, 0, 18, .ro, 0x0, false⟩
def Fld.SLT_LAST_UE_VALID : Fld := ⟨.SLT_LAST_UE, 18, 1, .ro, 0x0, false⟩
def Fld.SLT_LAST_UE_TIME_TIME : Fld := ⟨.SLT_LAST_UE_TIME, 0, 64, .ro, 0x0, false⟩
def Fld.SLT_SUSPEND_SUSPENDS : Fld := ⟨.SLT_SUSPEND, 0, 16, .ro, 0x0, false⟩
def Fld.SLT_SUSPEND_SUSPERASE : Fld := ⟨.SLT_SUSPEND, 16, 16, .ro, 0x0, false⟩
def Fld.SLT_QUEUE_QFULL_TIMEOUTS : Fld := ⟨.SLT_QUEUE, 0, 16, .ro, 0x0, false⟩
def Fld.SLT_SET_STAT_STATE : Fld := ⟨.SLT_SET_STAT, 0, 3, .ro, 0x0, false⟩
def Fld.SLT_SET_STAT_SOURCE : Fld := ⟨.SLT_SET_STAT, 3, 1, .ro, 0x0, false⟩
def Fld.SLT_SET_STAT_FREE0 : Fld := ⟨.SLT_SET_STAT, 4, 7, .ro, 0x0, false⟩
def Fld.SLT_SET_STAT_FREE1 : Fld := ⟨.SLT_SET_STAT, 11, 7, .ro, 0x0, false⟩
def Fld.SLT_SET_STAT_LIVE_KIB : Fld := ⟨.SLT_SET_STAT, 18, 14, .ro, 0x0, false⟩
def Fld.SLT_SET_PEND_BYTES : Fld := ⟨.SLT_SET_PEND, 0, 20, .ro, 0x0, false⟩
def Fld.SLT_SET_PEND_CHANGES : Fld := ⟨.SLT_SET_PEND, 20, 12, .ro, 0x0, false⟩
def Fld.SLT_SET_SEQ_SEQ : Fld := ⟨.SLT_SET_SEQ, 0, 48, .ro, 0x0, false⟩
def Fld.SLT_PATROL_NEXT_PAGE : Fld := ⟨.SLT_PATROL, 0, 18, .ro, 0x0, false⟩
def Fld.SLT_PATROL_PASSES : Fld := ⟨.SLT_PATROL, 18, 14, .ro, 0x0, false⟩
def Fld.SLT_BLK_ERASES_ERASES : Fld := ⟨.SLT_BLK_ERASES, 0, 32, .ro, 0x0, false⟩
def Fld.SLT_BLK_WEAR_PULSE_MAX : Fld := ⟨.SLT_BLK_WEAR, 0, 5, .ro, 0x0, false⟩
def Fld.SLT_BLK_WEAR_CORR_MAX : Fld := ⟨.SLT_BLK_WEAR, 5, 6, .ro, 0x0, false⟩
def Fld.SLT_BLK_WEAR_WEAR_WARN : Fld := ⟨.SLT_BLK_WEAR, 11, 1, .ro, 0x0, false⟩
def Fld.SLT_BLK_WEAR_OVER_RATED : Fld := ⟨.SLT_BLK_WEAR, 12, 1, .ro, 0x0, false⟩
def Fld.SLT_BLK_WEAR_STATE : Fld := ⟨.SLT_BLK_WEAR, 13, 2, .ro, 0x0, false⟩
def Fld.SLT_BLK_WEAR_UNSTABLE : Fld := ⟨.SLT_BLK_WEAR, 15, 1, .ro, 0x0, false⟩
def Fld.SLT_BLK_MAP_PHYS : Fld := ⟨.SLT_BLK_MAP, 0, 12, .ro, 0x0, false⟩
def Fld.SLT_BLK_MAP_REMAPPED : Fld := ⟨.SLT_BLK_MAP, 12, 1, .ro, 0x0, false⟩
def Fld.SLT_SPARE_ENT_LOGICAL : Fld := ⟨.SLT_SPARE_ENT, 0, 12, .ro, 0xfff, false⟩
def Fld.SLT_SPARE_ENT_IN_USE : Fld := ⟨.SLT_SPARE_ENT, 12, 1, .ro, 0x0, false⟩
def Fld.SLT_SPARE_ENT_WORN : Fld := ⟨.SLT_SPARE_ENT, 13, 1, .ro, 0x0, false⟩
def Fld.SLT_SPARE_ERASES_ERASES : Fld := ⟨.SLT_SPARE_ERASES, 0, 32, .ro, 0x0, false⟩
def Fld.NRG_VIN_VIN_MV : Fld := ⟨.NRG_VIN, 0, 16, .ro, 0x0, false⟩
def Fld.NRG_VIN_IIN_MA : Fld := ⟨.NRG_VIN, 16, 16, .ro, 0x0, false⟩
def Fld.NRG_BANK_INT_MV : Fld := ⟨.NRG_BANK, 0, 16, .ro, 0x0, false⟩
def Fld.NRG_BANK_EXT_MV : Fld := ⟨.NRG_BANK, 16, 16, .ro, 0x0, false⟩
def Fld.NRG_CAP_INT_CAP : Fld := ⟨.NRG_CAP_INT, 0, 20, .ro, 0x0, false⟩
def Fld.NRG_CAP_INT_VALID : Fld := ⟨.NRG_CAP_INT, 20, 1, .ro, 0x0, false⟩
def Fld.NRG_CAP_INT_METHOD : Fld := ⟨.NRG_CAP_INT, 21, 2, .ro, 0x0, false⟩
def Fld.NRG_CAP_EXT_CAP : Fld := ⟨.NRG_CAP_EXT, 0, 20, .ro, 0x0, false⟩
def Fld.NRG_CAP_EXT_VALID : Fld := ⟨.NRG_CAP_EXT, 20, 1, .ro, 0x0, false⟩
def Fld.NRG_CAP_EXT_METHOD : Fld := ⟨.NRG_CAP_EXT, 21, 2, .ro, 0x0, false⟩
def Fld.NRG_AVAIL_UJ : Fld := ⟨.NRG_AVAIL, 0, 32, .ro, 0x0, false⟩
def Fld.NRG_RESERVE_UJ : Fld := ⟨.NRG_RESERVE, 0, 32, .ro, 0x0, false⟩
def Fld.NRG_ENCUMB_UJ : Fld := ⟨.NRG_ENCUMB, 0, 32, .ro, 0x0, false⟩
def Fld.NRG_MARGIN_UJ : Fld := ⟨.NRG_MARGIN, 0, 32, .ro, 0x0, false⟩
def Fld.NRG_STAT_CHARGED : Fld := ⟨.NRG_STAT, 0, 1, .ro, 0x0, false⟩
def Fld.NRG_STAT_EXT_PRESENT : Fld := ⟨.NRG_STAT, 1, 1, .ro, 0x0, false⟩
def Fld.NRG_STAT_EXT_CHARGING : Fld := ⟨.NRG_STAT, 2, 1, .ro, 0x0, false⟩
def Fld.NRG_STAT_RESERVE_SHORT : Fld := ⟨.NRG_STAT, 3, 1, .ro, 0x0, false⟩
def Fld.NRG_STAT_MEASURING : Fld := ⟨.NRG_STAT, 4, 1, .ro, 0x0, false⟩
def Fld.NRG_STAT_VIN_LOW : Fld := ⟨.NRG_STAT, 5, 1, .ro, 0x0, false⟩
def Fld.NRG_STAT_HOLDUP : Fld := ⟨.NRG_STAT, 6, 1, .ro, 0x0, false⟩
def Fld.NRG_PEND_BYTES : Fld := ⟨.NRG_PEND, 0, 20, .ro, 0x0, false⟩
def Fld.NRG_PEND_ROUNDS : Fld := ⟨.NRG_PEND, 20, 4, .ro, 0x0, false⟩
def Fld.NRG_REFUSE_LAST_CLASS : Fld := ⟨.NRG_REFUSE_LAST, 0, 4, .ro, 0x0, false⟩
def Fld.NRG_REFUSE_LAST_COST_UJ : Fld := ⟨.NRG_REFUSE_LAST, 8, 24, .ro, 0x0, false⟩
def Fld.NRG_HU_TIME_DURATION_US : Fld := ⟨.NRG_HU_TIME, 0, 16, .ro, 0x0, true⟩
def Fld.NRG_HU_TIME_OFF_MV : Fld := ⟨.NRG_HU_TIME, 16, 16, .ro, 0x0, true⟩
def Fld.NRG_REFUSE_TIME_TIME : Fld := ⟨.NRG_REFUSE_TIME, 0, 64, .ro, 0x0, false⟩
def Fld.NRG_HU_LAST_OUTCOME : Fld := ⟨.NRG_HU_LAST, 0, 3, .ro, 0x0, true⟩
def Fld.NRG_HU_LAST_VIN_RETURNED : Fld := ⟨.NRG_HU_LAST, 3, 1, .ro, 0x0, true⟩
def Fld.NRG_HU_LAST_SELFTEST : Fld := ⟨.NRG_HU_LAST, 4, 1, .ro, 0x0, true⟩
def Fld.NRG_HU_LAST_SAFE_DURING : Fld := ⟨.NRG_HU_LAST, 5, 1, .ro, 0x0, true⟩
def Fld.NRG_HU_LAST_RETAINED : Fld := ⟨.NRG_HU_LAST, 6, 1, .ro, 0x0, true⟩
def Fld.NRG_HU_LAST_FROM_BOOT : Fld := ⟨.NRG_HU_LAST, 7, 1, .ro, 0x0, true⟩
def Fld.NRG_HU_LAST_PAGES0 : Fld := ⟨.NRG_HU_LAST, 8, 8, .ro, 0x0, true⟩
def Fld.NRG_HU_LAST_PAGES1 : Fld := ⟨.NRG_HU_LAST, 16, 8, .ro, 0x0, true⟩
def Fld.NRG_HU_ENERGY_UJ : Fld := ⟨.NRG_HU_ENERGY, 0, 32, .ro, 0x0, true⟩
def Fld.NRG_CNT_UJ : Fld := ⟨.NRG_CNT, 0, 64, .ro, 0x0, false⟩
def Fld.NRG_COST_COST_UJ : Fld := ⟨.NRG_COST, 0, 24, .ro, 0x0, false⟩
def Fld.NRG_REFUSE_COUNT : Fld := ⟨.NRG_REFUSE, 0, 32, .ro, 0x0, false⟩
def Fld.DEV_MODE_MODE : Fld := ⟨.DEV_MODE, 0, 3, .ro, 0x1, false⟩
def Fld.DEV_MODE_PHASE : Fld := ⟨.DEV_MODE, 4, 3, .ro, 0x0, false⟩
def Fld.DEV_MODE_WAKE_PENDING : Fld := ⟨.DEV_MODE, 7, 1, .ro, 0x0, false⟩
def Fld.DEV_MODE_TIME_TIME : Fld := ⟨.DEV_MODE_TIME, 0, 64, .ro, 0x0, false⟩
def Fld.DEV_MODE_CNT_DOZES : Fld := ⟨.DEV_MODE_CNT, 0, 16, .ro, 0x0, false⟩
def Fld.DEV_MODE_CNT_ROUND_TRIPS : Fld := ⟨.DEV_MODE_CNT, 16, 16, .ro, 0x0, false⟩
def Fld.PWR_DOMAINS_REGION_ON : Fld := ⟨.PWR_DOMAINS, 0, 16, .ro, 0xffff, false⟩
def Fld.PWR_DOMAINS_GROUP_ON : Fld := ⟨.PWR_DOMAINS, 16, 16, .ro, 0xffff, false⟩
def Fld.PWR_DOMAINS_PLL_ON : Fld := ⟨.PWR_DOMAINS, 32, 16, .ro, 0x0, false⟩
def Fld.PWR_DOMAINS_QUAD_ON : Fld := ⟨.PWR_DOMAINS, 48, 8, .ro, 0xff, false⟩
def Fld.PWR_VETO_DOZE : Fld := ⟨.PWR_VETO, 0, 1, .rw, 0x0, false⟩
def Fld.PWR_VETO_SHUTDOWN : Fld := ⟨.PWR_VETO, 1, 1, .rw, 0x0, false⟩
def Fld.PWR_WAKE_EN_LINK : Fld := ⟨.PWR_WAKE_EN, 0, 4, .rw, 0xf, false⟩
def Fld.PWR_WAKE_EN_FIO : Fld := ⟨.PWR_WAKE_EN, 4, 4, .rw, 0x0, false⟩
def Fld.PWR_WAKE_EN_ALARM : Fld := ⟨.PWR_WAKE_EN, 8, 1, .rw, 0x1, false⟩
def Fld.PWR_WAKE_LAST_SOURCE : Fld := ⟨.PWR_WAKE_LAST, 0, 3, .ro, 0x0, false⟩
def Fld.PWR_WAKE_LAST_INDEX : Fld := ⟨.PWR_WAKE_LAST, 3, 13, .ro, 0x0, false⟩
def Fld.PWR_WAKE_LAST_MERGED : Fld := ⟨.PWR_WAKE_LAST, 16, 16, .ro, 0x0, false⟩
def Fld.PWR_WAKE_TIME_TIME : Fld := ⟨.PWR_WAKE_TIME, 0, 64, .ro, 0x0, false⟩
def Fld.PWR_REFUSE_LAST_REFUSER : Fld := ⟨.PWR_REFUSE_LAST, 0, 8, .ro, 0x0, false⟩
def Fld.PWR_REFUSE_LAST_REASON : Fld := ⟨.PWR_REFUSE_LAST, 8, 3, .ro, 0x0, false⟩
def Fld.PWR_REFUSE_LAST_ABORT : Fld := ⟨.PWR_REFUSE_LAST, 11, 1, .ro, 0x0, false⟩
def Fld.PWR_REFUSE_LAST_REQUEST : Fld := ⟨.PWR_REFUSE_LAST, 12, 4, .ro, 0x0, false⟩
def Fld.PWR_REFUSE_LAST_INDEX : Fld := ⟨.PWR_REFUSE_LAST, 16, 4, .ro, 0x0, false⟩
def Fld.PWR_REFUSE_TIME_TIME : Fld := ⟨.PWR_REFUSE_TIME, 0, 64, .ro, 0x0, false⟩
def Fld.PWR_ABORT_CNT_COUNT : Fld := ⟨.PWR_ABORT_CNT, 0, 32, .ro, 0x0, false⟩
def Fld.PWR_REFUSE_RSN_COUNT : Fld := ⟨.PWR_REFUSE_RSN, 0, 32, .ro, 0x0, false⟩
def Fld.PWR_REFUSE_OWN_COUNT : Fld := ⟨.PWR_REFUSE_OWN, 0, 32, .ro, 0x0, false⟩
def Fld.PLL_REF_REFSEL : Fld := ⟨.PLL_REF, 0, 4, .rw, 0x0, false⟩
def Fld.PLL_REF_FREQ_KHZ : Fld := ⟨.PLL_REF, 4, 19, .rw, 0x186a0, false⟩
def Fld.PLL_CFG_M : Fld := ⟨.PLL_CFG, 0, 6, .rw, 0x1, false⟩
def Fld.PLL_CFG_N : Fld := ⟨.PLL_CFG, 8, 10, .rw, 0x28, false⟩
def Fld.PLL_CFG_APPLY : Fld := ⟨.PLL_CFG, 31, 1, .wo, 0x0, false⟩
def Fld.PLL_OUT_DIV : Fld := ⟨.PLL_OUT, 0, 10, .rw, 0x10, false⟩
def Fld.PLL_OUT_EN : Fld := ⟨.PLL_OUT, 16, 1, .rw, 0x0, false⟩
def Fld.PLL_STAT_POWERED : Fld := ⟨.PLL_STAT, 0, 1, .ro, 0x0, false⟩
def Fld.PLL_STAT_LOCKED : Fld := ⟨.PLL_STAT, 1, 1, .ro, 0x0, false⟩
def Fld.PLL_STAT_QUALIFIED : Fld := ⟨.PLL_STAT, 2, 1, .ro, 0x0, false⟩
def Fld.PLL_STAT_GATED : Fld := ⟨.PLL_STAT, 3, 1, .ro, 0x1, false⟩
def Fld.PLL_STAT_STAGED : Fld := ⟨.PLL_STAT, 4, 1, .ro, 0x0, false⟩
def Fld.PLL_STAT_BAND : Fld := ⟨.PLL_STAT, 5, 5, .ro, 0x0, false⟩
def Fld.PLL_STAT_STATE : Fld := ⟨.PLL_STAT, 10, 3, .ro, 0x0, false⟩
def Fld.PLL_STAT_LAST_ERR : Fld := ⟨.PLL_STAT, 13, 3, .ro, 0x0, false⟩
def Fld.PLL_MEAS_REF_KHZ : Fld := ⟨.PLL_MEAS, 0, 19, .ro, 0x0, false⟩
def Fld.PLL_MEAS_PRESENT : Fld := ⟨.PLL_MEAS, 19, 1, .ro, 0x0, false⟩
def Fld.PLL_VCO_VCO_KHZ : Fld := ⟨.PLL_VCO, 0, 23, .ro, 0x0, false⟩
def Fld.PLL_EVT_LOL : Fld := ⟨.PLL_EVT, 0, 16, .ro, 0x0, false⟩
def Fld.PLL_EVT_LOR : Fld := ⟨.PLL_EVT, 16, 16, .ro, 0x0, false⟩
def Fld.PLL_EVT_TIME_TIME : Fld := ⟨.PLL_EVT_TIME, 0, 64, .ro, 0x0, false⟩
def Fld.PLL_BAND_FMIN_MHZ : Fld := ⟨.PLL_BAND, 0, 13, .rw, 0x0, false⟩
def Fld.PLL_BAND_FMAX_MHZ : Fld := ⟨.PLL_BAND, 13, 13, .rw, 0x0, false⟩
def Fld.PLL_BAND_CODE : Fld := ⟨.PLL_BAND, 26, 6, .rw, 0x0, false⟩
def Fld.TMB_NOW_NOW : Fld := ⟨.TMB_NOW, 0, 64, .ro, 0x0, false⟩
def Fld.TMB_EPOCH_EPOCH : Fld := ⟨.TMB_EPOCH, 0, 32, .ro, 0x0, false⟩
def Fld.TMB_UNCERT_UNCERT_NS : Fld := ⟨.TMB_UNCERT, 0, 32, .ro, 0x0, false⟩
def Fld.TMB_CTL_CLR_UNCERT : Fld := ⟨.TMB_CTL, 0, 1, .wo, 0x0, false⟩
def Fld.TMB_STAT_SOURCE : Fld := ⟨.TMB_STAT, 0, 1, .ro, 0x1, false⟩
def Fld.TMB_STAT_ACCURACY : Fld := ⟨.TMB_STAT, 1, 2, .ro, 0x0, false⟩
def Fld.TMB_STAT_DISC_EP : Fld := ⟨.TMB_STAT, 3, 3, .ro, 0x0, false⟩
def Fld.TMB_STAT_EPOCH_UNSURE : Fld := ⟨.TMB_STAT, 6, 1, .ro, 0x0, false⟩
def Fld.TMB_STAT_EPOCH_SAT : Fld := ⟨.TMB_STAT, 7, 1, .ro, 0x0, false⟩
def Fld.TMB_CORR_PPB : Fld := ⟨.TMB_CORR, 0, 32, .ro, 0x0, false⟩
def Fld.TMB_UMBER_PER_PERIOD_PS : Fld := ⟨.TMB_UMBER_PER, 0, 21, .ro, 0xf4240, false⟩
def Fld.TMB_DOZE_LAST_DURATION_NS : Fld := ⟨.TMB_DOZE_LAST, 0, 64, .ro, 0x0, false⟩
def Fld.TMB_DOZE_UNC_UNC_NS : Fld := ⟨.TMB_DOZE_UNC, 0, 32, .ro, 0x0, false⟩
def Fld.TMB_ALARM_TIME_TIME : Fld := ⟨.TMB_ALARM_TIME, 0, 64, .rw, 0x0, false⟩
def Fld.TMB_ALARM_PER_PERIOD_NS : Fld := ⟨.TMB_ALARM_PER, 0, 32, .rw, 0x0, false⟩
def Fld.TMB_ALARM_CTL_ARM : Fld := ⟨.TMB_ALARM_CTL, 0, 1, .rw, 0x0, false⟩
def Fld.TMB_ALARM_CTL_PENDING : Fld := ⟨.TMB_ALARM_CTL, 1, 1, .w1c, 0x0, false⟩
def Fld.TMB_ALARM_CTL_VECTOR : Fld := ⟨.TMB_ALARM_CTL, 16, 11, .rw, 0x0, false⟩
def Fld.TMB_ALARM_CTL_MISSED : Fld := ⟨.TMB_ALARM_CTL, 27, 5, .ro, 0x0, false⟩
def Fld.XCV_LCPLL_REFSEL : Fld := ⟨.XCV_LCPLL, 0, 4, .rw, 0x0, false⟩
def Fld.XCV_LCPLL_M : Fld := ⟨.XCV_LCPLL, 4, 3, .rw, 0x1, false⟩
def Fld.XCV_LCPLL_N : Fld := ⟨.XCV_LCPLL, 8, 9, .rw, 0x50, false⟩
def Fld.XCV_LCPLL_EN : Fld := ⟨.XCV_LCPLL, 24, 1, .rw, 0x0, false⟩
def Fld.XCV_QUAD_STAT_LOCK_A : Fld := ⟨.XCV_QUAD_STAT, 0, 1, .ro, 0x0, false⟩
def Fld.XCV_QUAD_STAT_LOCK_B : Fld := ⟨.XCV_QUAD_STAT, 1, 1, .ro, 0x0, false⟩
def Fld.XCV_QUAD_STAT_PCIE : Fld := ⟨.XCV_QUAD_STAT, 2, 1, .ro, 0x0, false⟩
def Fld.XCV_QUAD_STAT_POWERED : Fld := ⟨.XCV_QUAD_STAT, 3, 1, .ro, 0x1, false⟩
def Fld.XCV_QUAD_STAT_LOL_CNT : Fld := ⟨.XCV_QUAD_STAT, 16, 16, .ro, 0x0, false⟩
def Fld.XCV_RCLK_SEL0 : Fld := ⟨.XCV_RCLK, 0, 2, .rw, 0x0, false⟩
def Fld.XCV_RCLK_DIV0 : Fld := ⟨.XCV_RCLK, 2, 2, .rw, 0x0, false⟩
def Fld.XCV_RCLK_EN0 : Fld := ⟨.XCV_RCLK, 4, 1, .rw, 0x0, false⟩
def Fld.XCV_RCLK_SEL1 : Fld := ⟨.XCV_RCLK, 8, 2, .rw, 0x0, false⟩
def Fld.XCV_RCLK_DIV1 : Fld := ⟨.XCV_RCLK, 10, 2, .rw, 0x0, false⟩
def Fld.XCV_RCLK_EN1 : Fld := ⟨.XCV_RCLK, 12, 1, .rw, 0x0, false⟩
def Fld.XCV_RCLK_RUN0 : Fld := ⟨.XCV_RCLK, 16, 1, .ro, 0x0, false⟩
def Fld.XCV_RCLK_RUN1 : Fld := ⟨.XCV_RCLK, 17, 1, .ro, 0x0, false⟩
def Fld.XCV_LANE_CFG_EN : Fld := ⟨.XCV_LANE_CFG, 0, 1, .rw, 0x0, false⟩
def Fld.XCV_LANE_CFG_PLL : Fld := ⟨.XCV_LANE_CFG, 1, 1, .rw, 0x0, false⟩
def Fld.XCV_LANE_CFG_RATE_DIV : Fld := ⟨.XCV_LANE_CFG, 2, 3, .rw, 0x0, false⟩
def Fld.XCV_LANE_CFG_MODE : Fld := ⟨.XCV_LANE_CFG, 5, 4, .rw, 0x0, false⟩
def Fld.XCV_LANE_CFG_WIDTH : Fld := ⟨.XCV_LANE_CFG, 9, 2, .rw, 0x0, false⟩
def Fld.XCV_LANE_CFG_FEC : Fld := ⟨.XCV_LANE_CFG, 11, 1, .rw, 0x0, false⟩
def Fld.XCV_LANE_CFG_POL_TX : Fld := ⟨.XCV_LANE_CFG, 12, 1, .rw, 0x0, false⟩
def Fld.XCV_LANE_CFG_POL_RX : Fld := ⟨.XCV_LANE_CFG, 13, 1, .rw, 0x0, false⟩
def Fld.XCV_LANE_CFG_LOOP : Fld := ⟨.XCV_LANE_CFG, 14, 2, .rw, 0x0, false⟩
def Fld.XCV_LANE_CFG_TRACK : Fld := ⟨.XCV_LANE_CFG, 16, 4, .rw, 0x0, false⟩
def Fld.XCV_LANE_STAT_HELD_PCIE : Fld := ⟨.XCV_LANE_STAT, 0, 1, .ro, 0x0, false⟩
def Fld.XCV_LANE_STAT_ACTIVE : Fld := ⟨.XCV_LANE_STAT, 1, 1, .ro, 0x0, false⟩
def Fld.XCV_LANE_STAT_CDR_LOCK : Fld := ⟨.XCV_LANE_STAT, 2, 1, .ro, 0x0, false⟩
def Fld.XCV_LANE_STAT_ALIGNED : Fld := ⟨.XCV_LANE_STAT, 3, 1, .ro, 0x0, false⟩
def Fld.XCV_LANE_STAT_ADAPT : Fld := ⟨.XCV_LANE_STAT, 4, 2, .ro, 0x0, false⟩
def Fld.XCV_LANE_STAT_TX_IDLE : Fld := ⟨.XCV_LANE_STAT, 6, 1, .ro, 0x1, false⟩
def Fld.XCV_LANE_STAT_LINE_MBPS : Fld := ⟨.XCV_LANE_STAT, 16, 16, .ro, 0x0, false⟩
def Fld.XCV_LANE_ERR_CODE_ERR : Fld := ⟨.XCV_LANE_ERR, 0, 16, .ro, 0x0, false⟩
def Fld.XCV_LANE_ERR_LOCK_LOSS : Fld := ⟨.XCV_LANE_ERR, 16, 8, .ro, 0x0, false⟩
def Fld.XCV_LANE_ERR_TX_UNDERRUN : Fld := ⟨.XCV_LANE_ERR, 24, 4, .ro, 0x0, false⟩
def Fld.XCV_LANE_ERR_RX_OVERFLOW : Fld := ⟨.XCV_LANE_ERR, 28, 4, .ro, 0x0, false⟩
def Fld.XCV_LANE_FEC_CORR : Fld := ⟨.XCV_LANE_FEC, 0, 16, .ro, 0x0, false⟩
def Fld.XCV_LANE_FEC_UNCORR : Fld := ⟨.XCV_LANE_FEC, 16, 16, .ro, 0x0, false⟩
def Fld.XCV_EYE_CTL_PHASE : Fld := ⟨.XCV_EYE_CTL, 0, 6, .rw, 0x0, false⟩
def Fld.XCV_EYE_CTL_VOFF : Fld := ⟨.XCV_EYE_CTL, 6, 7, .rw, 0x0, false⟩
def Fld.XCV_EYE_CTL_LOG2_BITS : Fld := ⟨.XCV_EYE_CTL, 16, 6, .rw, 0x10, false⟩
def Fld.XCV_EYE_CTL_START : Fld := ⟨.XCV_EYE_CTL, 31, 1, .wo, 0x0, false⟩
def Fld.XCV_EYE_RES_ERRORS : Fld := ⟨.XCV_EYE_RES, 0, 24, .ro, 0x0, false⟩
def Fld.XCV_EYE_RES_DONE : Fld := ⟨.XCV_EYE_RES, 24, 1, .ro, 0x0, false⟩
def Fld.XCV_EYE_RES_BUSY : Fld := ⟨.XCV_EYE_RES, 25, 1, .ro, 0x0, false⟩
def Fld.XCV_EYE_RES_ABORTED : Fld := ⟨.XCV_EYE_RES, 26, 1, .ro, 0x0, false⟩
def Fld.CAL_STAT_RUN : Fld := ⟨.CAL_STAT, 0, 6, .ro, 0x0, false⟩
def Fld.CAL_STAT_OOB : Fld := ⟨.CAL_STAT, 8, 6, .ro, 0x0, false⟩
def Fld.CAL_REF_ELIGIBLE : Fld := ⟨.CAL_REF, 0, 4, .ro, 0x0, false⟩
def Fld.CAL_REF_SPREAD : Fld := ⟨.CAL_REF, 4, 4, .ro, 0x0, false⟩
def Fld.CAL_REF_HOLDING : Fld := ⟨.CAL_REF, 8, 1, .ro, 0x0, false⟩
def Fld.CAL_REF_DISCARDS : Fld := ⟨.CAL_REF, 16, 16, .ro, 0x0, false⟩
def Fld.CAL_REF_TIME_TIME : Fld := ⟨.CAL_REF_TIME, 0, 64, .ro, 0x0, false⟩
def Fld.CAL_SPN_LAST_LINK : Fld := ⟨.CAL_SPN, 0, 7, .ro, 0x0, false⟩
def Fld.CAL_SPN_LAST_PCT : Fld := ⟨.CAL_SPN, 7, 7, .ro, 0x0, false⟩
def Fld.CAL_SPN_MIN_PCT : Fld := ⟨.CAL_SPN, 14, 7, .ro, 0x7f, false⟩
def Fld.CAL_SPN_MIN_LINK : Fld := ⟨.CAL_SPN, 21, 7, .ro, 0x0, false⟩
def Fld.CAL_SPN_TIME_TIME : Fld := ⟨.CAL_SPN_TIME, 0, 64, .ro, 0x0, false⟩
def Fld.CAL_NRG_VIN_MV : Fld := ⟨.CAL_NRG, 0, 8, .ro, 0x0, false⟩
def Fld.CAL_NRG_INT_MV : Fld := ⟨.CAL_NRG, 8, 8, .ro, 0x0, false⟩
def Fld.CAL_NRG_EXT_MV : Fld := ⟨.CAL_NRG, 16, 8, .ro, 0x0, false⟩
def Fld.CAL_NRG_I_GAIN : Fld := ⟨.CAL_NRG, 24, 8, .ro, 0x0, false⟩
def Fld.CAL_NRG_TIME_TIME : Fld := ⟨.CAL_NRG_TIME, 0, 64, .ro, 0x0, false⟩
def Fld.CAL_SLT_REF_STD : Fld := ⟨.CAL_SLT, 0, 6, .ro, 0x0, false⟩
def Fld.CAL_SLT_REF_IMG : Fld := ⟨.CAL_SLT, 6, 6, .ro, 0x0, false⟩
def Fld.CAL_SLT_STEPS : Fld := ⟨.CAL_SLT, 16, 16, .ro, 0x0, false⟩
def Fld.CAL_SLT_TIME_TIME : Fld := ⟨.CAL_SLT_TIME, 0, 64, .ro, 0x0, false⟩
def Fld.CAL_TEMP_TEMP : Fld := ⟨.CAL_TEMP, 0, 12, .ro, 0x0, false⟩
def Fld.CAL_TEMP_CORR : Fld := ⟨.CAL_TEMP, 12, 8, .ro, 0x0, false⟩
def Fld.CAL_TEMP_DIFF : Fld := ⟨.CAL_TEMP, 20, 8, .ro, 0x0, false⟩
def Fld.CAL_TEMP_VALID : Fld := ⟨.CAL_TEMP, 28, 1, .ro, 0x0, false⟩
def Fld.CAL_TEMP_TIME_TIME : Fld := ⟨.CAL_TEMP_TIME, 0, 64, .ro, 0x0, false⟩
def Fld.CAL_OOB_LOOP : Fld := ⟨.CAL_OOB, 0, 3, .ro, 0x0, false⟩
def Fld.CAL_OOB_CAUSE : Fld := ⟨.CAL_OOB, 3, 4, .ro, 0x0, false⟩
def Fld.CAL_OOB_DETAIL : Fld := ⟨.CAL_OOB, 7, 7, .ro, 0x0, false⟩
def Fld.CAL_OOB_VALID : Fld := ⟨.CAL_OOB, 14, 1, .ro, 0x0, false⟩
def Fld.CAL_OOB_INJECTED : Fld := ⟨.CAL_OOB, 15, 1, .ro, 0x0, false⟩
def Fld.CAL_OOB_TIME_TIME : Fld := ⟨.CAL_OOB_TIME, 0, 64, .ro, 0x0, false⟩
def Fld.CAL_INJECT_LOOP : Fld := ⟨.CAL_INJECT, 0, 3, .rw, 0x0, false⟩
def Fld.CAL_INJECT_ARM : Fld := ⟨.CAL_INJECT, 31, 1, .wo, 0x0, false⟩
def Fld.SAF_STAT_SAFE : Fld := ⟨.SAF_STAT, 0, 1, .ro, 0x0, false⟩
def Fld.SAF_STAT_CFG_SET : Fld := ⟨.SAF_STAT, 1, 1, .ro, 0x0, false⟩
def Fld.SAF_STAT_PLL_SET : Fld := ⟨.SAF_STAT, 2, 1, .ro, 0x0, false⟩
def Fld.SAF_STAT_IO_SET : Fld := ⟨.SAF_STAT, 3, 1, .ro, 0x0, false⟩
def Fld.SAF_STAT_FAULT : Fld := ⟨.SAF_STAT, 4, 1, .ro, 0x0, false⟩
def Fld.SAF_CFG_CRIT_REGIONS : Fld := ⟨.SAF_CFG_CRIT, 0, 16, .rwo, 0x0, false⟩
def Fld.SAF_PLL_CRIT_PLLS : Fld := ⟨.SAF_PLL_CRIT, 0, 16, .rwo, 0x0, false⟩
def Fld.SAF_IO_CRIT_REGIONS : Fld := ⟨.SAF_IO_CRIT, 0, 16, .rwo, 0x0, false⟩
def Fld.SAF_REQ_REQ : Fld := ⟨.SAF_REQ, 0, 1, .wo, 0x0, false⟩
def Fld.SAF_LAST_DIAG : Fld := ⟨.SAF_LAST, 0, 4, .ro, 0x0, true⟩
def Fld.SAF_LAST_VALID : Fld := ⟨.SAF_LAST, 4, 1, .ro, 0x0, true⟩
def Fld.SAF_LAST_INJECTED : Fld := ⟨.SAF_LAST, 5, 1, .ro, 0x0, true⟩
def Fld.SAF_LAST_IN_HOLDUP : Fld := ⟨.SAF_LAST, 6, 1, .ro, 0x0, true⟩
def Fld.SAF_LAST_PREV : Fld := ⟨.SAF_LAST, 7, 1, .ro, 0x0, false⟩
def Fld.SAF_LAST_DETAIL : Fld := ⟨.SAF_LAST, 8, 16, .ro, 0x0, true⟩
def Fld.SAF_LAST_TIME_TIME : Fld := ⟨.SAF_LAST_TIME, 0, 64, .ro, 0x0, true⟩
def Fld.SAF_LAST_EPOCH_EPOCH : Fld := ⟨.SAF_LAST_EPOCH, 0, 32, .ro, 0x0, true⟩
def Fld.SAF_CNT_DANGEROUS : Fld := ⟨.SAF_CNT, 0, 16, .ro, 0x0, false⟩
def Fld.SAF_INJECT_DIAG : Fld := ⟨.SAF_INJECT, 0, 4, .rw, 0x0, false⟩
def Fld.SAF_INJECT_INDEX : Fld := ⟨.SAF_INJECT, 4, 9, .rw, 0x0, false⟩
def Fld.SAF_INJECT_ARM : Fld := ⟨.SAF_INJECT, 31, 1, .wo, 0x0, false⟩
def Fld.SAF_LOG_HEAD_NEXT : Fld := ⟨.SAF_LOG_HEAD, 0, 64, .ro, 0x0, false⟩
def Fld.SAF_LOG_OVF_OVERWRITTEN : Fld := ⟨.SAF_LOG_OVF, 0, 32, .ro, 0x0, false⟩
def Fld.SAF_LOG_LOSS_LOST : Fld := ⟨.SAF_LOG_LOSS, 0, 16, .ro, 0x0, false⟩
def Fld.SAF_LOG_LOSS_DROPPED : Fld := ⟨.SAF_LOG_LOSS, 16, 16, .ro, 0x0, false⟩
def Fld.SAF_DIAG_CNT_COUNT : Fld := ⟨.SAF_DIAG_CNT, 0, 32, .ro, 0x0, false⟩
def Fld.BST_STAT_RUNNING : Fld := ⟨.BST_STAT, 0, 1, .ro, 0x0, false⟩
def Fld.BST_STAT_SKIPPED : Fld := ⟨.BST_STAT, 8, 1, .ro, 0x0, false⟩
def Fld.BST_STAT_FAIL : Fld := ⟨.BST_STAT, 9, 1, .w1c, 0x0, false⟩
def Fld.BST_REC_HDR_PROGRAM : Fld := ⟨.BST_REC_HDR, 0, 8, .ro, 0x0, true⟩
def Fld.BST_REC_HDR_OUTCOME : Fld := ⟨.BST_REC_HDR, 8, 2, .ro, 0x0, true⟩
def Fld.BST_REC_HDR_HOLDUP : Fld := ⟨.BST_REC_HDR, 10, 1, .ro, 0x0, true⟩
def Fld.BST_REC_HDR_CONSUMED : Fld := ⟨.BST_REC_HDR, 11, 1, .ro, 0x0, true⟩
def Fld.BST_REC_HDR_VALID : Fld := ⟨.BST_REC_HDR, 12, 1, .ro, 0x0, false⟩
def Fld.BST_REC_HDR_FAILS : Fld := ⟨.BST_REC_HDR, 16, 5, .ro, 0x0, true⟩
def Fld.BST_REC_HDR_TARGET_FAIL : Fld := ⟨.BST_REC_HDR, 24, 6, .ro, 0x0, true⟩
def Fld.BST_REC_STEPS_STEPS : Fld := ⟨.BST_REC_STEPS, 0, 16, .ro, 0x0, true⟩
def Fld.BST_REC_STEPS_LENGTH : Fld := ⟨.BST_REC_STEPS, 16, 16, .ro, 0x0, true⟩
def Fld.BST_REC_SIG_SIG : Fld := ⟨.BST_REC_SIG, 0, 32, .ro, 0x0, true⟩
def Fld.BST_REC_SIG_EXP_SIG_EXP : Fld := ⟨.BST_REC_SIG_EXP, 0, 32, .ro, 0x0, true⟩
def Fld.BST_REC_EPOCH_EPOCH : Fld := ⟨.BST_REC_EPOCH, 0, 32, .ro, 0x0, true⟩
def Fld.BST_REC_TIME_TIME : Fld := ⟨.BST_REC_TIME, 0, 64, .ro, 0x0, true⟩
def Fld.BST_REC_FAIL_TARGET : Fld := ⟨.BST_REC_FAIL, 0, 4, .ro, 0x0, true⟩
def Fld.BST_REC_FAIL_ADDR : Fld := ⟨.BST_REC_FAIL, 4, 24, .ro, 0x0, true⟩
def Fld.BST_REC_FAIL_VALID : Fld := ⟨.BST_REC_FAIL, 28, 1, .ro, 0x0, true⟩
def Fld.BST_REC_CNT_COUNT : Fld := ⟨.BST_REC_CNT, 0, 32, .ro, 0x0, true⟩
def Fld.BST_SLICE_LAST_BANK : Fld := ⟨.BST_SLICE_LAST, 0, 7, .ro, 0x0, false⟩
def Fld.BST_SLICE_LAST_PAGE : Fld := ⟨.BST_SLICE_LAST, 7, 7, .ro, 0x0, false⟩
def Fld.BST_SLICE_LAST_OUTCOME : Fld := ⟨.BST_SLICE_LAST, 14, 2, .ro, 0x0, false⟩
def Fld.BST_SLICE_LAST_MISMATCH : Fld := ⟨.BST_SLICE_LAST, 16, 8, .ro, 0x0, false⟩
def Fld.BST_SLICE_LAST_CAUSE : Fld := ⟨.BST_SLICE_LAST, 24, 4, .ro, 0x0, false⟩
def Fld.BST_SLICE_CNT_RUN : Fld := ⟨.BST_SLICE_CNT, 0, 16, .ro, 0x0, false⟩
def Fld.BST_SLICE_CNT_FAILED : Fld := ⟨.BST_SLICE_CNT, 16, 16, .ro, 0x0, false⟩
def Fld.BST_SLICE_FAIL_CELL : Fld := ⟨.BST_SLICE_FAIL, 0, 17, .ro, 0x0, false⟩
def Fld.BST_SLICE_FAIL_BANK : Fld := ⟨.BST_SLICE_FAIL, 17, 7, .ro, 0x0, false⟩
def Fld.BST_SLICE_FAIL_VALID : Fld := ⟨.BST_SLICE_FAIL, 24, 1, .ro, 0x0, false⟩
def Fld.BST_SLICE_TIME_TIME : Fld := ⟨.BST_SLICE_TIME, 0, 64, .ro, 0x0, false⟩
def Fld.DEV_LC_STATE : Fld := ⟨.DEV_LC, 0, 4, .ro, 0x0, false⟩
def Fld.DEV_LC_RET_DONE : Fld := ⟨.DEV_LC, 4, 1, .ro, 0x0, false⟩
def Fld.DEV_LC_KEY_PRESENT : Fld := ⟨.DEV_LC, 5, 1, .ro, 0x0, false⟩
def Fld.DEV_LC_KEY_DESTROYED : Fld := ⟨.DEV_LC, 6, 1, .ro, 0x0, false⟩
def Fld.DEV_LC_WIPING : Fld := ⟨.DEV_LC, 7, 1, .ro, 0x0, false⟩
def Fld.DEV_KEY_SLOT_PROGRAMMED : Fld := ⟨.DEV_KEY_SLOT, 0, 4, .ro, 0x0, false⟩
def Fld.DEV_KEY_SLOT_REVOKED : Fld := ⟨.DEV_KEY_SLOT, 4, 4, .ro, 0x0, false⟩
def Fld.DEV_KEY_SLOT_PARTIAL : Fld := ⟨.DEV_KEY_SLOT, 8, 4, .ro, 0x0, false⟩
def Fld.DEV_KEY_SLOT_KEY_PARTIAL : Fld := ⟨.DEV_KEY_SLOT, 12, 1, .ro, 0x0, false⟩
def Fld.DEV_UID_UID : Fld := ⟨.DEV_UID, 0, 64, .ro, 0x0, false⟩
def Fld.DEV_LC_LAST_ACTION : Fld := ⟨.DEV_LC_LAST, 0, 8, .ro, 0x0, false⟩
def Fld.DEV_LC_LAST_KEY_SLOT : Fld := ⟨.DEV_LC_LAST, 8, 8, .ro, 0x0, false⟩
def Fld.DEV_LC_LAST_STATUS : Fld := ⟨.DEV_LC_LAST, 16, 16, .ro, 0x0, false⟩
def Fld.DEV_LC_CNT_ACCEPTED : Fld := ⟨.DEV_LC_CNT, 0, 16, .ro, 0x0, false⟩
def Fld.DEV_LC_CNT_REFUSED : Fld := ⟨.DEV_LC_CNT, 16, 16, .ro, 0x0, false⟩
def Fld.DEV_JTAG_IR : Fld := ⟨.DEV_JTAG, 0, 8, .ro, 0x2, false⟩
def Fld.DEV_JTAG_ACCESS : Fld := ⟨.DEV_JTAG, 8, 1, .ro, 0x0, false⟩
def Fld.DEV_JTAG_PINS : Fld := ⟨.DEV_JTAG, 9, 1, .ro, 0x0, false⟩
def Fld.DEV_JTAG_REFUSED : Fld := ⟨.DEV_JTAG, 16, 16, .ro, 0x0, false⟩
def Fld.DEV_KEY_HASH_HASH : Fld := ⟨.DEV_KEY_HASH, 0, 32, .ro, 0x0, false⟩
def Fld.GIO_BANK_STAT_VCCIO : Fld := ⟨.GIO_BANK_STAT, 0, 3, .ro, 0x0, false⟩
def Fld.GIO_BANK_STAT_RAMPING : Fld := ⟨.GIO_BANK_STAT, 3, 1, .ro, 0x0, false⟩
def Fld.GIO_BANK_STAT_HELD : Fld := ⟨.GIO_BANK_STAT, 4, 1, .ro, 0x0, false⟩
def Fld.GIO_BANK_STAT_SAFE_STATE : Fld := ⟨.GIO_BANK_STAT, 5, 1, .ro, 0x0, false⟩
def Fld.GIO_BANK_STAT_CFG_ERR : Fld := ⟨.GIO_BANK_STAT, 6, 1, .ro, 0x0, false⟩
def Fld.GIO_SHORT_DISABLED : Fld := ⟨.GIO_SHORT, 0, 32, .ro, 0x0, false⟩
def Fld.GIO_SHORT_CNT_SHORTS : Fld := ⟨.GIO_SHORT_CNT, 0, 16, .ro, 0x0, false⟩
def Fld.GIO_PAD_PAD : Fld := ⟨.GIO_PAD, 0, 32, .ro, 0x0, false⟩
def Fld.GIO_REARM_REARM : Fld := ⟨.GIO_REARM, 0, 32, .wo, 0x0, false⟩
def Fld.GIO_SHORT_LAST_BANK : Fld := ⟨.GIO_SHORT_LAST, 0, 4, .ro, 0x0, false⟩
def Fld.GIO_SHORT_LAST_PIN : Fld := ⟨.GIO_SHORT_LAST, 4, 5, .ro, 0x0, false⟩
def Fld.GIO_SHORT_LAST_VALID : Fld := ⟨.GIO_SHORT_LAST, 9, 1, .ro, 0x0, false⟩
def Fld.GIO_SHORT_LAST_INJECTED : Fld := ⟨.GIO_SHORT_LAST, 10, 1, .ro, 0x0, false⟩
def Fld.GIO_SHORT_TIME_TIME : Fld := ⟨.GIO_SHORT_TIME, 0, 64, .ro, 0x0, false⟩
def Fld.FIO_GRP_STAT_VFIELD_OK : Fld := ⟨.FIO_GRP_STAT, 0, 1, .ro, 0x0, false⟩
def Fld.FIO_GRP_STAT_UNDERVOLT : Fld := ⟨.FIO_GRP_STAT, 1, 1, .ro, 0x0, false⟩
def Fld.FIO_GRP_STAT_REVERSED : Fld := ⟨.FIO_GRP_STAT, 2, 1, .ro, 0x0, false⟩
def Fld.FIO_GRP_STAT_OVERLOAD : Fld := ⟨.FIO_GRP_STAT, 3, 1, .ro, 0x0, false⟩
def Fld.FIO_GRP_STAT_VFIELD_MV : Fld := ⟨.FIO_GRP_STAT, 16, 16, .ro, 0x0, false⟩
def Fld.FIO_IN_IN : Fld := ⟨.FIO_IN, 0, 16, .ro, 0x0, false⟩
def Fld.FIO_OUT_STAT_ON : Fld := ⟨.FIO_OUT_STAT, 0, 16, .ro, 0x0, false⟩
def Fld.FIO_OUT_STAT_SHORT : Fld := ⟨.FIO_OUT_STAT, 16, 16, .ro, 0x0, false⟩
def Fld.FIO_DIAG_OPEN_LOAD : Fld := ⟨.FIO_DIAG, 0, 16, .ro, 0x0, false⟩
def Fld.FIO_DIAG_WIRE_BREAK : Fld := ⟨.FIO_DIAG, 16, 16, .ro, 0x0, false⟩
def Fld.FIO_REARM_REARM : Fld := ⟨.FIO_REARM, 0, 16, .wo, 0x0, false⟩
def Fld.FIO_WAKE_RISE : Fld := ⟨.FIO_WAKE, 0, 16, .rw, 0x0, false⟩
def Fld.FIO_WAKE_FALL : Fld := ⟨.FIO_WAKE, 16, 16, .rw, 0x0, false⟩
def Fld.FIO_CNT_SHORTS : Fld := ⟨.FIO_CNT, 0, 8, .ro, 0x0, false⟩
def Fld.FIO_CNT_OPEN_LOADS : Fld := ⟨.FIO_CNT, 8, 8, .ro, 0x0, false⟩
def Fld.FIO_CNT_WIRE_BREAKS : Fld := ⟨.FIO_CNT, 16, 8, .ro, 0x0, false⟩
def Fld.FIO_CNT_VFIELD_LOSS : Fld := ⟨.FIO_CNT, 24, 8, .ro, 0x0, false⟩
def Fld.FIO_LAST_GROUP : Fld := ⟨.FIO_LAST, 0, 2, .ro, 0x0, false⟩
def Fld.FIO_LAST_PIN : Fld := ⟨.FIO_LAST, 2, 4, .ro, 0x0, false⟩
def Fld.FIO_LAST_KIND : Fld := ⟨.FIO_LAST, 6, 3, .ro, 0x0, false⟩
def Fld.FIO_LAST_VALID : Fld := ⟨.FIO_LAST, 9, 1, .ro, 0x0, false⟩
def Fld.FIO_LAST_INJECTED : Fld := ⟨.FIO_LAST, 10, 1, .ro, 0x0, false⟩
def Fld.FIO_LAST_TIME_TIME : Fld := ⟨.FIO_LAST_TIME, 0, 64, .ro, 0x0, false⟩

/-- The named fields of each register, lowest bit first. -/
def Reg.fields : Reg → List Fld
  | .DEV_IDCODE => [.DEV_IDCODE_IDCODE]
  | .DEV_STEP => [.DEV_STEP_STEP, .DEV_STEP_SPEED, .DEV_STEP_TGRADE]
  | .DEV_GEOM => [.DEV_GEOM_REGIONS, .DEV_GEOM_SECTORS, .DEV_GEOM_QUADRANTS, .DEV_GEOM_BANK_GROUPS]
  | .DEV_FRAMES => [.DEV_FRAMES_TOTAL, .DEV_FRAMES_PER_REGION]
  | .DEV_REQ_ID => [.DEV_REQ_ID_REQ_ID]
  | .DEV_DECERR_ADDR => [.DEV_DECERR_ADDR_ADDR]
  | .DEV_DECERR_INFO => [.DEV_DECERR_INFO_REQ_ID, .DEV_DECERR_INFO_WRITE, .DEV_DECERR_INFO_CAUSE, .DEV_DECERR_INFO_COUNT]
  | .MBX_REQ_TAIL => [.MBX_REQ_TAIL_TAIL]
  | .MBX_REQ_HEAD => [.MBX_REQ_HEAD_HEAD]
  | .MBX_RSP_TAIL => [.MBX_RSP_TAIL_TAIL]
  | .MBX_RSP_HEAD => [.MBX_RSP_HEAD_HEAD]
  | .MBX_CTL => [.MBX_CTL_IRQ_EN, .MBX_CTL_CLEAR]
  | .MBX_STAT => [.MBX_STAT_ACTIVE, .MBX_STAT_PARTIAL, .MBX_STAT_RSP_WAIT, .MBX_STAT_DISCARDS]
  | .MBX_EP_ERR_ADDR => [.MBX_EP_ERR_ADDR_ADDR]
  | .MBX_EP_ERR_INFO => [.MBX_EP_ERR_INFO_RESP, .MBX_EP_ERR_INFO_WRITE, .MBX_EP_ERR_INFO_COUNT]
  | .MBX_EP_STAT => [.MBX_EP_STAT_ENABLED, .MBX_EP_STAT_LINK_UP, .MBX_EP_STAT_PRESENT, .MBX_EP_STAT_GEN, .MBX_EP_STAT_WIDTH, .MBX_EP_STAT_CFG_WIDTH, .MBX_EP_STAT_CFG_GEN]
  | .MBX_EP_RESETS => [.MBX_EP_RESETS_COUNT, .MBX_EP_RESETS_LAST]
  | .CFG_BOOT_STAT => [.CFG_BOOT_STAT_STATE, .CFG_BOOT_STAT_STYLE, .CFG_BOOT_STAT_FALLBACK, .CFG_BOOT_STAT_SELFTEST, .CFG_BOOT_STAT_NO_DIR, .CFG_BOOT_STAT_ENTRY]
  | .CFG_BOOT_FAIL => [.CFG_BOOT_FAIL_STATUS, .CFG_BOOT_FAIL_ENTRY, .CFG_BOOT_FAIL_STAGE]
  | .CFG_GOLD_FAIL => [.CFG_GOLD_FAIL_STATUS, .CFG_GOLD_FAIL_ENTRY, .CFG_GOLD_FAIL_STAGE]
  | .CFG_BOOT_TIME => [.CFG_BOOT_TIME_TIME]
  | .CFG_LOAD_ACTIVE => [.CFG_LOAD_ACTIVE_LOADING, .CFG_LOAD_ACTIVE_CHECKING]
  | .CFG_FAIL_POS => [.CFG_FAIL_POS_CHUNK, .CFG_FAIL_POS_RECORD]
  | .CFG_REGION_STAT => [.CFG_REGION_STAT_STATE, .CFG_REGION_STAT_ENTRY, .CFG_REGION_STAT_LAST_STATUS]
  | .CFG_REGION_FRAMES => [.CFG_REGION_FRAMES_FRAMES]
  | .CFG_REGION_COUNT => [.CFG_REGION_COUNT_LOADS, .CFG_REGION_COUNT_ABORTS]
  | .CFG_REGION_FAIL => [.CFG_REGION_FAIL_CHUNK, .CFG_REGION_FAIL_RECORD, .CFG_REGION_FAIL_STAGE]
  | .CFG_SCRUB_STAT => [.CFG_SCRUB_STAT_ACTIVE, .CFG_SCRUB_STAT_RUNNING]
  | .CFG_SCRUB_LAST => [.CFG_SCRUB_LAST_FRAME, .CFG_SCRUB_LAST_OUTCOME, .CFG_SCRUB_LAST_INJECTED]
  | .CFG_SCRUB_LAST_TIME => [.CFG_SCRUB_LAST_TIME_TIME]
  | .CFG_SCRUB_INJECT => [.CFG_SCRUB_INJECT_FRAME, .CFG_SCRUB_INJECT_ARM]
  | .CFG_SCRUB_SWEEPS => [.CFG_SCRUB_SWEEPS_SWEEPS]
  | .CFG_SCRUB_CNT => [.CFG_SCRUB_CNT_MISMATCHES, .CFG_SCRUB_CNT_REPAIRS]
  | .CFG_SCRUB_TIME => [.CFG_SCRUB_TIME_LAST_US, .CFG_SCRUB_TIME_MAX_US]
  | .CFG_SCRUB_FAIL => [.CFG_SCRUB_FAIL_FRAME, .CFG_SCRUB_FAIL_CAUSE]
  | .SPN_RATE => [.SPN_RATE_CUR_MTPS, .SPN_RATE_MIN_MTPS]
  | .SPN_RATE_MAX => [.SPN_RATE_MAX_MAX_MTPS, .SPN_RATE_MAX_FLOOR_MTPS]
  | .SPN_BEATS => [.SPN_BEATS_BEATS]
  | .SPN_DARK_CNT => [.SPN_DARK_CNT_COUNT]
  | .SPN_TO_CNT => [.SPN_TO_CNT_EXPIRED, .SPN_TO_CNT_LATE]
  | .SPN_FAIR => [.SPN_FAIR_LINK_WAIT_MAX, .SPN_FAIR_CREDIT_WAIT_MAX, .SPN_FAIR_CLR]
  | .SPN_STALL => [.SPN_STALL_NODE, .SPN_STALL_INPUT, .SPN_STALL_PLANE, .SPN_STALL_PORT, .SPN_STALL_KIND, .SPN_STALL_VALID, .SPN_STALL_INJECTED]
  | .SPN_STALL_TIME => [.SPN_STALL_TIME_TIME]
  | .SPN_STALL_INJECT => [.SPN_STALL_INJECT_NODE, .SPN_STALL_INJECT_INPUT, .SPN_STALL_INJECT_PLANE, .SPN_STALL_INJECT_ARM]
  | .SPN_STALL_CNT => [.SPN_STALL_CNT_COUNT]
  | .SPN_RESP_CNT => [.SPN_RESP_CNT_COUNT]
  | .SPN_RP_CFG => [.SPN_RP_CFG_TIMEOUT_US]
  | .SPN_RP_DISC => [.SPN_RP_DISC_REQ_DISC, .SPN_RP_DISC_RSP_DISC]
  | .SPN_RP_TGT => [.SPN_RP_TGT_TGT_DISC, .SPN_RP_TGT_CONVERTED]
  | .SPN_RP_TO => [.SPN_RP_TO_TGT_TIMEOUT, .SPN_RP_TO_INI_TIMEOUT]
  | .SPN_RP_STAT => [.SPN_RP_STAT_FREE_TAGS, .SPN_RP_STAT_FREE_RSP, .SPN_RP_STAT_INGRESS, .SPN_RP_STAT_FENCED]
  | .BNK_OWNER => [.BNK_OWNER_OWNER, .BNK_OWNER_EXPECT, .BNK_OWNER_NEW, .BNK_OWNER_CLR, .BNK_OWNER_CLEARING, .BNK_OWNER_ABSENT]
  | .ATT_REGION_PARENT => [.ATT_REGION_PARENT_PARENT, .ATT_REGION_PARENT_EXPECT, .ATT_REGION_PARENT_NEW, .ATT_REGION_PARENT_WIPE, .ATT_REGION_PARENT_WIPING, .ATT_REGION_PARENT_ABSENT]
  | .ATT_GROUP_PARENT => [.ATT_GROUP_PARENT_PARENT, .ATT_GROUP_PARENT_EXPECT, .ATT_GROUP_PARENT_NEW, .ATT_GROUP_PARENT_CLR, .ATT_GROUP_PARENT_CLEARING, .ATT_GROUP_PARENT_ABSENT]
  | .ATT_ADMIN => [.ATT_ADMIN_ADMIN, .ATT_ADMIN_ABSENT]
  | .ATT_HO_LAST => [.ATT_HO_LAST_KIND, .ATT_HO_LAST_INDEX, .ATT_HO_LAST_OLD, .ATT_HO_LAST_NEW]
  | .ATT_HO_CNT => [.ATT_HO_CNT_DONE, .ATT_HO_CNT_FAILED]
  | .ATT_HO_TIME => [.ATT_HO_TIME_TIME]
  | .BNK_STAT => [.BNK_STAT_POWERED, .BNK_STAT_RETENTION, .BNK_STAT_PU_CLEAR, .BNK_STAT_PARKED, .BNK_STAT_PARK_PAGE, .BNK_STAT_PARKING, .BNK_STAT_REMAP_FULL, .BNK_STAT_REMAP_USED, .BNK_STAT_FUSE_USED]
  | .BNK_CE => [.BNK_CE_WORD_CE, .BNK_CE_PAGE_CORR]
  | .BNK_UE => [.BNK_UE_LATENT_UE, .BNK_UE_ACCESS_UE]
  | .BNK_POISON => [.BNK_POISON_COUNT]
  | .BNK_LAST_ERR => [.BNK_LAST_ERR_CELL, .BNK_LAST_ERR_KIND, .BNK_LAST_ERR_OWNER, .BNK_LAST_ERR_INJECTED]
  | .BNK_LAST_TIME => [.BNK_LAST_TIME_TIME]
  | .BNK_SCRUB => [.BNK_SCRUB_NEXT_PAGE, .BNK_SCRUB_RUNNING, .BNK_SCRUB_PASSES]
  | .BNK_SUSPECT => [.BNK_SUSPECT_USED, .BNK_SUSPECT_SUSPECT_OVF]
  | .BNK_INJECT => [.BNK_INJECT_WORD, .BNK_INJECT_BIT_A, .BNK_INJECT_BIT_B, .BNK_INJECT_DOUBLE, .BNK_INJECT_ARM]
  | .BNK_CE_SPARE => [.BNK_CE_SPARE_COUNT]
  | .BNK_CLR_STAT => [.BNK_CLR_STAT_PENDING, .BNK_CLR_STAT_CURRENT, .BNK_CLR_STAT_ACTIVE, .BNK_CLR_STAT_CLEARS]
  | .BNK_PARK => [.BNK_PARK_BANK_A, .BNK_PARK_VALID_A, .BNK_PARK_BANK_B, .BNK_PARK_VALID_B, .BNK_PARK_IN_USE]
  | .BNK_REMAP_ENT => [.BNK_REMAP_ENT_CELL, .BNK_REMAP_ENT_VALID]
  | .DMA_TIMEOUT => [.DMA_TIMEOUT_TIMEOUT_US]
  | .DMA_STAT => [.DMA_STAT_ENABLED, .DMA_STAT_HALTED]
  | .DMA_BYTES => [.DMA_BYTES_BYTES]
  | .DMA_PORT_STAT => [.DMA_PORT_STAT_FREE_TAGS]
  | .DMA_GROUP_CFG => [.DMA_GROUP_CFG_WEIGHT, .DMA_GROUP_CFG_TAG_CAP]
  | .DMA_GROUP_STAT => [.DMA_GROUP_STAT_TAGS_USED, .DMA_GROUP_STAT_RUNNING, .DMA_GROUP_STAT_HALTED]
  | .DMA_RING_TAIL => [.DMA_RING_TAIL_TAIL]
  | .DMA_RING_HEAD => [.DMA_RING_HEAD_HEAD]
  | .DMA_RING_CTL => [.DMA_RING_CTL_ENABLE, .DMA_RING_CTL_HALT, .DMA_RING_CTL_RESUME, .DMA_RING_CTL_SIZE_LOG2, .DMA_RING_CTL_VECTOR]
  | .DMA_RING_STAT => [.DMA_RING_STAT_STATE, .DMA_RING_STAT_HALT_CAUSE, .DMA_RING_STAT_INFLIGHT, .DMA_RING_STAT_IRQ_PENDING]
  | .DMA_RING_BASE => [.DMA_RING_BASE_BASE]
  | .DMA_RING_CQ => [.DMA_RING_CQ_CQ]
  | .DMA_RING_HOPMAX => [.DMA_RING_HOPMAX_HOPMAX]
  | .DMA_RING_IRQ => [.DMA_RING_IRQ_HOLDOFF_US]
  | .DMA_RING_ERR => [.DMA_RING_ERR_STATUS, .DMA_RING_ERR_CAUSE, .DMA_RING_ERR_CODE]
  | .DMA_RING_DONE => [.DMA_RING_DONE_DONE]
  | .DMA_RING_ERR_IDX => [.DMA_RING_ERR_IDX_INDEX]
  | .ATT_ENT_MAP => [.ATT_ENT_MAP_RD, .ATT_ENT_MAP_WR, .ATT_ENT_MAP_BASE, .ATT_ENT_MAP_LIMIT]
  | .ATT_ENT_KEY => [.ATT_ENT_KEY_KEY, .ATT_ENT_KEY_EXPECT, .ATT_ENT_KEY_NEW, .ATT_ENT_KEY_STALE]
  | .ATT_QUOTA => [.ATT_QUOTA_LIMIT, .ATT_QUOTA_USED]
  | .ATT_FAULT_INFO => [.ATT_FAULT_INFO_OWNER, .ATT_FAULT_INFO_CAUSE, .ATT_FAULT_INFO_WRITE]
  | .ATT_FAULT_CNT => [.ATT_FAULT_CNT_DMA, .ATT_FAULT_CNT_REGION]
  | .ATT_FAULT_ADDR => [.ATT_FAULT_ADDR_ADDR]
  | .ATT_SWEEP => [.ATT_SWEEP_ACTIVE, .ATT_SWEEP_FREED]
  | .SLT_STAT => [.SLT_STAT_PROGRAMMING, .SLT_STAT_ERASING, .SLT_STAT_SUSPENDED, .SLT_STAT_MAP_LOADED, .SLT_STAT_STANDBY]
  | .SLT_SPARE => [.SLT_SPARE_FREE, .SLT_SPARE_WORN]
  | .SLT_PART => [.SLT_PART_SLOT_LOCK, .SLT_PART_DIR_LOCK, .SLT_PART_SET_LOCK, .SLT_PART_LOG_LOCK, .SLT_PART_USER_LOCK]
  | .SLT_RD_ERR => [.SLT_RD_ERR_UE_PAGES, .SLT_RD_ERR_PAGE_CORR]
  | .SLT_LAST_UE => [.SLT_LAST_UE_PAGE, .SLT_LAST_UE_VALID]
  | .SLT_LAST_UE_TIME => [.SLT_LAST_UE_TIME_TIME]
  | .SLT_SUSPEND => [.SLT_SUSPEND_SUSPENDS, .SLT_SUSPEND_SUSPERASE]
  | .SLT_QUEUE => [.SLT_QUEUE_QFULL_TIMEOUTS]
  | .SLT_SET_STAT => [.SLT_SET_STAT_STATE, .SLT_SET_STAT_SOURCE, .SLT_SET_STAT_FREE0, .SLT_SET_STAT_FREE1, .SLT_SET_STAT_LIVE_KIB]
  | .SLT_SET_PEND => [.SLT_SET_PEND_BYTES, .SLT_SET_PEND_CHANGES]
  | .SLT_SET_SEQ => [.SLT_SET_SEQ_SEQ]
  | .SLT_PATROL => [.SLT_PATROL_NEXT_PAGE, .SLT_PATROL_PASSES]
  | .SLT_BLK_ERASES => [.SLT_BLK_ERASES_ERASES]
  | .SLT_BLK_WEAR => [.SLT_BLK_WEAR_PULSE_MAX, .SLT_BLK_WEAR_CORR_MAX, .SLT_BLK_WEAR_WEAR_WARN, .SLT_BLK_WEAR_OVER_RATED, .SLT_BLK_WEAR_STATE, .SLT_BLK_WEAR_UNSTABLE]
  | .SLT_BLK_MAP => [.SLT_BLK_MAP_PHYS, .SLT_BLK_MAP_REMAPPED]
  | .SLT_SPARE_ENT => [.SLT_SPARE_ENT_LOGICAL, .SLT_SPARE_ENT_IN_USE, .SLT_SPARE_ENT_WORN]
  | .SLT_SPARE_ERASES => [.SLT_SPARE_ERASES_ERASES]
  | .NRG_VIN => [.NRG_VIN_VIN_MV, .NRG_VIN_IIN_MA]
  | .NRG_BANK => [.NRG_BANK_INT_MV, .NRG_BANK_EXT_MV]
  | .NRG_CAP_INT => [.NRG_CAP_INT_CAP, .NRG_CAP_INT_VALID, .NRG_CAP_INT_METHOD]
  | .NRG_CAP_EXT => [.NRG_CAP_EXT_CAP, .NRG_CAP_EXT_VALID, .NRG_CAP_EXT_METHOD]
  | .NRG_AVAIL => [.NRG_AVAIL_UJ]
  | .NRG_RESERVE => [.NRG_RESERVE_UJ]
  | .NRG_ENCUMB => [.NRG_ENCUMB_UJ]
  | .NRG_MARGIN => [.NRG_MARGIN_UJ]
  | .NRG_STAT => [.NRG_STAT_CHARGED, .NRG_STAT_EXT_PRESENT, .NRG_STAT_EXT_CHARGING, .NRG_STAT_RESERVE_SHORT, .NRG_STAT_MEASURING, .NRG_STAT_VIN_LOW, .NRG_STAT_HOLDUP]
  | .NRG_PEND => [.NRG_PEND_BYTES, .NRG_PEND_ROUNDS]
  | .NRG_REFUSE_LAST => [.NRG_REFUSE_LAST_CLASS, .NRG_REFUSE_LAST_COST_UJ]
  | .NRG_HU_TIME => [.NRG_HU_TIME_DURATION_US, .NRG_HU_TIME_OFF_MV]
  | .NRG_REFUSE_TIME => [.NRG_REFUSE_TIME_TIME]
  | .NRG_HU_LAST => [.NRG_HU_LAST_OUTCOME, .NRG_HU_LAST_VIN_RETURNED, .NRG_HU_LAST_SELFTEST, .NRG_HU_LAST_SAFE_DURING, .NRG_HU_LAST_RETAINED, .NRG_HU_LAST_FROM_BOOT, .NRG_HU_LAST_PAGES0, .NRG_HU_LAST_PAGES1]
  | .NRG_HU_ENERGY => [.NRG_HU_ENERGY_UJ]
  | .NRG_CNT => [.NRG_CNT_UJ]
  | .NRG_COST => [.NRG_COST_COST_UJ]
  | .NRG_REFUSE => [.NRG_REFUSE_COUNT]
  | .DEV_MODE => [.DEV_MODE_MODE, .DEV_MODE_PHASE, .DEV_MODE_WAKE_PENDING]
  | .DEV_MODE_TIME => [.DEV_MODE_TIME_TIME]
  | .DEV_MODE_CNT => [.DEV_MODE_CNT_DOZES, .DEV_MODE_CNT_ROUND_TRIPS]
  | .PWR_DOMAINS => [.PWR_DOMAINS_REGION_ON, .PWR_DOMAINS_GROUP_ON, .PWR_DOMAINS_PLL_ON, .PWR_DOMAINS_QUAD_ON]
  | .PWR_VETO => [.PWR_VETO_DOZE, .PWR_VETO_SHUTDOWN]
  | .PWR_WAKE_EN => [.PWR_WAKE_EN_LINK, .PWR_WAKE_EN_FIO, .PWR_WAKE_EN_ALARM]
  | .PWR_WAKE_LAST => [.PWR_WAKE_LAST_SOURCE, .PWR_WAKE_LAST_INDEX, .PWR_WAKE_LAST_MERGED]
  | .PWR_WAKE_TIME => [.PWR_WAKE_TIME_TIME]
  | .PWR_REFUSE_LAST => [.PWR_REFUSE_LAST_REFUSER, .PWR_REFUSE_LAST_REASON, .PWR_REFUSE_LAST_ABORT, .PWR_REFUSE_LAST_REQUEST, .PWR_REFUSE_LAST_INDEX]
  | .PWR_REFUSE_TIME => [.PWR_REFUSE_TIME_TIME]
  | .PWR_ABORT_CNT => [.PWR_ABORT_CNT_COUNT]
  | .PWR_REFUSE_RSN => [.PWR_REFUSE_RSN_COUNT]
  | .PWR_REFUSE_OWN => [.PWR_REFUSE_OWN_COUNT]
  | .PLL_REF => [.PLL_REF_REFSEL, .PLL_REF_FREQ_KHZ]
  | .PLL_CFG => [.PLL_CFG_M, .PLL_CFG_N, .PLL_CFG_APPLY]
  | .PLL_OUT => [.PLL_OUT_DIV, .PLL_OUT_EN]
  | .PLL_STAT => [.PLL_STAT_POWERED, .PLL_STAT_LOCKED, .PLL_STAT_QUALIFIED, .PLL_STAT_GATED, .PLL_STAT_STAGED, .PLL_STAT_BAND, .PLL_STAT_STATE, .PLL_STAT_LAST_ERR]
  | .PLL_MEAS => [.PLL_MEAS_REF_KHZ, .PLL_MEAS_PRESENT]
  | .PLL_VCO => [.PLL_VCO_VCO_KHZ]
  | .PLL_EVT => [.PLL_EVT_LOL, .PLL_EVT_LOR]
  | .PLL_EVT_TIME => [.PLL_EVT_TIME_TIME]
  | .PLL_BAND => [.PLL_BAND_FMIN_MHZ, .PLL_BAND_FMAX_MHZ, .PLL_BAND_CODE]
  | .TMB_NOW => [.TMB_NOW_NOW]
  | .TMB_EPOCH => [.TMB_EPOCH_EPOCH]
  | .TMB_UNCERT => [.TMB_UNCERT_UNCERT_NS]
  | .TMB_CTL => [.TMB_CTL_CLR_UNCERT]
  | .TMB_STAT => [.TMB_STAT_SOURCE, .TMB_STAT_ACCURACY, .TMB_STAT_DISC_EP, .TMB_STAT_EPOCH_UNSURE, .TMB_STAT_EPOCH_SAT]
  | .TMB_CORR => [.TMB_CORR_PPB]
  | .TMB_UMBER_PER => [.TMB_UMBER_PER_PERIOD_PS]
  | .TMB_DOZE_LAST => [.TMB_DOZE_LAST_DURATION_NS]
  | .TMB_DOZE_UNC => [.TMB_DOZE_UNC_UNC_NS]
  | .TMB_ALARM_TIME => [.TMB_ALARM_TIME_TIME]
  | .TMB_ALARM_PER => [.TMB_ALARM_PER_PERIOD_NS]
  | .TMB_ALARM_CTL => [.TMB_ALARM_CTL_ARM, .TMB_ALARM_CTL_PENDING, .TMB_ALARM_CTL_VECTOR, .TMB_ALARM_CTL_MISSED]
  | .XCV_LCPLL => [.XCV_LCPLL_REFSEL, .XCV_LCPLL_M, .XCV_LCPLL_N, .XCV_LCPLL_EN]
  | .XCV_QUAD_STAT => [.XCV_QUAD_STAT_LOCK_A, .XCV_QUAD_STAT_LOCK_B, .XCV_QUAD_STAT_PCIE, .XCV_QUAD_STAT_POWERED, .XCV_QUAD_STAT_LOL_CNT]
  | .XCV_RCLK => [.XCV_RCLK_SEL0, .XCV_RCLK_DIV0, .XCV_RCLK_EN0, .XCV_RCLK_SEL1, .XCV_RCLK_DIV1, .XCV_RCLK_EN1, .XCV_RCLK_RUN0, .XCV_RCLK_RUN1]
  | .XCV_LANE_CFG => [.XCV_LANE_CFG_EN, .XCV_LANE_CFG_PLL, .XCV_LANE_CFG_RATE_DIV, .XCV_LANE_CFG_MODE, .XCV_LANE_CFG_WIDTH, .XCV_LANE_CFG_FEC, .XCV_LANE_CFG_POL_TX, .XCV_LANE_CFG_POL_RX, .XCV_LANE_CFG_LOOP, .XCV_LANE_CFG_TRACK]
  | .XCV_LANE_STAT => [.XCV_LANE_STAT_HELD_PCIE, .XCV_LANE_STAT_ACTIVE, .XCV_LANE_STAT_CDR_LOCK, .XCV_LANE_STAT_ALIGNED, .XCV_LANE_STAT_ADAPT, .XCV_LANE_STAT_TX_IDLE, .XCV_LANE_STAT_LINE_MBPS]
  | .XCV_LANE_ERR => [.XCV_LANE_ERR_CODE_ERR, .XCV_LANE_ERR_LOCK_LOSS, .XCV_LANE_ERR_TX_UNDERRUN, .XCV_LANE_ERR_RX_OVERFLOW]
  | .XCV_LANE_FEC => [.XCV_LANE_FEC_CORR, .XCV_LANE_FEC_UNCORR]
  | .XCV_EYE_CTL => [.XCV_EYE_CTL_PHASE, .XCV_EYE_CTL_VOFF, .XCV_EYE_CTL_LOG2_BITS, .XCV_EYE_CTL_START]
  | .XCV_EYE_RES => [.XCV_EYE_RES_ERRORS, .XCV_EYE_RES_DONE, .XCV_EYE_RES_BUSY, .XCV_EYE_RES_ABORTED]
  | .CAL_STAT => [.CAL_STAT_RUN, .CAL_STAT_OOB]
  | .CAL_REF => [.CAL_REF_ELIGIBLE, .CAL_REF_SPREAD, .CAL_REF_HOLDING, .CAL_REF_DISCARDS]
  | .CAL_REF_TIME => [.CAL_REF_TIME_TIME]
  | .CAL_SPN => [.CAL_SPN_LAST_LINK, .CAL_SPN_LAST_PCT, .CAL_SPN_MIN_PCT, .CAL_SPN_MIN_LINK]
  | .CAL_SPN_TIME => [.CAL_SPN_TIME_TIME]
  | .CAL_NRG => [.CAL_NRG_VIN_MV, .CAL_NRG_INT_MV, .CAL_NRG_EXT_MV, .CAL_NRG_I_GAIN]
  | .CAL_NRG_TIME => [.CAL_NRG_TIME_TIME]
  | .CAL_SLT => [.CAL_SLT_REF_STD, .CAL_SLT_REF_IMG, .CAL_SLT_STEPS]
  | .CAL_SLT_TIME => [.CAL_SLT_TIME_TIME]
  | .CAL_TEMP => [.CAL_TEMP_TEMP, .CAL_TEMP_CORR, .CAL_TEMP_DIFF, .CAL_TEMP_VALID]
  | .CAL_TEMP_TIME => [.CAL_TEMP_TIME_TIME]
  | .CAL_OOB => [.CAL_OOB_LOOP, .CAL_OOB_CAUSE, .CAL_OOB_DETAIL, .CAL_OOB_VALID, .CAL_OOB_INJECTED]
  | .CAL_OOB_TIME => [.CAL_OOB_TIME_TIME]
  | .CAL_INJECT => [.CAL_INJECT_LOOP, .CAL_INJECT_ARM]
  | .SAF_STAT => [.SAF_STAT_SAFE, .SAF_STAT_CFG_SET, .SAF_STAT_PLL_SET, .SAF_STAT_IO_SET, .SAF_STAT_FAULT]
  | .SAF_CFG_CRIT => [.SAF_CFG_CRIT_REGIONS]
  | .SAF_PLL_CRIT => [.SAF_PLL_CRIT_PLLS]
  | .SAF_IO_CRIT => [.SAF_IO_CRIT_REGIONS]
  | .SAF_REQ => [.SAF_REQ_REQ]
  | .SAF_LAST => [.SAF_LAST_DIAG, .SAF_LAST_VALID, .SAF_LAST_INJECTED, .SAF_LAST_IN_HOLDUP, .SAF_LAST_PREV, .SAF_LAST_DETAIL]
  | .SAF_LAST_TIME => [.SAF_LAST_TIME_TIME]
  | .SAF_LAST_EPOCH => [.SAF_LAST_EPOCH_EPOCH]
  | .SAF_CNT => [.SAF_CNT_DANGEROUS]
  | .SAF_INJECT => [.SAF_INJECT_DIAG, .SAF_INJECT_INDEX, .SAF_INJECT_ARM]
  | .SAF_LOG_HEAD => [.SAF_LOG_HEAD_NEXT]
  | .SAF_LOG_OVF => [.SAF_LOG_OVF_OVERWRITTEN]
  | .SAF_LOG_LOSS => [.SAF_LOG_LOSS_LOST, .SAF_LOG_LOSS_DROPPED]
  | .SAF_DIAG_CNT => [.SAF_DIAG_CNT_COUNT]
  | .SAF_LOG_ENT => []
  | .BST_STAT => [.BST_STAT_RUNNING, .BST_STAT_SKIPPED, .BST_STAT_FAIL]
  | .BST_REC_HDR => [.BST_REC_HDR_PROGRAM, .BST_REC_HDR_OUTCOME, .BST_REC_HDR_HOLDUP, .BST_REC_HDR_CONSUMED, .BST_REC_HDR_VALID, .BST_REC_HDR_FAILS, .BST_REC_HDR_TARGET_FAIL]
  | .BST_REC_STEPS => [.BST_REC_STEPS_STEPS, .BST_REC_STEPS_LENGTH]
  | .BST_REC_SIG => [.BST_REC_SIG_SIG]
  | .BST_REC_SIG_EXP => [.BST_REC_SIG_EXP_SIG_EXP]
  | .BST_REC_EPOCH => [.BST_REC_EPOCH_EPOCH]
  | .BST_REC_TIME => [.BST_REC_TIME_TIME]
  | .BST_REC_FAIL => [.BST_REC_FAIL_TARGET, .BST_REC_FAIL_ADDR, .BST_REC_FAIL_VALID]
  | .BST_REC_CNT => [.BST_REC_CNT_COUNT]
  | .BST_SLICE_LAST => [.BST_SLICE_LAST_BANK, .BST_SLICE_LAST_PAGE, .BST_SLICE_LAST_OUTCOME, .BST_SLICE_LAST_MISMATCH, .BST_SLICE_LAST_CAUSE]
  | .BST_SLICE_CNT => [.BST_SLICE_CNT_RUN, .BST_SLICE_CNT_FAILED]
  | .BST_SLICE_FAIL => [.BST_SLICE_FAIL_CELL, .BST_SLICE_FAIL_BANK, .BST_SLICE_FAIL_VALID]
  | .BST_SLICE_TIME => [.BST_SLICE_TIME_TIME]
  | .DEV_LC => [.DEV_LC_STATE, .DEV_LC_RET_DONE, .DEV_LC_KEY_PRESENT, .DEV_LC_KEY_DESTROYED, .DEV_LC_WIPING]
  | .DEV_KEY_SLOT => [.DEV_KEY_SLOT_PROGRAMMED, .DEV_KEY_SLOT_REVOKED, .DEV_KEY_SLOT_PARTIAL, .DEV_KEY_SLOT_KEY_PARTIAL]
  | .DEV_UID => [.DEV_UID_UID]
  | .DEV_LC_LAST => [.DEV_LC_LAST_ACTION, .DEV_LC_LAST_KEY_SLOT, .DEV_LC_LAST_STATUS]
  | .DEV_LC_CNT => [.DEV_LC_CNT_ACCEPTED, .DEV_LC_CNT_REFUSED]
  | .DEV_JTAG => [.DEV_JTAG_IR, .DEV_JTAG_ACCESS, .DEV_JTAG_PINS, .DEV_JTAG_REFUSED]
  | .DEV_KEY_HASH => [.DEV_KEY_HASH_HASH]
  | .GIO_BANK_STAT => [.GIO_BANK_STAT_VCCIO, .GIO_BANK_STAT_RAMPING, .GIO_BANK_STAT_HELD, .GIO_BANK_STAT_SAFE_STATE, .GIO_BANK_STAT_CFG_ERR]
  | .GIO_SHORT => [.GIO_SHORT_DISABLED]
  | .GIO_SHORT_CNT => [.GIO_SHORT_CNT_SHORTS]
  | .GIO_PAD => [.GIO_PAD_PAD]
  | .GIO_REARM => [.GIO_REARM_REARM]
  | .GIO_SHORT_LAST => [.GIO_SHORT_LAST_BANK, .GIO_SHORT_LAST_PIN, .GIO_SHORT_LAST_VALID, .GIO_SHORT_LAST_INJECTED]
  | .GIO_SHORT_TIME => [.GIO_SHORT_TIME_TIME]
  | .FIO_GRP_STAT => [.FIO_GRP_STAT_VFIELD_OK, .FIO_GRP_STAT_UNDERVOLT, .FIO_GRP_STAT_REVERSED, .FIO_GRP_STAT_OVERLOAD, .FIO_GRP_STAT_VFIELD_MV]
  | .FIO_IN => [.FIO_IN_IN]
  | .FIO_OUT_STAT => [.FIO_OUT_STAT_ON, .FIO_OUT_STAT_SHORT]
  | .FIO_DIAG => [.FIO_DIAG_OPEN_LOAD, .FIO_DIAG_WIRE_BREAK]
  | .FIO_REARM => [.FIO_REARM_REARM]
  | .FIO_WAKE => [.FIO_WAKE_RISE, .FIO_WAKE_FALL]
  | .FIO_CNT => [.FIO_CNT_SHORTS, .FIO_CNT_OPEN_LOADS, .FIO_CNT_WIRE_BREAKS, .FIO_CNT_VFIELD_LOSS]
  | .FIO_LAST => [.FIO_LAST_GROUP, .FIO_LAST_PIN, .FIO_LAST_KIND, .FIO_LAST_VALID, .FIO_LAST_INJECTED]
  | .FIO_LAST_TIME => [.FIO_LAST_TIME_TIME]

/-- The registers of block DEV (Table 1-7). -/
def Reg.blockDEV : List Reg :=
  [.DEV_IDCODE, .DEV_STEP, .DEV_GEOM, .DEV_FRAMES, .DEV_REQ_ID, .DEV_DECERR_ADDR, .DEV_DECERR_INFO, .DEV_MODE, .DEV_MODE_TIME, .DEV_MODE_CNT, .DEV_LC, .DEV_KEY_SLOT, .DEV_UID, .DEV_LC_LAST, .DEV_LC_CNT, .DEV_JTAG, .DEV_KEY_HASH]

/-- The registers of block MBX (Table 1-7). -/
def Reg.blockMBX : List Reg :=
  [.MBX_REQ_TAIL, .MBX_REQ_HEAD, .MBX_RSP_TAIL, .MBX_RSP_HEAD, .MBX_CTL, .MBX_STAT, .MBX_EP_ERR_ADDR, .MBX_EP_ERR_INFO, .MBX_EP_STAT, .MBX_EP_RESETS]

/-- The registers of block CFG (Table 1-7). -/
def Reg.blockCFG : List Reg :=
  [.CFG_BOOT_STAT, .CFG_BOOT_FAIL, .CFG_GOLD_FAIL, .CFG_BOOT_TIME, .CFG_LOAD_ACTIVE, .CFG_FAIL_POS, .CFG_REGION_STAT, .CFG_REGION_FRAMES, .CFG_REGION_COUNT, .CFG_REGION_FAIL, .CFG_SCRUB_STAT, .CFG_SCRUB_LAST, .CFG_SCRUB_LAST_TIME, .CFG_SCRUB_INJECT, .CFG_SCRUB_SWEEPS, .CFG_SCRUB_CNT, .CFG_SCRUB_TIME, .CFG_SCRUB_FAIL]

/-- The registers of block SPN (Table 1-7). -/
def Reg.blockSPN : List Reg :=
  [.SPN_RATE, .SPN_RATE_MAX, .SPN_BEATS, .SPN_DARK_CNT, .SPN_TO_CNT, .SPN_FAIR, .SPN_STALL, .SPN_STALL_TIME, .SPN_STALL_INJECT, .SPN_STALL_CNT, .SPN_RESP_CNT, .SPN_RP_CFG, .SPN_RP_DISC, .SPN_RP_TGT, .SPN_RP_TO, .SPN_RP_STAT]

/-- The registers of block BNK (Table 1-7). -/
def Reg.blockBNK : List Reg :=
  [.BNK_OWNER, .BNK_STAT, .BNK_CE, .BNK_UE, .BNK_POISON, .BNK_LAST_ERR, .BNK_LAST_TIME, .BNK_SCRUB, .BNK_SUSPECT, .BNK_INJECT, .BNK_CE_SPARE, .BNK_CLR_STAT, .BNK_PARK, .BNK_REMAP_ENT]

/-- The registers of block ATT (Table 1-7). -/
def Reg.blockATT : List Reg :=
  [.ATT_REGION_PARENT, .ATT_GROUP_PARENT, .ATT_ADMIN, .ATT_HO_LAST, .ATT_HO_CNT, .ATT_HO_TIME, .ATT_ENT_MAP, .ATT_ENT_KEY, .ATT_QUOTA, .ATT_FAULT_INFO, .ATT_FAULT_CNT, .ATT_FAULT_ADDR, .ATT_SWEEP]

/-- The registers of block DMA (Table 1-7). -/
def Reg.blockDMA : List Reg :=
  [.DMA_TIMEOUT, .DMA_STAT, .DMA_BYTES, .DMA_PORT_STAT, .DMA_GROUP_CFG, .DMA_GROUP_STAT, .DMA_RING_TAIL, .DMA_RING_HEAD, .DMA_RING_CTL, .DMA_RING_STAT, .DMA_RING_BASE, .DMA_RING_CQ, .DMA_RING_HOPMAX, .DMA_RING_IRQ, .DMA_RING_ERR, .DMA_RING_DONE, .DMA_RING_ERR_IDX]

/-- The registers of block SLT (Table 1-7). -/
def Reg.blockSLT : List Reg :=
  [.SLT_STAT, .SLT_SPARE, .SLT_PART, .SLT_RD_ERR, .SLT_LAST_UE, .SLT_LAST_UE_TIME, .SLT_SUSPEND, .SLT_QUEUE, .SLT_SET_STAT, .SLT_SET_PEND, .SLT_SET_SEQ, .SLT_PATROL, .SLT_BLK_ERASES, .SLT_BLK_WEAR, .SLT_BLK_MAP, .SLT_SPARE_ENT, .SLT_SPARE_ERASES]

/-- The registers of block NRG (Table 1-7). -/
def Reg.blockNRG : List Reg :=
  [.NRG_VIN, .NRG_BANK, .NRG_CAP_INT, .NRG_CAP_EXT, .NRG_AVAIL, .NRG_RESERVE, .NRG_ENCUMB, .NRG_MARGIN, .NRG_STAT, .NRG_PEND, .NRG_REFUSE_LAST, .NRG_HU_TIME, .NRG_REFUSE_TIME, .NRG_HU_LAST, .NRG_HU_ENERGY, .NRG_CNT, .NRG_COST, .NRG_REFUSE]

/-- The registers of block PWR (Table 1-7). -/
def Reg.blockPWR : List Reg :=
  [.PWR_DOMAINS, .PWR_VETO, .PWR_WAKE_EN, .PWR_WAKE_LAST, .PWR_WAKE_TIME, .PWR_REFUSE_LAST, .PWR_REFUSE_TIME, .PWR_ABORT_CNT, .PWR_REFUSE_RSN, .PWR_REFUSE_OWN]

/-- The registers of block PLL (Table 1-7). -/
def Reg.blockPLL : List Reg :=
  [.PLL_REF, .PLL_CFG, .PLL_OUT, .PLL_STAT, .PLL_MEAS, .PLL_VCO, .PLL_EVT, .PLL_EVT_TIME, .PLL_BAND]

/-- The registers of block TMB (Table 1-7). -/
def Reg.blockTMB : List Reg :=
  [.TMB_NOW, .TMB_EPOCH, .TMB_UNCERT, .TMB_CTL, .TMB_STAT, .TMB_CORR, .TMB_UMBER_PER, .TMB_DOZE_LAST, .TMB_DOZE_UNC, .TMB_ALARM_TIME, .TMB_ALARM_PER, .TMB_ALARM_CTL]

/-- The registers of block XCV (Table 1-7). -/
def Reg.blockXCV : List Reg :=
  [.XCV_LCPLL, .XCV_QUAD_STAT, .XCV_RCLK, .XCV_LANE_CFG, .XCV_LANE_STAT, .XCV_LANE_ERR, .XCV_LANE_FEC, .XCV_EYE_CTL, .XCV_EYE_RES]

/-- The registers of block CAL (Table 1-7). -/
def Reg.blockCAL : List Reg :=
  [.CAL_STAT, .CAL_REF, .CAL_REF_TIME, .CAL_SPN, .CAL_SPN_TIME, .CAL_NRG, .CAL_NRG_TIME, .CAL_SLT, .CAL_SLT_TIME, .CAL_TEMP, .CAL_TEMP_TIME, .CAL_OOB, .CAL_OOB_TIME, .CAL_INJECT]

/-- The registers of block SAF (Table 1-7). -/
def Reg.blockSAF : List Reg :=
  [.SAF_STAT, .SAF_CFG_CRIT, .SAF_PLL_CRIT, .SAF_IO_CRIT, .SAF_REQ, .SAF_LAST, .SAF_LAST_TIME, .SAF_LAST_EPOCH, .SAF_CNT, .SAF_INJECT, .SAF_LOG_HEAD, .SAF_LOG_OVF, .SAF_LOG_LOSS, .SAF_DIAG_CNT, .SAF_LOG_ENT]

/-- The registers of block BST (Table 1-7). -/
def Reg.blockBST : List Reg :=
  [.BST_STAT, .BST_REC_HDR, .BST_REC_STEPS, .BST_REC_SIG, .BST_REC_SIG_EXP, .BST_REC_EPOCH, .BST_REC_TIME, .BST_REC_FAIL, .BST_REC_CNT, .BST_SLICE_LAST, .BST_SLICE_CNT, .BST_SLICE_FAIL, .BST_SLICE_TIME]

/-- The registers of block GIO (Table 1-7). -/
def Reg.blockGIO : List Reg :=
  [.GIO_BANK_STAT, .GIO_SHORT, .GIO_SHORT_CNT, .GIO_PAD, .GIO_REARM, .GIO_SHORT_LAST, .GIO_SHORT_TIME]

/-- The registers of block FIO (Table 1-7). -/
def Reg.blockFIO : List Reg :=
  [.FIO_GRP_STAT, .FIO_IN, .FIO_OUT_STAT, .FIO_DIAG, .FIO_REARM, .FIO_WAKE, .FIO_CNT, .FIO_LAST, .FIO_LAST_TIME]

/-- Every register of the control register space. -/
def Reg.all : List Reg :=
  Reg.blockDEV ++ Reg.blockMBX ++ Reg.blockCFG ++ Reg.blockSPN ++ Reg.blockBNK ++ Reg.blockATT ++ Reg.blockDMA ++ Reg.blockSLT ++ Reg.blockNRG ++ Reg.blockPWR ++ Reg.blockPLL ++ Reg.blockTMB ++ Reg.blockXCV ++ Reg.blockCAL ++ Reg.blockSAF ++ Reg.blockBST ++ Reg.blockGIO ++ Reg.blockFIO

end Sys2Proof.Machine
end

