-- ==== Sys2Proof/Machine/Sparse.lean ====
section
/-! DEFINITION. Reading and writing sparse data. Every operation keeps the canonical form: keys strictly rising and no
entry equal to what an unlisted key reads as. -/

namespace Sys2Proof

set_option Elab.async false

/-- What key `k` holds; `d` where it is not listed. -/
def SMap.look {α : Type} (d : α) : SMap α → Nat → α
  | [], _ => d
  | (k', v) :: m, k => if k = k' then v else SMap.look d m k

/-- A map with an entry added before the first greater key. -/
def SMap.insert {α : Type} (k : Nat) (v : α) : SMap α → SMap α
  | [] => [(k, v)]
  | (k', v') :: m => if k < k' then (k, v) :: (k', v') :: m else (k', v') :: SMap.insert k v m

/-- The map with key `k` holding `v`; holding the value of an unlisted key means not being listed. -/
def SMap.put {α : Type} [DecidableEq α] (d : α) (m : SMap α) (k : Nat) (v : α) : SMap α :=
  let rest := m.filter fun e => e.1 != k
  if v = d then rest else SMap.insert k v rest

/-- The map with every key that satisfies `p` unlisted. -/
def SMap.drop {α : Type} (m : SMap α) (p : Nat → Bool) : SMap α :=
  m.filter fun e => !p e.1

/-- The map with the keys from `lo` up to but not including `lo + n` unlisted. -/
def SMap.clearRange {α : Type} (m : SMap α) (lo n : Nat) : SMap α :=
  m.drop fun k => decide (lo ≤ k) && decide (k < lo + n)

/-- The map with keys `lo`, `lo + 1`, … holding the values listed. -/
def SMap.putList {α : Type} [DecidableEq α] (d : α) (m : SMap α) (lo : Nat) : List α → SMap α
  | [] => m
  | v :: vs => SMap.putList d (SMap.put d m lo v) (lo + 1) vs

/-- The values of `n` keys from `lo`. -/
def SMap.lookList {α : Type} (d : α) (m : SMap α) (lo : Nat) : Nat → List α
  | 0 => []
  | n + 1 => SMap.look d m lo :: SMap.lookList d m (lo + 1) n

/-- The canonical form, for unlisted value `d`. -/
abbrev SMap.wf {α : Type} (d : α) (m : SMap α) : Prop :=
  m.Pairwise (fun a b => a.1 < b.1) ∧ ∀ e ∈ m, e.2 ≠ d

end Sys2Proof
end

