-- ==== Sys2Proof/Machine/Ops.lean ====
section
/-! DEFINITION. The named operations every command is written with: register fields, time, owners, the event log,
the energy ledger's admission, mode changes, refusals. -/

namespace Sys2Proof.Machine

set_option Elab.async false

/-- Bits `lo` up to but not including `lo + w` of a number. -/
def bitsOf (v lo w : Nat) : Nat := v / 2 ^ lo % 2 ^ w

/-- What a command's meaning answers. -/
abbrev Out := Host.Outcome State Fault Refusal

/-! ## Register fields -/

/-- The value of instance `i` of a field. -/
def State.get (s : State) (f : Fld) (i : Nat := 0) : Nat :=
  Nat.xor (SMap.look 0 s.regs (f.key i)) f.rst

/-- Field `f` of instance `i` set to `v`, cut to its width. -/
def State.put (s : State) (f : Fld) (v : Nat) (i : Nat := 0) : State :=
  { s with regs := SMap.put 0 s.regs (f.key i) (Nat.xor (v % 2 ^ f.width) f.rst) }

/-- A one-bit field as a truth value. -/
def State.flag (s : State) (f : Fld) (i : Nat := 0) : Bool := s.get f i == 1

def State.putFlag (s : State) (f : Fld) (b : Bool) (i : Nat := 0) : State := s.put f b.toNat i

/-- Bit `n` of a field. -/
def State.bit (s : State) (f : Fld) (n : Nat) (i : Nat := 0) : Bool := (s.get f i).testBit n

/-- `v` with bit `n` set to `b`. -/
def withBit (v n : Nat) (b : Bool) : Nat :=
  if v.testBit n = b then v else Nat.xor v (2 ^ n)

def State.putBit (s : State) (f : Fld) (n : Nat) (b : Bool) (i : Nat := 0) : State :=
  s.put f (withBit (s.get f i) n b) i

/-- A saturating counter raised by `by` (23 R565). -/
def State.bump (s : State) (f : Fld) (i : Nat := 0) (step : Nat := 1) : State :=
  s.put f (min (s.get f i + step) (2 ^ f.width - 1)) i

/-- The value of a register: its fields in their places, reserved bits 0. -/
def State.regValue (s : State) (r : Reg) (i : Nat := 0) : Nat :=
  r.fields.foldl (fun v f => v + s.get f i * 2 ^ f.lo) 0

/-- Every register of `rs` back at its reset value. -/
def State.resetRegs (s : State) (rs : List Fld) (i : Nat := 0) : State :=
  { s with regs := s.regs.drop fun k => rs.any fun f => k == f.key i }

/-! ## Time and free values -/

/-- TMB_NOW, in nanoseconds (14 R418). -/
def State.now (s : State) : Nat := s.get .TMB_NOW_NOW

/-- A time field stamped with TMB_NOW. -/
def State.stamp (s : State) (f : Fld) (i : Nat := 0) : State := s.put f s.now i

/-- The state after one free value has been taken. -/
def State.spend (s : State) : State := { s with freeCount := s.freeCount + 1 }

/-! ## Owners (01 R41 to R43, 08 R232 to R237) -/

end Sys2Proof.Machine

namespace Sys2Proof

set_option Elab.async false

/-- A defined owner ID (Table 1-8); every other is reserved. -/
def ownerDefined (x : Nat) : Bool :=
  x ≤ 0x04 || (0x10 ≤ x && x ≤ 0x15) || (0x20 ≤ x && x ≤ 0x2F) || (0x40 ≤ x && x ≤ 0x7F)

/-- The owner ID an attachment point stamps (01 R41, 07 R200): the MGC its own where it acts for no defined owner, for a
reserved ID is never stamped (01 R42). -/
def Requester.owner : Requester → Nat
  | .mgc => 0x01
  | .mgcFor o => if ownerDefined o.toNat && o ≠ 0 then o.toNat else 0x01
  | .loader => 0x02
  | .repairer => 0x04
  | .selftest _ => 0x03
  | .scrubber _ => 0x04
  | .host k => 0x10 + k.val
  | .spi => 0x14
  | .jtag => 0x15
  | .region p => 0x20 + p.val / 4
  | .ring _ g => 0x40 + g.val

/-- The port number of Table 7-1; the JTAG port, which the table does not list, has the unused number 97. -/
def Requester.port : Requester → Nat
  | .mgc | .mgcFor _ => 94
  | .loader | .repairer => 93
  | .selftest g | .scrubber g => 77 + g.val
  | .host k => 64 + k.val
  | .spi => 68
  | .jtag => 97
  | .region p => p.val
  | .ring p _ => 69 + p.val

end Sys2Proof

namespace Sys2Proof.Machine

set_option Elab.async false

def isTop (x : Nat) : Bool := 0x10 ≤ x && x ≤ 0x14
def isRegion (x : Nat) : Bool := 0x20 ≤ x && x ≤ 0x2F
def isGroup (x : Nat) : Bool := 0x40 ≤ x && x ≤ 0x7F

/-- top(x) (spec/08, Families). -/
def State.top (s : State) (x : Nat) : Nat :=
  if isTop x then x
  else if isRegion x then s.get .ATT_REGION_PARENT_PARENT (x - 0x20)
  else if isGroup x then s.get .ATT_GROUP_PARENT_PARENT (x - 0x40)
  else 0

/-- Host k is absent while its link is not up or its endpoint is disabled (02, Independent host resets). -/
def State.hostAbsent (s : State) (k : Nat) : Bool :=
  !(s.flag .MBX_EP_STAT_ENABLED k && s.flag .MBX_EP_STAT_LINK_UP k)

/-- top(x) is an absent host (08 R236). -/
def State.absent (s : State) (x : Nat) : Bool :=
  let t := s.top x
  decide (0x10 ≤ t) && decide (t ≤ 0x13) && s.hostAbsent (t - 0x10)

def State.admin (s : State) : Nat := s.get .ATT_ADMIN_ADMIN

def State.isAdmin (s : State) (o : Nat) : Bool := o == s.admin

/-- The writers that many registers name: 0x01, 0x14 and ADMIN. -/
def State.maintains (s : State) (o : Nat) : Bool := o == 0x01 || o == 0x14 || s.isAdmin o

/-! ## The event log (17 R470 to R472) -/

/-- The events that the MGC itself writes, which carry FIRMWARE (Table 17-4): refusals, directory and settings events,
the epoch, life-cycle and HOLDUP programming failures. Which events these are is DEDUCED from who acts (log entry 12). -/
def firmwareCodes : List Nat := [0x0203, 0x0204, 0x0205, 0x0301, 0x0403, 0x0901, 0x0A01]

/-- An event offered to the log: it waits in the 64-entry buffer, or is dropped and counted. -/
def State.logEvent (s : State) (code : Nat) (arg0 : Nat := 0) (arg1 : Nat := 0) (owner : Nat := 0)
    (flags : Nat := 0) : State :=
  if s.safety.buffer.length < 64 then
    let e : LogEntry :=
      { time := s.now, epoch := s.get .TMB_EPOCH_EPOCH, code, owner,
        flags := flags + (if firmwareCodes.contains code then 8 else 0),
        arg0 := arg0 % 2 ^ 32, arg1 := arg1 % 2 ^ 32 }
    { s with safety := { s.safety with buffer := s.safety.buffer ++ [e] } }
  else s.bump .SAF_LOG_LOSS_DROPPED

/-- FLAGS of Table 17-4. -/
def flagDangerous : Nat := 1
def flagInjected : Nat := 2
def flagFirst : Nat := 4
def flagFirmware : Nat := 8

/-- A detection of a diagnostic, contained or dangerous (17 R456, Table 17-5 DIAG). Where the manual states no value
for ARG1, it is a free value. -/
def State.logDiag (s : State) (diag detail : Nat) (value : Option Nat) (owner flags : Nat) : State :=
  let s := s.bump .SAF_DIAG_CNT_COUNT diag
  match value with
  | some v => s.logEvent 0x0601 (diag + 16 * (detail % 2 ^ 16)) v owner flags
  | none => (s.logEvent 0x0601 (diag + 16 * (detail % 2 ^ 16)) (Config.diagValue s.freeCount).toNat owner flags).spend

/-! ## Modes (13 R380, R381) -/

/-- Table 13-1. -/
def Mode.code : Mode → Nat
  | .off => 0 | .boot => 1 | .run => 2 | .doze => 3 | .holdup => 4 | .safe => 5

/-- A mode change: stamped in DEV_MODE_TIME and logged (13 R381). -/
def State.setMode (s : State) (m : Mode) : State :=
  let s' := { s with mode := m }.put .DEV_MODE_MODE m.code |>.stamp .DEV_MODE_TIME_TIME
  s'.logEvent 0x0001 (m.code + 256 * s.mode.code) (s'.get .DEV_MODE_PHASE)

/-- READY is high only in RUN and DOZE (17 R464). -/
def State.ready (s : State) : Bool := s.mode == .run || s.mode == .doze

/-- SAFE_N is high only in RUN and DOZE while no dangerous fault has been detected since the boot (17 R464). -/
def State.safeN (s : State) : Bool := s.ready && s.get .SAF_CNT_DANGEROUS == 0

/-- FAULT_N is asserted (17 R464, 05 R167). -/
def State.faultAsserted (s : State) : Bool := s.flag .SAF_STAT_FAULT

/-- The core domain is powered. -/
def State.coreOn (s : State) : Bool := s.mode != .off

/-- FBT of 22 R558: BOOT with CFG_BOOT_STAT.STATE reading FAILED or BLANK. -/
def State.failedBoot (s : State) : Bool :=
  s.mode == .boot && (s.get .CFG_BOOT_STAT_STATE == 5 || s.get .CFG_BOOT_STAT_STATE == 6)

def State.regionOn (s : State) (k : Nat) : Bool := s.bit .PWR_DOMAINS_REGION_ON k
def State.groupOn (s : State) (g : Nat) : Bool := s.bit .PWR_DOMAINS_GROUP_ON g

/-- DOZE, its entry from step 2 on, and its exit. -/
def State.dozing (s : State) : Bool :=
  s.mode == .doze || s.get .DEV_MODE_PHASE == 1 || s.get .DEV_MODE_PHASE == 2

/-- A self-test program runs and has not been cut short (18 R487). R487 says what follows while SHUTDOWN or STARTUP runs; that the
banks are dark while a program of BST_PROG_RUN runs too is a DESIGN CHOICE (log entry 91). -/
def State.testing (s : State) : Bool := s.test.program.isSome && !s.test.cut

/-- A wake source in DOZE or while it is entered or left (13 R389, R390): the first is recorded, later ones merge. -/
def State.wake (s : State) (source index : Nat) : State :=
  if s.mode != .doze && s.get .DEV_MODE_PHASE != 1 && s.get .DEV_MODE_PHASE != 2 then s
  else if s.power.woken then s.bump .PWR_WAKE_LAST_MERGED
  else
    let s := ((s.put .PWR_WAKE_LAST_SOURCE source).put .PWR_WAKE_LAST_INDEX index).put .PWR_WAKE_LAST_MERGED 0
    let s := (s.stamp .PWR_WAKE_TIME_TIME).putFlag .DEV_MODE_WAKE_PENDING (s.get .DEV_MODE_PHASE == 1)
    { s with power := { s.power with woken := true, wakeHeld := false } }

/-! ## The energy ledger (12 R360 to R364) -/

/-- Table 12-3, in microjoules; 0 for the reserved classes. -/
def classCost : Nat → Nat
  | 0 => 64 | 1 => 5000 | 2 => 5064 | 3 => 5064 | 4 => 64 | 5 => 5000 | 6 => 1024 | 7 => 0
  | 8 => 300 | 9 => 200 | 10 => 800 | 11 => 50 | 12 => 5064 | 13 => 72000 | _ => 0

/-- r(P) = ⌈N(P) / 16⌉ with N(P) = ⌈(P + 24,736) / 4,096⌉ + 8 (12 R361). -/
def rounds (p : Nat) : Nat := ((p + 24736 + 4095) / 4096 + 8 + 15) / 16

/-- E_res(P) = 2,880 + 1,280 × r(P) microjoules. -/
def reserve (p : Nat) : Nat := 2880 + 1280 * rounds p

def State.pendingBytes (s : State) : Nat := s.get .SLT_SET_PEND_BYTES

/-- E_res; 0 outside BOOT, RUN and DOZE (NRG_RESERVE). -/
def State.eRes (s : State) : Nat :=
  match s.mode with
  | .boot | .run | .doze => reserve s.pendingBytes
  | _ => 0

/-- E_enc: the costs of the admitted operations that have not finished (12 R362). -/
def State.eEnc (s : State) : Nat := (s.ledger.admitted.map fun a => classCost a.1).sum

def State.eAvail (s : State) : Nat := s.get .NRG_AVAIL_UJ

/-- The margin (12 R363). -/
def State.margin (s : State) : Int := (s.eAvail : Int) - s.eRes - s.eEnc

/-- Whether the MGC would admit class `c` now (12 R363, R366, R367). -/
def State.admits (s : State) (c : Nat) : Bool :=
  (s.mode == .boot || s.mode == .run || (s.mode == .doze && c == 10)) &&
    !s.flag .NRG_STAT_RESERVE_SHORT && decide ((classCost c : Int) ≤ s.margin)

/-- An admitted operation of class `c` on `what` enters the encumbrance. -/
def State.admitOp (s : State) (c what : Nat) : State :=
  { s with ledger := { s.ledger with admitted := s.ledger.admitted ++ [(c, what)] } }

/-- An operation ends: its cost leaves the encumbrance. -/
def State.releaseOp (s : State) (c what : Nat) : State :=
  { s with ledger := { s.ledger with admitted := s.ledger.admitted.erase (c, what) } }

/-- A refusal by the ledger: counted and recorded (12 R363). -/
def State.refuseEnergy (s : State) (c : Nat) : State :=
  (((s.bump .NRG_REFUSE_COUNT c).put .NRG_REFUSE_LAST_CLASS c).put .NRG_REFUSE_LAST_COST_UJ (classCost c)).stamp
    .NRG_REFUSE_TIME_TIME

/-! ## Refusals of mode and power requests (13 R398, R399) -/

/-- Result 0 of a refusal's reply: the PWR_REFUSE_LAST layout. -/
def refusalWord (refuser reason request index : Nat) (abort : Bool) : Nat :=
  refuser + 2 ^ 8 * reason + 2 ^ 11 * abort.toNat + 2 ^ 12 * request + 2 ^ 16 * index

/-- A refusal or abort counted against its refuser and reason, recorded and logged. -/
def State.recordRefusal (s : State) (request reason refuser index : Nat) (abort : Bool := false) : State :=
  let s := (s.bump .PWR_REFUSE_OWN_COUNT refuser).bump .PWR_REFUSE_RSN_COUNT reason
  let s := ((s.put .PWR_REFUSE_LAST_REFUSER refuser).put .PWR_REFUSE_LAST_REASON reason).putFlag
    .PWR_REFUSE_LAST_ABORT abort
  let s := ((s.put .PWR_REFUSE_LAST_REQUEST request).put .PWR_REFUSE_LAST_INDEX index).stamp .PWR_REFUSE_TIME_TIME
  s.logEvent 0x0301 (refusalWord refuser reason request index abort)

/-! ## Errors at the spine (01 R44, R45, 07 R222) -/

/-- A DECERR completion captured (01 R44, R45): CAUSE is false for an unmapped or undefined address. -/
def State.captureDecerr (s : State) (owner addr : Nat) (write cause : Bool) : State :=
  let s := (s.put .DEV_DECERR_ADDR_ADDR addr).put .DEV_DECERR_INFO_REQ_ID owner
  ((s.putFlag .DEV_DECERR_INFO_WRITE write).putFlag .DEV_DECERR_INFO_CAUSE cause).bump .DEV_DECERR_INFO_COUNT

/-- A DARK answer counted once (07 R222). -/
def State.countDark (s : State) : State := s.bump .SPN_DARK_CNT_COUNT

end Sys2Proof.Machine

namespace Sys2Proof

set_option Elab.async false

/-- Table 7-4. -/
def Resp.code : Resp → Nat
  | .ok => 0 | .decerr => 1 | .notown => 2 | .dark => 3 | .poison => 4 | .narrow => 5 | .timeout => 6
  | .suserase => 7 | .fenced => 8

/-- The command status of a spine response (10 R298, 22 R563). -/
def Resp.status : Resp → Nat
  | .ok => 0x0000 | .decerr => 0x0003 | .notown => 0x0004 | .dark => 0x0007 | .fenced => 0x0007
  | .poison => 0x0010 | .narrow => 0x0011 | .timeout => 0x0008 | .suserase => 0x000F

end Sys2Proof

namespace Sys2Proof.Machine

set_option Elab.async false

/-- A transaction that a unit of the device makes at a target and that is over within the command that makes it: the MGC's
and the configuration engine's, and park transfers between bank groups (07 R200, R204). It is counted like any other, as
`beats` request beats and one response; it meets no wait on the spine (DESIGN CHOICE, log entry 94). -/
def State.countDirect (s : State) (beats : Nat) (c : Resp) : State :=
  let s := if c = .dark then s.countDark else s
  (s.put .SPN_BEATS_BEATS (s.get .SPN_BEATS_BEATS + beats)).bump .SPN_RESP_CNT_COUNT c.code

/-- Runs `f` over a list of indices. -/
def State.forEach (s : State) (is : List Nat) (f : State → Nat → State) : State := is.foldl f s

end Sys2Proof.Machine
end

