-- ==== Sys2Proof/Machine/Fabric.lean ====
section
/-! DEFINITION. The clocked elements of the fabric: logic elements, RAM blocks and MAC blocks, and what one clock edge
does to them (spec/03, Logic element to MAC block). -/

namespace Sys2Proof.Machine

set_option Elab.async false

/-! ## Frames and their cells (01 R24, 03 R81, 04 R130) -/

/-- Region of a device-wide frame index. -/
def frameRegion (f : Nat) : Nat := f / 4000

/-- Offset of a frame within its region. -/
def frameOffset (f : Nat) : Nat := f % 4000

/-- Offset within the sector; 392 or more in the periphery. -/
def sectorOffset (f : Nat) : Nat := if frameOffset f < 3920 then frameOffset f % 392 else frameOffset f

/-- Logic tile frames (Table 4-5). -/
def isLogicFrame (f : Nat) : Bool := decide (frameOffset f < 3920) && decide (sectorOffset f < 256)

/-- Content frame number of a RAM tile frame, 4 for its control frame (Table 4-5). -/
def ramFrame (f : Nat) : Option Nat :=
  if frameOffset f < 3920 && decide (256 ≤ sectorOffset f) && decide (sectorOffset f < 376) then
    some ((sectorOffset f - 256) % 5)
  else none

def isRamContent (f : Nat) : Bool := (ramFrame f).any (· < 4)

def isRamControl (f : Nat) : Bool := ramFrame f == some 4

def isMacFrame (f : Nat) : Bool :=
  decide (frameOffset f < 3920) && decide (376 ≤ sectorOffset f) && decide (sectorOffset f < 392)

/-- The first content frame of a RAM tile whose frames are being named. -/
def isRamBlock (f : Nat) : Bool := ramFrame f == some 0

def State.cells (s : State) (f : Nat) : BitVec 10240 := SMap.look 0 s.fabric.cells f

def State.putCells (s : State) (f : Nat) (v : BitVec 10240) : State :=
  { s with fabric := { s.fabric with cells := SMap.put 0 s.fabric.cells f v } }

/-! ## Logic elements (03 R76 to R80) -/

/-- The outputs of Table 3-1. -/
structure LeOut where
  y0 : Bool
  y1 : Bool
  co : Bool
  /-- SUM, in arithmetic mode; elsewhere Y1. -/
  toA : Bool
  deriving DecidableEq, Repr

/-- Table 3-1 for settings `c`: MASK in bits 63 to 0, the mode in bits 65 and 64 (0 single, 1 dual, else arithmetic). -/
def leOutputs (c : BitVec 96) (inputs : BitVec 6) (ci : Bool) : LeOut :=
  let n6 := inputs.toNat
  let n5 := n6 % 32
  let mode := bitsOf c.toNat 64 2
  let y0 := c.getLsbD n5
  let hi := c.getLsbD (32 + n5)
  if mode = 0 then { y0, y1 := c.getLsbD n6, co := ci, toA := c.getLsbD n6 }
  else if mode = 1 then { y0, y1 := hi, co := ci, toA := hi }
  else { y0, y1 := hi, co := if hi then ci else y0, toA := hi ^^ ci }

/-- A set/reset line's mode (03 R79). -/
inductive SrMode | syncReset | asyncReset | syncSet | asyncSet
  deriving DecidableEq, Repr

def srMode (v : Nat) : SrMode :=
  if v = 0 then .syncReset else if v = 1 then .asyncReset else if v = 2 then .syncSet else .asyncSet

/-- One logic element at an edge: its logic tile by frame index, its number in the tile, what stands at its inputs, and
its cluster's control lines (03 R76, R79). -/
structure LeEdge where
  tile : Nat
  le : Nat
  inputs : BitVec 6
  bx : Bool
  ci : Bool
  /-- Which of the cluster's two clocks has this edge. -/
  clocks : BitVec 2
  enables : BitVec 4
  setReset : BitVec 2
  deriving DecidableEq, Repr

/-- One flip-flop at an edge. Settings `q`: bit 0 the clock, bits 3 to 1 the enable (4 and above: always enabled), bits 5
and 4 the set/reset line (2 and above: none). A synchronous set or reset acts at a clock edge also while the selected
clock enable is low: DESIGN CHOICE, R79 does not say (log entry 87). -/
def flopNext (q : Nat) (sr : BitVec 4) (e : LeEdge) (old data : Bool) : Bool :=
  let clocked := e.clocks.getLsbD (q % 2)
  let ce := bitsOf q 1 3
  let enabled := decide (4 ≤ ce) || e.enables.getLsbD ce
  let line := bitsOf q 4 2
  let active := decide (line < 2) && e.setReset.getLsbD line
  let mode := srMode (bitsOf sr.toNat (2 * line) 2)
  match active, mode with
  | true, .asyncReset => false
  | true, .asyncSet => true
  | true, .syncReset => if clocked then false else old
  | true, .syncSet => if clocked then true else old
  | false, _ => if clocked && enabled then data else old

/-- Key of a flip-flop: A is 0, B is 1. -/
def flopKey (tile le : Nat) (ff : Nat) : Nat := 64 * tile + 2 * le + ff

def State.flop (s : State) (k : Nat) : Bool := SMap.look false s.fabric.flop k

def State.putFlop (s : State) (k : Nat) (v : Bool) : State :=
  { s with fabric := { s.fabric with flop := SMap.put false s.fabric.flop k v } }

/-- A logic element at an edge: FF A captures Y1 or SUM or BX, FF B captures Y0 or BX (bits 66 and 74 choose BX). -/
def State.leEdge (s : State) (e : LeEdge) : State :=
  let c := Config.leCells (s.cells e.tile) e.le
  let sr := Config.clusterCells (s.cells e.tile) (e.le / 8)
  let o := leOutputs c e.inputs e.ci
  let ka := flopKey e.tile e.le 0
  let kb := flopKey e.tile e.le 1
  let a := flopNext (bitsOf c.toNat 67 6) sr e (s.flop ka) (if c.getLsbD 66 then e.bx else o.toA)
  let b := flopNext (bitsOf c.toNat 75 6) sr e (s.flop kb) (if c.getLsbD 74 then e.bx else o.y0)
  (s.putFlop ka a).putFlop kb b

/-- Initial values (03 R79): bit 73 of a logic element's settings for FF A, bit 81 for FF B. -/
def leInit (c : BitVec 96) (ff : Nat) : Bool := c.getLsbD (if ff = 0 then 73 else 81)

/-- Every flip-flop of region k at its initial value, and its fabric's other clocked state as after configuration
(03 R80). Only tiles with cells listed can have other initial values than those of all-zero cells. -/
def State.initFlops (s : State) (k : Nat) : State :=
  let inRegion := fun f => frameRegion f == k
  let s := { s with fabric := { s.fabric with
    flop := s.fabric.flop.drop fun key => inRegion (key / 64)
    ram := s.fabric.ram.drop inRegion
    mac := s.fabric.mac.drop inRegion } }
  let tiles := (List.range 3920).map (4000 * k + ·) |>.filter isLogicFrame
  s.forEach tiles fun s t => s.forEach (List.range 32) fun s le =>
    let c := Config.leCells (s.cells t) le
    (s.putFlop (flopKey t le 0) (leInit c 0)).putFlop (flopKey t le 1) (leInit c 1)

/-! ## RAM blocks (03 R89 to R95) -/

/-- Table 3-4. -/
inductive RamMode | tdp | sdp | rom | fifo
  deriving DecidableEq, Repr

/-- What a port shows when it reads the address it writes (03 R90). -/
inductive WriteMode | writeFirst | readFirst | noChange
  deriving DecidableEq, Repr

/-- One port of a RAM block at an edge (03 R89): whether its clock has the edge, and what its inputs carry. -/
structure RamPort where
  edge : Bool
  enable : Bool
  write : Bool
  lanes : BitVec 8
  addr : Nat
  data : BitVec 80
  deriving DecidableEq, Repr

/-- A RAM block at an edge: block by the frame index of its first content frame, and its ports. -/
structure RamEdge where
  block : Nat
  a : RamPort
  b : RamPort
  /-- The two ports share a clock (03 R91). -/
  shared : Bool
  deriving DecidableEq, Repr

/-- The settings of a RAM block. Widths are those of Table 3-4. -/
structure RamConfig where
  mode : RamMode
  widthA : Nat
  widthB : Nat
  ecc : Bool
  writeA : WriteMode
  writeB : WriteMode
  almostEmpty : Nat
  almostFull : Nat
  /-- Which of the tile's two tracks clocks each port (03 R102). -/
  clockA : Nat
  clockB : Nat
  deriving DecidableEq, Repr

def shapeWidth (v : Nat) : Nat := if v = 0 then 40 else if v = 1 then 20 else if v = 2 then 10 else if v = 3 then 5 else 80

def writeMode (v : Nat) : WriteMode := if v = 0 then .writeFirst else if v = 1 then .readFirst else .noChange

/-- The settings of the block whose first content frame is `f`, from its control frame. -/
def State.ramConfig (s : State) (f : Nat) : RamConfig :=
  let c := (Config.ramCells (s.cells (f + 4))).toNat
  let mode := bitsOf c 0 2
  let wA := shapeWidth (bitsOf c 2 3)
  let wB := shapeWidth (bitsOf c 5 3)
  { mode := if mode = 0 then .tdp else if mode = 1 then .sdp else if mode = 2 then .rom else .fifo
    widthA := wA, widthB := wB
    -- ECC has the two shapes of R93 alone: SDP 512 × 64, and TDP or SDP 1,024 × 32.
    ecc := c.testBit 8 && ((mode == 1 && (wA == 80 || wA == 40)) || (mode == 0 && wA == 40 && wB == 40))
    writeA := writeMode (bitsOf c 9 2), writeB := writeMode (bitsOf c 11 2)
    almostEmpty := bitsOf c 13 16, almostFull := bitsOf c 29 16
    clockA := bitsOf c 45 1, clockB := bitsOf c 46 1 }

/-- Cell b of a block (04 R132). -/
def State.ramCell (s : State) (f b : Nat) : Bool := (s.cells (f + b / 10240)).getLsbD (b % 10240)

def State.putRamCell (s : State) (f b : Nat) (v : Bool) : State :=
  let fr := f + b / 10240
  let c := s.cells fr
  let m : BitVec 10240 := BitVec.ofNat 10240 (2 ^ (b % 10240))
  s.putCells fr (if v then c ||| m else c &&& ~~~m)

/-- Word `w` of width `width`. -/
def State.ramWord (s : State) (f width w : Nat) : Nat :=
  (List.range width).foldl (fun acc j => acc + (s.ramCell f (width * w + j)).toNat * 2 ^ j) 0

/-- Stores word `w`, on the 10-bit lanes enabled where the width is 40 or 80, else whole (03 R89). -/
def State.putRamWord (s : State) (f width w : Nat) (lanes : BitVec 8) (v : Nat) : State :=
  s.forEach (List.range width) fun s j =>
    if width < 40 || lanes.getLsbD (j / 10) then s.putRamCell f (width * w + j) (v.testBit j) else s

/-- Words of a shape: 40,960 bits, of which 512 × 80 has 512. -/
def ramDepth (width : Nat) : Nat := 40960 / width

/-! ### SEC-DED codes of R93

R93 and 04 R132 give the sizes of the codes and where their check bits lie, not the codes. The model takes an extended
Hamming code with the data bits at the positions that are no powers of two: DESIGN CHOICE (log entry 88). -/

/-- The positions of a Hamming code's data bits: the numbers from 3 that are no powers of two. -/
def hammingPositions (n : Nat) : List Nat :=
  ((List.range 128).filter fun p => decide (3 ≤ p) && p != 4 && p != 8 && p != 16 && p != 32 && p != 64).take n

/-- Exclusive or of the positions of the set data bits: the check bits but for the overall parity. -/
def hammingCheck (n d : Nat) : Nat :=
  (hammingPositions n).zipIdx.foldl (fun c pi => if d.testBit pi.2 then Nat.xor c pi.1 else c) 0

def parityOf (v width : Nat) : Bool := (List.range width).foldl (fun p i => p ^^ v.testBit i) false

/-- Check bits of a data word: `e` Hamming bits, then the overall parity. -/
def ramCheck (n e d : Nat) : Nat :=
  let h := hammingCheck n d
  h + (parityOf d n ^^ parityOf h e).toNat * 2 ^ e

/-- An ECC read (03 R94): data, SBE, DBE. -/
def ramDecode (n e stored check : Nat) : Nat × Bool × Bool :=
  let syn := Nat.xor (hammingCheck n stored) (check % 2 ^ e)
  let odd := parityOf stored n ^^ parityOf check (e + 1)
  if syn = 0 && !odd then (stored, false, false)
  else if odd then
    match (hammingPositions n).findIdx? (· == syn) with
    | some i => (Nat.xor stored (2 ^ i), true, false)
    | none => (stored, true, false)
  else (stored, false, true)

/-- Data bits of an ECC word of a shape (03 R93). -/
def eccBits (width : Nat) : Nat × Nat := if width = 80 then (64, 7) else (32, 6)

/-- A word as a read returns it: data, SBE, DBE. -/
def State.ramRead (s : State) (f : Nat) (c : RamConfig) (width w : Nat) : Nat × Bool × Bool :=
  let v := s.ramWord f width w
  if c.ecc then
    let (n, e) := eccBits width
    let (d, sbe, dbe) := ramDecode n e (v % 2 ^ n) (v / 2 ^ n % 2 ^ (e + 1))
    if dbe then ((Config.ramOutput s.freeCount).toNat % 2 ^ n, sbe, dbe) else (d, sbe, dbe)
  else (v, false, false)

/-- A word as a write stores it: with check bits where ECC is on, and then whole. -/
def State.ramWrite (s : State) (f : Nat) (c : RamConfig) (width w : Nat) (lanes : BitVec 8) (v : Nat) : State :=
  if c.ecc then
    let (n, e) := eccBits width
    s.putRamWord f width w 0xFF (v % 2 ^ n + ramCheck n e (v % 2 ^ n) * 2 ^ n)
  else s.putRamWord f width w lanes v

def State.ramState (s : State) (f : Nat) : RamState := SMap.look {} s.fabric.ram f

def State.putRamState (s : State) (f : Nat) (r : RamState) : State :=
  { s with fabric := { s.fabric with ram := SMap.put {} s.fabric.ram f r } }

/-- What port `p` of the block shows after its edge: the word read, unless it writes and does not change its output. -/
def portShows (wm : WriteMode) (p : RamPort) (writes : Bool) : Bool :=
  p.edge && p.enable && !(writes && wm == .noChange)

/-- A block in TDP, SDP or ROM mode at an edge (03 R90, R91). In SDP mode port A writes and port B reads, both in port A's
shape: Table 3-4 lets the shapes differ in TDP mode alone (DEDUCED, log entry 89). A collision of two writes leaves one of
the two values, port A's on a shared clock; of a read and a write, the read returns the whole old or the whole new word,
but where an SDP block's ports share a clock the write port's mode says which (R90). -/
def State.ramPorts (s : State) (f : Nat) (c : RamConfig) (e : RamEdge) : State :=
  let wA := c.widthA
  let wB := if c.mode == .sdp then c.widthA else c.widthB
  let writesA := e.a.edge && e.a.enable && e.a.write && c.mode != .rom
  let writesB := e.b.edge && e.b.enable && e.b.write && c.mode == .tdp
  let readsA := c.mode == .tdp || c.mode == .rom
  let addrA := e.a.addr % ramDepth wA
  let addrB := e.b.addr % ramDepth wB
  let overlap := decide (addrA * wA < addrB * wB + wB) && decide (addrB * wB < addrA * wA + wA)
  let free := Config.ramCollision s.freeCount
  let collide := e.a.edge && e.b.edge && overlap && (writesA || writesB)
  let oldA := s.ramRead f c wA addrA
  let oldB := s.ramRead f c wB addrB
  let doA := fun s : State => if writesA then s.ramWrite f c wA addrA e.a.lanes e.a.data.toNat else s
  let doB := fun s : State => if writesB then s.ramWrite f c wB addrB e.b.lanes e.b.data.toNat else s
  -- On a shared clock port A's value is stored; elsewhere the free value says which comes last.
  let t := if e.shared || free then doA (doB s) else doB (doA s)
  let newA := t.ramRead f c wA addrA
  let newB := t.ramRead f c wB addrB
  let simple := c.mode == .sdp && e.shared && writesA && e.b.edge && addrA == addrB
  let outA := if writesA then (if c.writeA == .writeFirst then (doA s).ramRead f c wA addrA else oldA)
    else if collide && free then newA else oldA
  let outB := if writesB then (if c.writeB == .writeFirst then (doB s).ramRead f c wB addrB else oldB)
    else if simple then (if c.writeA == .writeFirst then newB else oldB)
    else if collide && free then newB else oldB
  let r := t.ramState f
  let r := if readsA && portShows c.writeA e.a writesA then
      { r with outA := some (BitVec.ofNat 80 outA.1), sbeA := outA.2.1, dbeA := outA.2.2 } else r
  let r := if portShows c.writeB e.b writesB && !(simple && c.writeA == .noChange) then
      { r with outB := some (BitVec.ofNat 80 outB.1), sbeB := outB.2.1, dbeB := outB.2.2 } else r
  (t.putRamState f r).spend

/-- One side's view of the other side's pointer: it reflects an access within 3 cycles (03 R92). -/
def fifoView (actual seen lag : Nat) (now : Bool) : Nat × Nat :=
  if actual = seen then (actual, 0)
  else if now || decide (2 ≤ lag) then (actual, 0)
  else (seen, lag + 1)

/-- A block in FIFO mode at an edge (03 R92): port A writes, port B reads. OVERFLOW and UNDERFLOW stay set until a load or
a wipe of the region: DESIGN CHOICE, R92 gives nothing that clears them (log entry 89). -/
def State.ramFifo (s : State) (f : Nat) (c : RamConfig) (e : RamEdge) : State :=
  let w := c.widthA
  let depth := ramDepth w
  let free := Config.fifoFlagSeen s.freeCount
  let r := s.ramState f
  let pops := e.b.edge && e.b.enable
  let empty := r.writesSeen ≤ r.reads
  let out := s.ramRead f c w (r.reads % depth)
  let r' := if pops then
      if empty then { r with underflow := true }
      else { r with reads := r.reads + 1, outB := some (BitVec.ofNat 80 out.1), sbeB := out.2.1, dbeB := out.2.2 }
    else r
  let full := decide (r.readsSeen + depth ≤ r.writes)
  let pushes := e.a.edge && e.a.enable && e.a.write
  let s' := if pushes && !full then s.ramWrite f c w (r.writes % depth) e.a.lanes e.a.data.toNat else s
  let r' := if pushes then (if full then { r' with overflow := true } else { r' with writes := r.writes + 1 }) else r'
  let vr := fifoView r'.reads r'.readsSeen r'.lagA free
  let vw := fifoView r'.writes r'.writesSeen r'.lagB free
  let r' := if e.a.edge then { r' with readsSeen := vr.1, lagA := vr.2 } else r'
  let r' := if e.b.edge then { r' with writesSeen := vw.1, lagB := vw.2 } else r'
  (s'.putRamState f r').spend

def State.ramEdge (s : State) (e : RamEdge) : State :=
  let c := s.ramConfig e.block
  if c.mode == .fifo then s.ramFifo e.block c e else s.ramPorts e.block c e

/-! ### FIFO flags (03 R89, R92)

Almost full is asserted at its threshold and above, almost empty at its threshold and below: DESIGN CHOICE, R89 calls the
flags programmable and no more (log entry 89). -/

/-- Words the write side counts, and words the read side counts. -/
def RamState.writeSide (r : RamState) : Nat := r.writes - r.readsSeen
def RamState.readSide (r : RamState) : Nat := r.writesSeen - r.reads
def RamState.full (r : RamState) (depth : Nat) : Bool := decide (depth ≤ r.writeSide)
def RamState.empty (r : RamState) : Bool := r.readSide == 0
def RamState.almostFull (r : RamState) (c : RamConfig) : Bool := decide (c.almostFull ≤ r.writeSide)
def RamState.almostEmpty (r : RamState) (c : RamConfig) : Bool := decide (r.readSide ≤ c.almostEmpty)

/-! ## MAC blocks (03 R96 to R99) -/

/-- A number as a signed or an unsigned value. -/
def asInt {w : Nat} (signed : Bool) (v : BitVec w) : Int := if signed then v.toInt else (v.toNat : Int)

/-- Settings of a MAC block: bit 0 dual, bits 3 to 1 the signs of A, D and B, bits 9 to 4 S, bits 11 and 10 rounding,
bit 12 SAT, bits 16 to 13 the register stages (inputs, pre-adder, product, accumulator), bit 17 which of the tile's two
tracks clocks the block. -/
structure MacConfig where
  dual : Bool
  signedA : Bool
  signedD : Bool
  signedB : Bool
  shift : Nat
  round : Nat
  sat : Bool
  stages : Nat
  clock : Nat
  deriving DecidableEq, Repr

def State.macConfig (s : State) (f : Nat) : MacConfig :=
  let c := (Config.macCells (s.cells f)).toNat
  { dual := c.testBit 0, signedA := c.testBit 1, signedD := c.testBit 2, signedB := c.testBit 3
    shift := min (bitsOf c 4 6) 32, round := bitsOf c 10 2, sat := c.testBit 12, stages := bitsOf c 13 4
    clock := bitsOf c 17 1 }

/-- The pre-adder (03 R96, Table 3-5), 25 bits signed; A itself when bypassed. A sum outside 25 signed bits, which two
unsigned operands can give, wraps: DESIGN CHOICE (log entry 90). -/
def preAdd (c : MacConfig) (i : MacIn) : Int :=
  let a := asInt c.signedA i.a
  let d := asInt c.signedD i.d
  (BitVec.ofInt 25 (if i.bypass then a else if i.preSub then a - d else a + d)).toInt

/-- M, 45 bits signed. -/
def product (c : MacConfig) (i : MacIn) (pre : Int) : Int := (BitVec.ofInt 45 (pre * asInt c.signedB i.b)).toInt

/-- The two products of dual mode (03 R97): 12 × 10 signed. R97 names neither the halves nor the controls: that the low
halves of A and B make the low product and the high halves the high one, that both halves share the sign of M and the
choice of Z, and that Q is formed from the whole of P, are DESIGN CHOICES (log entry 90). -/
def dualProduct (i : MacIn) (h : Nat) : Int :=
  (BitVec.extractLsb' (12 * h) 12 i.a).toInt * (BitVec.extractLsb' (10 * h) 10 i.b).toInt

/-- ±M + Z, and whether the true result lies outside the signed range, for each half in dual mode. -/
def accumulate (c : MacConfig) (i : MacIn) (casc : BitVec 64) (m : Int) (p : BitVec 64) : BitVec 64 × Bool × Bool :=
  if c.dual then
    let half := fun h : Nat =>
      let old : BitVec 32 := BitVec.extractLsb' (32 * h) 32 p
      let x := dualProduct i h
      let t := (if i.negate then -x else x) + (if i.z = .p then old.toInt else 0)
      (BitVec.ofInt 32 t, decide ((BitVec.ofInt 32 t).toInt ≠ t))
    ((half 1).1 ++ (half 0).1, (half 0).2, (half 1).2)
  else
    let z : Int := match i.z with
      | .zero => 0
      | .c => i.c.toInt
      | .p => p.toInt
      | .casc => casc.toInt
    let t := (if i.negate then -m else m) + z
    (BitVec.ofInt 64 t, decide ((BitVec.ofInt 64 t).toInt ≠ t), false)

/-- P shifted right by S and rounded (03 R98): TRUNC, HALF_AWAY, HALF_EVEN. -/
def roundShift (round shift : Nat) (p : Int) : Int :=
  let d : Int := 2 ^ shift
  let q := p / d
  let r := 2 * (p % d)
  if round = 0 then q
  else if r < d then q
  else if d < r then q + 1
  else if round = 1 then (if p < 0 then q else q + 1)
  else if q % 2 = 0 then q else q + 1

/-- Q, and whether it was clamped. -/
def macQ (c : MacConfig) (p : BitVec 64) : BitVec 48 × Bool :=
  let v := roundShift c.round c.shift p.toInt
  if c.sat && decide (v < -2 ^ 47) then (BitVec.ofInt 48 (-2 ^ 47), true)
  else if c.sat && decide (2 ^ 47 ≤ v) then (BitVec.ofInt 48 (2 ^ 47 - 1), true)
  else (BitVec.ofInt 48 v, false)

def State.macState (s : State) (f : Nat) : MacState := SMap.look {} s.fabric.mac f

/-- A MAC block by its frame, with what stands at its inputs. -/
structure MacEdge where
  mac : Nat
  input : MacIn
  casc : BitVec 64
  clearFlags : Bool
  deriving DecidableEq, Repr

/-- What reaches the accumulator through the first three stages, each of which is enabled or not. CASC_IN goes to the
accumulator directly: DEDUCED, R99 lists no stage for it (log entry 90). -/
def MacState.reaching (st : MacState) (c : MacConfig) (e : MacEdge) : MacIn × Int :=
  let out1 := if c.stages.testBit 0 then st.inputs else e.input
  let out2 := if c.stages.testBit 1 then st.pre else (out1, preAdd c out1)
  if c.stages.testBit 2 then st.product else (out2.1, Sys2Proof.Machine.product c out2.1 out2.2)

/-- P as the block shows it: the accumulator, or ±M + Z at once where the accumulator stage is not enabled. -/
def MacState.output (st : MacState) (c : MacConfig) (e : MacEdge) : BitVec 64 :=
  if c.stages.testBit 3 then st.p
  else
    let (i, m) := st.reaching c e
    (accumulate c i e.casc m st.p).1

/-- A MAC block at an edge (03 R96 to R99): each enabled stage takes what stands before it, and the sticky flags follow
the new P. A flag that CLR_FLAGS clears and the same edge sets ends set: DESIGN CHOICE (log entry 90). -/
def State.macEdge (s : State) (e : MacEdge) : State :=
  let c := s.macConfig e.mac
  let st := s.macState e.mac
  let out1 := if c.stages.testBit 0 then st.inputs else e.input
  let out2 := if c.stages.testBit 1 then st.pre else (out1, preAdd c out1)
  let (i, m) := st.reaching c e
  let (p, o0, o1) := accumulate c i e.casc m st.p
  let kept := if e.clearFlags then { st with ovf0 := false, ovf1 := false, qsat := false } else st
  let next := { kept with
    inputs := e.input, pre := (out1, preAdd c out1), product := (out2.1, product c out2.1 out2.2)
    p := if c.stages.testBit 3 then p else st.p
    ovf0 := kept.ovf0 || o0, ovf1 := kept.ovf1 || o1, qsat := kept.qsat || (macQ c p).2 }
  { s with fabric := { s.fabric with mac := SMap.put {} s.fabric.mac e.mac next } }

end Sys2Proof.Machine
end

