-- ==== Sys2Proof/Machine/SpineOps.lean ====
section
/-! DEFINITION. The spine's transactions: decode of addresses, rejections, and the passage of a transaction from its
requester port to its target and back (01 R34, R35, R39; spec/07). -/

namespace Sys2Proof.Machine

set_option Elab.async false

/-! ## Addresses (01 R34, R35) -/

/-- What an address selects (Table 1-6). -/
inductive Target
  | bank (n : Nat) (offset : Nat)
  | slate (offset : Nat)
  | region (k : Nat) (offset : Nat)
  | control (offset : Nat)
  | host (k : Nat) (addr : Nat)
  deriving DecidableEq, Repr

/-- Table 1-6; `none` is unmapped. -/
def decodeAddr (a : Nat) : Option Target :=
  if a < 0x400_0000 then some (.bank (a / 0x8_0000) (a % 0x8_0000))
  else if 0x1_0000_0000 ≤ a ∧ a < 0x1_4000_0000 then some (.slate (a % 0x4000_0000))
  else if 0x2_0000_0000 ≤ a ∧ a < 0x3_0000_0000 then
    some (.region (a / 0x1000_0000 % 16) (a % 0x1000_0000))
  else if 0x3_0000_0000 ≤ a ∧ a < 0x3_0100_0000 then some (.control (a % 0x100_0000))
  else if 0x1000_0000_0000 ≤ a ∧ a < 0x5000_0000_0000 then
    some (.host (a / 0x1000_0000_0000 - 1) (a % 0x1000_0000_0000))
  else none

/-- The target port of Table 7-1: bank group ports, the Slate controller, region ports by 64 MiB quarter (03 R105), the
control register space, endpoints. -/
def Target.port : Target → Nat
  | .bank n _ => 77 + n / 8
  | .slate _ => 95
  | .region k o => 4 * k + o / 0x400_0000
  | .control _ => 96
  | .host k _ => 64 + k

/-- The port that answers for an address: an unmapped one is answered by the core hub, which the model lets the control
register space's port stand for. -/
def portOf (a : Nat) : Nat := ((decodeAddr a).map Target.port).getD 96

/-! ## Paths (07 R197, R199, Table 7-2) -/

/-- Node and node input of a port: region nodes 0 to 15, quadrant hubs 16 to 19, core hub 20. -/
def attachedAt (p : Nat) : Nat × Nat :=
  if p < 64 then (p / 4, p % 4)
  else if p < 68 then (20, 8 + (p - 64))
  else if p = 68 then (20, 12)
  else if p < 77 then (16 + (p - 69) / 2, 8 + (p - 69) % 2)
  else if p < 93 then (16 + (p - 77) / 4, 4 + (p - 77) % 4)
  else if p = 93 then (20, 13) else if p = 94 then (20, 14) else if p = 95 then (20, 12) else (20, 13)

/-- Quadrant of a port, if it has one. -/
def quadrantOf (p : Nat) : Option Nat :=
  let n := (attachedAt p).1
  if n < 16 then some (n / 4) else if n < 20 then some (n - 16) else none

/-- The node inputs a beat passes from port `src` to port `dst`, between the hubs on link `link`. -/
def pathOf (src dst link : Nat) : List (Nat × Nat) :=
  let a := attachedAt src
  let b := attachedAt dst
  let last := if b.1 < 16 then [(b.1, 4)] else []
  let first := a :: (if a.1 < 16 then [(16 + a.1 / 4, a.1 % 4)] else [])
  if a.1 = b.1 then [a]
  else match quadrantOf src, quadrantOf dst with
    | some q, some r =>
      if q = r then first ++ last else first ++ [(20, 2 * q + link), (16 + r, 10 + link)] ++ last
    | some q, none => first ++ [(20, 2 * q + link)]
    | none, some r => [a, (16 + r, 10 + link)] ++ last
    | none, none => [a]

/-! ## Transactions (07 R201 to R203) -/

def Txn.isWrite (t : Txn) : Bool := t.kind == .write

/-- The first four rules of R202, which the requester port itself enforces. -/
def wellFormed (kind : TxnKind) (addr : Nat) (beats : Nat) : Bool :=
  kind != .reserved && decide (addr % 32 = 0) && decide (1 ≤ beats) && decide (beats ≤ 16) &&
    decide (addr % 4096 + 32 * beats ≤ 4096) && (kind != .flush || beats == 1)

/-- Beats of the response (R203). -/
def Txn.responseBeats (t : Txn) : Nat := if t.kind = .read then t.beats.length else 1

/-- A rejection: every beat carries the code, no word is OK, data reads as all ones. -/
def Txn.reject (t : Txn) (c : Resp) : List BeatOut :=
  List.replicate t.responseBeats { code := c, wok := 0, data := BitVec.allOnes 256 }

/-- The 64-bit words of a beat that its enables access, as WOK bits (R203). -/
def wokOf (be : BitVec 32) : BitVec 4 :=
  BitVec.ofNat 4 ((List.range 4).foldl (fun v i => if bitsOf be.toNat (8 * i) 8 = 0 then v else v + 2 ^ i) 0)

/-- A read beat that completed OK: the words it accesses, and all ones in the others. -/
def okBeat (be : BitVec 32) (d : BitVec 256) : BeatOut :=
  let w := wokOf be
  { code := .ok, wok := w
    data := (List.range 4).foldl (fun v i => if w.getLsbD i then v else v ||| (BitVec.allOnes 64).setWidth 256 <<< (64 * i)) d }

/-- A whole response of OK to a read, with the data given per beat. -/
def Txn.okRead (t : Txn) (ds : List (BitVec 256)) : List BeatOut := (t.beats.zip ds).map fun bd => okBeat bd.1.be bd.2

/-- The response of a write or FLUSH that took effect: WOK has the words that every beat accesses. -/
def Txn.okWrite (t : Txn) : List BeatOut :=
  [{ code := .ok, wok := t.beats.foldl (fun v b => v &&& wokOf b.be) (if t.kind == .flush then 0 else 0xF), data := 0 }]

/-- A response of OK to `t`, with the data of a read. -/
def Txn.okBeats (t : Txn) (ds : List (BitVec 256)) : List BeatOut := if t.kind == .read then t.okRead ds else t.okWrite

/-- The code a transaction counts under: its first beat that is not OK, or OK (SPN_RESP_CNT). -/
def codeOf (bs : List BeatOut) : Resp := ((bs.find? fun b => b.code ≠ .ok).map (·.code)).getD .ok

/-! ## Requester resources (07 R206, Tables 7-5 to 7-7) -/

def spineTags (p : Nat) : Nat :=
  if p < 64 then 128 else if p < 68 then 256 else if p = 68 then 4 else if p < 77 then 2048
  else if p < 93 then 16 else if p = 93 then 256 else if p = 94 then 8 else 1

def responseBuffer (p : Nat) : Nat :=
  if p < 64 then 128 else if p < 68 then 256 else if p = 68 then 4 else if p < 77 then 4096
  else if p < 93 then 256 else if p = 93 then 4096 else if p = 94 then 32 else 1

/-- Credits of a target port (Table 7-6). -/
def creditsOf (t : Nat) : Nat :=
  if t < 64 then 16 else if t < 68 then 64 else if 77 ≤ t ∧ t < 93 then 32 else if t = 95 then 64
  else if t = 96 then 32 else 0

/-- Requester group (Table 7-7). -/
def requesterGroup (p : Nat) : Nat :=
  if p < 64 then p / 16 else if p ≤ 68 then 4 else if p < 77 then 5 else if p < 93 then 6 else 7

/-- Transactions issued and not yet arrived back. -/
def Spine.issued (sp : Spine) : List Txn :=
  sp.network.map (·.1) ++ sp.ingress ++ sp.taken ++ sp.answered.map (·.txn)

/-- Those of port p that hold a tag and a reservation. -/
def Spine.holding (sp : Spine) (p : Nat) : List Txn := sp.issued.filter fun t => t.src == p && !t.freed

def Spine.busyTags (sp : Spine) (p : Nat) : List Nat := (sp.holding p).map (·.tag)

/-- Response buffer beats that port p has reserved (R207). -/
def Spine.reserved (sp : Spine) (p : Nat) : Nat := ((sp.holding p).map Txn.responseBeats).sum

/-- The lowest tag of port p that is not busy. -/
def Spine.freeTag (sp : Spine) (p : Nat) : Option Nat :=
  (List.range (spineTags p)).find? fun t => !(sp.busyTags p).contains t

def Spine.credits (sp : Spine) (t : Nat) : Nat :=
  creditsOf t - ((sp.network.map (·.1) ++ sp.ingress).filter fun x => portOf x.addr == t).length

/-- An earlier write of the same source is not yet acknowledged (02 R54). -/
def Spine.writesBefore (sp : Spine) (t : Txn) : Bool :=
  (sp.waiting ++ sp.issued).any fun x => x.src == t.src && x.isWrite && decide (x.id < t.id)

/-- An endpoint holds a read or a control-space write until its earlier writes are acknowledged, and issues its writes in
the order they came (02 R54). -/
def Spine.heldByOrder (sp : Spine) (t : Txn) : Bool :=
  decide (64 ≤ t.src) && decide (t.src < 68) &&
    (if t.kind != .write || portOf t.addr == 96 then sp.writesBefore t
     else sp.waiting.any fun x => x.src == t.src && x.isWrite && decide (x.id < t.id))

/-- The request at the head of port p's queue for target t (R208), if the port can issue it. -/
def Spine.issuable (sp : Spine) (t p : Nat) : Option Txn :=
  match sp.waiting.find? fun x => x.src == p && portOf x.addr == t with
  | none => none
  | some x =>
    if (sp.freeTag p).isSome && decide (sp.reserved p + x.responseBeats ≤ responseBuffer p) && !sp.heldByOrder x then
      some x
    else none

/-- Removes a transaction from a list by its number. -/
def dropTxn (ts : List Txn) (id : Nat) : List Txn := ts.filter (·.id != id)

/-- A transaction enters its port's wait queue. -/
def State.enqueue (s : State) (src owner : Nat) (kind : TxnKind) (addr : Nat) (beats : List BeatIn)
    (user : Consumer) : State :=
  let t : Txn := { id := s.spine.nextId, src, owner, kind, addr, beats, user }
  { s with spine := { s.spine with nextId := s.spine.nextId + 1, waiting := s.spine.waiting ++ [t] } }

/-- Target answers `t`, which stands in its ingress queue or has been taken: the response enters the response plane at
the target's node. One that cannot pass an isolated unit and whose tag is free already ends here. -/
def State.answerTxn (s : State) (t : Txn) (bs : List BeatOut) : State :=
  let a : Answered := { txn := t, beats := bs, way := pathOf (portOf t.addr) t.src (t.src % 2) }
  { s with spine := { s.spine with
      ingress := dropTxn s.spine.ingress t.id
      taken := dropTxn s.spine.taken t.id
      answered := if t.freed then s.spine.answered else s.spine.answered ++ [a] } }

/-- A DARK answer, counted (R222). -/
def State.answerDark (s : State) (t : Txn) : State := (s.answerTxn t (t.reject .dark)).countDark

/-- The target takes `t` out of its ingress queue, to answer it later. -/
def State.takeTxn (s : State) (t : Txn) : State :=
  { s with spine := { s.spine with
      ingress := dropTxn s.spine.ingress t.id, taken := s.spine.taken ++ [t] } }

/-- Marks the transactions that `p` selects, wherever they are. -/
def Spine.mark (sp : Spine) (p : Txn → Bool) : Spine :=
  let f := fun t : Txn => if p t then { t with stale := true } else t
  { sp with waiting := sp.waiting.map f, network := sp.network.map fun x => (f x.1, x.2), ingress := sp.ingress.map f,
            taken := sp.taken.map f, answered := sp.answered.map fun a => { a with txn := f a.txn } }

/-! ## Links and their arbiters (07 R199, R213, R214, R227, R230)

Between two commands of the spine nothing says how far a beat has come. The model moves what stands on a plane only when a
command looks at its far end, and then lets every arbiter serve all that waits: transactions issued without such a command
between them reach the arbiters together (DESIGN CHOICE, log entry 11). -/

/-- What stands on a plane: a transaction by number, the node inputs it has still to pass, and the port it goes to. -/
structure OnLink where
  id : Nat
  way : List (Nat × Nat)
  dst : Nat
  deriving DecidableEq, Repr

/-- The arbiter that grants the first input of a way: of the link to the next node input, or to the port. -/
def OnLink.arbiter (x : OnLink) (plane : Bool) : Nat :=
  512 * plane.toNat + match x.way with
    | _ :: (n, i) :: _ => 16 * n + i
    | _ => 336 + x.dst

def OnLink.input (x : OnLink) : Nat := (x.way.headD (0, 0)).2

/-- A beat that the isolated unit it stands at has swallowed (R227). -/
def Spine.swallows (sp : Spine) (plane : Bool) (x : OnLink) : Bool := sp.isolated.any fun u =>
  match u, x.way with
  | .hop n i pl, (m, j) :: _ => pl == plane && n.val == m && i.val == j
  | _, _ => false

/-- The unit of an armed injection (R230): its acknowledgement is withheld. -/
def State.injectedHop (s : State) : Option (Nat × Nat × Bool) :=
  if s.flag .SPN_STALL_INJECT_ARM then
    some (s.get .SPN_STALL_INJECT_NODE, s.get .SPN_STALL_INJECT_INPUT, s.flag .SPN_STALL_INJECT_PLANE)
  else none

/-- `x` stands at the input whose acknowledgement an armed injection withholds. -/
def State.withheld (s : State) (plane : Bool) (x : OnLink) : Bool :=
  match s.injectedHop, x.way with
  | some (n, i, pl), (m, j) :: _ => pl == plane && n == m && i == j
  | _, _ => false

/-- The transactions at the heads of their node inputs, which are those that arbiters see. -/
def headsOf : List (Nat × Nat) → List OnLink → List OnLink
  | _, [] => []
  | seen, x :: xs =>
    let here := x.way.headD (0, 0)
    if seen.contains here then headsOf seen xs else x :: headsOf (here :: seen) xs

/-- The input that an arbiter serves next (R214): in ascending order from the one after the last it granted. -/
def rotate (next : Nat) (xs : List OnLink) : Option OnLink :=
  ((List.range 16).map fun j => (next + j) % 16).findSome? fun j => xs.find? fun x => x.input == j

/-- Counts a grant of arbiter `arb` against the inputs still waiting there (SPN_FAIR). -/
def State.noteGrant (s : State) (arb input : Nat) (others : List Nat) : State :=
  let ar := s.spine.arbiters
  let passed := others.foldl (fun m j => SMap.put 0 m (16 * arb + j) (SMap.look 0 ar.passed (16 * arb + j) + 1))
    (SMap.put 0 ar.passed (16 * arb + input) 0)
  let worst := others.foldl (fun w j => max w (SMap.look 0 passed (16 * arb + j))) (s.get .SPN_FAIR_LINK_WAIT_MAX)
  { s with spine := { s.spine with
      arbiters := { next := SMap.put 0 ar.next arb ((input + 1) % 16), passed } } }.put .SPN_FAIR_LINK_WAIT_MAX (min worst 15)

/-- One grant on a plane: the first transaction that can move names the arbiter, and the arbiter's turn says which of
those waiting there passes. -/
def State.linkGrant (s : State) (plane : Bool) (xs : List OnLink) : Option (State × OnLink) :=
  let heads := (headsOf [] xs).filter fun x => !s.withheld plane x
  match heads with
  | [] => none
  | x :: _ =>
    let arb := x.arbiter plane
    let here := heads.filter fun y => y.arbiter plane == arb
    match rotate (SMap.look 0 s.spine.arbiters.next arb) here with
    | none => none
    | some y => some (s.noteGrant arb y.input ((here.filter (·.input != y.input)).map (·.input)), y)

/-- A request that an isolated unit has swallowed: no response will come. -/
def Txn.cut (t : Txn) : Txn := { t with lost := true }

/-- A transaction whose beats have passed a node input stands at the next one, or in the target's ingress queue. -/
def Spine.advance (sp : Spine) (y : OnLink) : Spine :=
  match sp.network.find? fun x => x.1.id == y.id with
  | none => sp
  | some (t, way) =>
    let rest := sp.network.filter fun x => x.1.id != y.id
    match way with
    | _ :: next :: more => { sp with network := rest ++ [(t, next :: more)] }
    | _ =>
      if sp.isolated.any (fun u => match u with | .ingress p => p.val == y.dst | _ => false) then
        { sp with network := rest, taken := sp.taken ++ [t.cut] }
      else { sp with network := rest, ingress := sp.ingress ++ [t] }

def Spine.onRequestPlane (sp : Spine) : List OnLink :=
  sp.network.map fun x => { id := x.1.id, way := x.2, dst := portOf x.1.addr }

def Spine.onResponsePlane (sp : Spine) : List OnLink :=
  (sp.answered.filter fun a => !a.way.isEmpty && !a.txn.lost).map fun a =>
    { id := a.txn.id, way := a.way, dst := a.txn.src }

/-- Requests that stand at isolated units are discarded. -/
def Spine.swallowRequests (sp : Spine) : Spine :=
  let gone := sp.onRequestPlane.filter (sp.swallows false)
  { sp with
    network := sp.network.filter fun x => !gone.any fun y => y.id == x.1.id
    taken := sp.taken ++ (sp.network.filter fun x => gone.any fun y => y.id == x.1.id).map fun x => x.1.cut }

/-- Responses that stand at isolated units are discarded. -/
def Spine.swallowResponses (sp : Spine) : Spine :=
  let gone := sp.onResponsePlane.filter (sp.swallows true)
  { sp with answered := sp.answered.map fun a => if gone.any (fun y => y.id == a.txn.id) then { a with txn := a.txn.cut } else a }

/-- The request plane delivers what stands on it, by at most `n` grants. -/
def State.moveRequests : Nat → State → State
  | 0, s => s
  | n + 1, s =>
    let s := { s with spine := s.spine.swallowRequests }
    match s.linkGrant false s.spine.onRequestPlane with
    | none => s
    | some (t, y) => State.moveRequests n { t with spine := t.spine.advance y }

/-- A response passes a node input. -/
def Spine.advanceResponse (sp : Spine) (y : OnLink) : Spine :=
  { sp with answered := sp.answered.map fun a => if a.txn.id == y.id then { a with way := a.way.tail } else a }

/-- The response plane, likewise. -/
def State.moveResponses : Nat → State → State
  | 0, s => s
  | n + 1, s =>
    let s := { s with spine := s.spine.swallowResponses }
    match s.linkGrant true s.spine.onResponsePlane with
    | none => s
    | some (t, y) => State.moveResponses n { t with spine := t.spine.advanceResponse y }

/-- No way has more than six node inputs. -/
def State.flowRequests (s : State) : State := s.moveRequests (6 * s.spine.network.length)
def State.flowResponses (s : State) : State := s.moveResponses (6 * s.spine.answered.length)

/-- No isolated unit stands on the way of a request, and none on the way of its response. -/
def Spine.requestPasses (sp : Spine) (src dst : Nat) : Bool := !sp.isolated.any fun u =>
  match u with
  | .hop n i plane => !plane && (pathOf src dst (src % 2)).contains (n.val, i.val)
  | .ingress p => p.val == dst

def Spine.responsePasses (sp : Spine) (src dst : Nat) : Bool := !sp.isolated.any fun u =>
  match u with
  | .hop n i plane => plane && (pathOf dst src (src % 2)).contains (n.val, i.val)
  | .ingress _ => false

end Sys2Proof.Machine
end

