-- ==== Sys2Proof/Machine/FenceOps.lean ====
section
/-! DEFINITION. Pins, region fences, boundary channels and region ports: what a fence does when it is applied and when
it lifts (03 R85 to R88, R105 to R117; 17 R465; 20 R532; 15 Table 15-3). -/

namespace Sys2Proof.Machine

set_option Elab.async false

/-! ## Regions (03 R83, R103, R116) -/

/-- Grid row and column of region k (R83). -/
def gridOf (k : Nat) : Nat × Nat :=
  let q := k / 4
  let j := k % 4
  (2 * (q / 2) + j / 2, 2 * (q % 2) + j % 2)

/-- Bank and field group of region k (Table 3-13). -/
def bankOfRegion (k : Nat) : Option Nat := if k < 14 then some k else none
def fieldGroupOfRegion (k : Nat) : Option Nat := if 12 ≤ k ∧ k < 16 then some (k - 12) else none

/-- The region of general pin n, and of field pin n (Table 3-13, 20 R517). -/
def regionOfGio (n : Nat) : Nat := n / 32
def regionOfFio (n : Nat) : Nat := 12 + n / 16

def State.regionState (s : State) (k : Nat) : Nat := s.get .CFG_REGION_STAT_STATE k
def State.loaded (s : State) (k : Nat) : Bool := s.regionState k == 3

def State.parent (s : State) (k : Nat) : Nat := s.get .ATT_REGION_PARENT_PARENT k

/-- 1 while region k is LOADING or WIPING. -/
def State.loading (s : State) (k : Nat) : Bool := s.regionState k == 2 || s.regionState k == 4

/-- Periphery frame p of region k (Table 4-6). -/
def peripheryFrame (k p : Nat) : Nat := 4000 * k + 3920 + p

/-! ## Settings in the periphery frames -/

/-- Settings of region port j of region k: bit 0 initiator side enabled, bit 1 target side enabled. -/
def State.portCells (s : State) (p : Nat) : Nat :=
  (Config.portCells (s.cells (peripheryFrame (p / 4) (76 + p % 4)))).toNat

/-- The quadrant line a regional clock track selects (R102), from its track frame. -/
def State.trackLine (s : State) (k t : Nat) : Nat :=
  (Config.trackCells (s.cells (peripheryFrame k (48 + t / 2))) (t % 2)).toNat % 32

/-- The edge of region k toward N, E, S or W has its channel's side enabled: by the channel's frame and by the region
control frames' qualification (R87, Table 4-6). -/
def State.channelEnabled (s : State) (k edge : Nat) : Bool :=
  Config.channelCells (s.cells (peripheryFrame k (72 + edge))) &&
    (Config.channelQualified (s.cells (peripheryFrame k 76))).getLsbD edge

/-- The regional track that clocks region port p (R106), from the port's first frame. -/
def State.portTrack (s : State) (p : Nat) : Nat :=
  (Config.portTrack (s.cells (peripheryFrame (p / 4) (56 + 4 * (p % 4))))).toNat

/-- The regional tracks, in ascending order, that sector `x` of region k takes: at most 12 (R102). -/
def State.sectorTracks (s : State) (k x : Nat) : List Nat :=
  ((List.range 16).filter fun t =>
    (Config.trackSectors (s.cells (peripheryFrame k (48 + t / 2))) (t % 2)).getLsbD x).take 12

/-! ## Fence causes (03 R111) -/

def State.fence (s : State) (k : Nat) : Fences := SMap.look {} s.fences k

def State.putFence (s : State) (k : Nat) (f : Fences) : State := { s with fences := SMap.put {} s.fences k f }

/-- At least one cause of Table 3-11. -/
def Fences.any (f : Fences) : Bool := f.load || f.pll || f.dep || f.abort || f.holdup || f.safe

def State.fenced (s : State) (k : Nat) : Bool := (s.fence k).any

/-- The domain of region k is off, the device is in DOZE (13 R388), or a self-test program runs: an access returns DARK.
R487 says so while SHUTDOWN or STARTUP runs; that it holds while a program of BST_PROG_RUN runs too is a DESIGN CHOICE
(log entry 91). -/
def State.regionDark (s : State) (k : Nat) : Bool := !s.regionOn k || s.dozing || s.testing

/-- The region's fabric clocks run. -/
def State.regionRuns (s : State) (k : Nat) : Bool :=
  (s.mode == .boot || s.mode == .run) && s.regionOn k && s.loaded k && !s.fenced k && s.get .DEV_MODE_PHASE == 0

/-! ## Clock dependency (03 R100 to R103) -/

/-- The source of a line of quadrant q (Tables 3-6, 3-7): none for a global line that no FULL image has configured, which
is held low (R100), and for a line or an output that does not exist. -/
def State.lineSource (s : State) (q line : Nat) : Option ClockSource :=
  if h : line < 4 then some (.clkin ⟨line, h⟩)
  else if line = 4 then some .oscillator
  else if line < 8 then
    let b := SMap.look 0 s.fabric.globalLines line
    if b.testBit 7 && decide (bitsOf b 4 3 < 5) then some (.pll (Fin.ofNat 16 b) (Fin.ofNat 5 (bitsOf b 4 3))) else none
  else if line < 28 then some (.pll (Fin.ofNat 16 (4 * q + (line - 8) / 5)) (Fin.ofNat 5 (line - 8)))
  else if line < 32 then some (.recovered (Fin.ofNat 8 (2 * q + (line - 28) / 2)) (Fin.ofNat 2 line))
  else none

/-- The PLL behind a line of quadrant q. -/
def State.linePll (s : State) (q line : Nat) : Option Nat :=
  match s.lineSource q line with
  | some (.pll j _) => some j.val
  | _ => none

/-- Region k is clock-dependent on PLL j. -/
def State.dependsOn (s : State) (k j : Nat) : Bool :=
  k != j && s.loaded k && (List.range 16).any fun t => s.linePll (k / 4) (s.trackLine k t) == some j

/-- The source gives edges: a PLL while it is qualified and the output is enabled, a recovered clock while it runs (15
R439). What comes in at a pin, and the oscillator, are there when the command says so. -/
def State.sourceRuns (s : State) : ClockSource → Bool
  | .clkin _ | .oscillator => true
  | .pll j o =>
    s.flag .PLL_STAT_QUALIFIED j.val && (((SMap.look {} s.clocks.pll j.val).inForce.outs.getD o.val (0, false)).2)
  | .recovered q i => if i.val = 0 then s.flag .XCV_RCLK_RUN0 q.val else s.flag .XCV_RCLK_RUN1 q.val

/-- The source of regional track t of region k (R102). -/
def State.trackSource (s : State) (k t : Nat) : Option ClockSource := s.lineSource (k / 4) (s.trackLine k t)

/-- The port clock of region port p runs (R106, 15 R439). -/
def State.portClocked (s : State) (p : Nat) : Bool :=
  (s.trackSource (p / 4) (s.portTrack p)).any s.sourceRuns

/-! ## Pins (20 R532, Table 20-3) -/

def State.gioPin (s : State) (n : Nat) : GioPin := SMap.look {} s.fabric.gio n
def State.fioPin (s : State) (n : Nat) : FioPin := SMap.look {} s.fabric.fio n

def State.putGio (s : State) (n : Nat) (p : GioPin) : State :=
  { s with fabric := { s.fabric with gio := SMap.put {} s.fabric.gio n p } }

def State.putFio (s : State) (n : Nat) (p : FioPin) : State :=
  { s with fabric := { s.fabric with fio := SMap.put {} s.fabric.fio n p } }

def State.gioDisabled (s : State) (n : Nat) : Bool := s.bit .GIO_SHORT_DISABLED (n % 32) (n / 32)
def State.fioDisabled (s : State) (n : Nat) : Bool := s.bit .FIO_OUT_STAT_SHORT (n % 16) (n / 16)

/-- SAFE or HOLDUP holds every pin at its safe state, and so does an orderly OFF from its commit on (13 R393). -/
def State.safeStates (s : State) : Bool :=
  s.mode == .safe || s.mode == .holdup || s.power.orderly.any (·.committed)

/-- The region's pins keep their hold levels: fenced, DARK by its owner, or no image yet (Table 20-3 order 5). -/
def State.holds (s : State) (k : Nat) : Bool := s.fenced k || !s.regionOn k

def GioPin.lvds (p : GioPin) : Bool := p.settings.testBit 17

/-- The P side of pin n's pair, or pin n itself: pins nn and nn + 1 with nn even are a pair, nn its P side (R522). -/
def State.pairHead (s : State) (n : Nat) : Nat := if (s.gioPin (n - n % 2)).lvds then n - n % 2 else n

/-- What general output pin n drives (Table 20-3). JTAG drives it only in a failed boot or in BLANK (19 R510). -/
def State.gioLevel (s : State) (n : Nat) : PinLevel :=
  let p := s.gioPin n
  let b := n / 32
  if s.mode == .off || s.get .GIO_BANK_STAT_VCCIO b == 0 || s.flag .GIO_BANK_STAT_RAMPING b then .hiz
  else if s.gioDisabled n || p.malformed then .hiz
  else if s.failedBoot then p.jtag.getD .hiz
  else
      if s.safeStates then p.safe
      else if s.holds (regionOfGio n) then p.hold.getD p.held
      else p.design

/-- Whether field output pin n is on (Table 20-3). -/
def State.fioOn (s : State) (n : Nat) : Bool :=
  let p := s.fioPin n
  if s.mode == .off || !s.flag .FIO_GRP_STAT_VFIELD_OK (n / 16) || s.fioDisabled n then false
  else if s.failedBoot then p.jtag.getD false
  else
      if s.safeStates then false
      else if s.holds (regionOfFio n) then p.holdLast && p.held
      else p.design

/-- Field output n as it now stands: a switch-on of an INRUSH output opens its window (20 R527). -/
def State.showFio (s : State) (n : Nat) : State :=
  let on := s.fioOn n
  let s := if on && !s.bit .FIO_OUT_STAT_ON (n % 16) (n / 16) then
      s.putFio n { s.fioPin n with inrush := (s.fioPin n).settings.testBit 2 } else s
  s.putBit .FIO_OUT_STAT_ON (n % 16) on (n / 16)

/-- FIO_OUT_STAT.ON and the bank status bits follow the pins of region k. -/
def State.showPins (s : State) (k : Nat) : State :=
  let s := match bankOfRegion k with
    | none => s
    | some b =>
      (s.putFlag .GIO_BANK_STAT_HELD (!s.safeStates && s.holds k && s.coreOn) b).putFlag .GIO_BANK_STAT_SAFE_STATE
        s.safeStates b
  match fieldGroupOfRegion k with
  | none => s
  | some g => s.forEach ((List.range 16).map (16 * g + ·)) State.showFio

def State.showAllPins (s : State) : State := s.forEach (List.range 16) State.showPins

/-- The values driven at this instant go into the hold registers of region k (R115). -/
def State.capturePins (s : State) (k : Nat) : State :=
  let s := match bankOfRegion k with
    | none => s
    | some b => s.forEach ((List.range 32).map (32 * b + ·)) fun t n =>
        t.putGio n { t.gioPin n with held := s.gioLevel n }
  match fieldGroupOfRegion k with
  | none => s
  | some g => s.forEach ((List.range 16).map (16 * g + ·)) fun t n => t.putFio n { t.fioPin n with held := s.fioOn n }

/-! ## Boundary channels (03 R86 to R88)

The 24 edges are numbered by the model: c below 12 joins columns c mod 3 and c mod 3 + 1 of row ⌊c / 3⌋; c from 12 joins
rows ⌊(c − 12) / 4⌋ and the next of column (c − 12) mod 4. -/

def regionAt (row col : Nat) : Nat := ((List.range 16).find? fun k => gridOf k == (row, col)).getD 0

/-- The two regions of channel c, with the edge (0 N, 1 E, 2 S, 3 W) each has it on. -/
def channelSides (c : Nat) : (Nat × Nat) × (Nat × Nat) :=
  if c < 12 then ((regionAt (c / 3) (c % 3), 1), (regionAt (c / 3) (c % 3 + 1), 3))
  else ((regionAt ((c - 12) / 4) ((c - 12) % 4), 0), (regionAt ((c - 12) / 4 + 1) ((c - 12) % 4), 2))

/-- The conditions of R87. Two regions without an owner, whose parent reads 0x00, count as having the same parent:
DESIGN CHOICE (log entry 92). -/
def State.channelMayOpen (s : State) (c : Nat) : Bool :=
  let ((a, ea), (b, eb)) := channelSides c
  let fit := fun k e => s.loaded k && !s.fenced k && !s.regionDark k && s.channelEnabled k e
  fit a ea && fit b eb && s.parent a == s.parent b && s.coreOn

def State.channelOpen (s : State) (c : Nat) : Bool := SMap.look false s.fabric.channelOpen c

def State.putChannel (s : State) (c : Nat) (o : Bool) : State :=
  { s with fabric := { s.fabric with channelOpen := SMap.put false s.fabric.channelOpen c o } }

/-- Every open channel whose conditions fail closes (R87, R88). -/
def State.closeChannels (s : State) : State :=
  s.forEach (List.range 24) fun s c => if s.channelMayOpen c then s else s.putChannel c false

/-- The channel across edge `e` of region k, with the region on the other side and the edge it has it on. -/
def channelAt (k e : Nat) : Option (Nat × Nat × Nat) :=
  (List.range 24).findSome? fun c =>
    let ((a, ea), (b, eb)) := channelSides c
    if a = k && ea = e then some (c, b, eb) else if b = k && eb = e then some (c, a, ea) else none

/-- Incoming signal i of region k's channel across edge `e`, of 512 (R86): on an open channel a wire, on a closed one the
hold value of the receiving side (R87). -/
def State.channelSignal (s : State) (k e i : Nat) (driven : Bool) : Bool :=
  match channelAt k e with
  | none => false
  | some (c, _, _) =>
    if 512 ≤ i then false
    else if s.channelOpen c then driven
    else Config.channelHold (s.cells (peripheryFrame k (72 + e))) i

/-- CHAN_OPEN of region k's channel across edge `e` (R86). -/
def State.chanOpen (s : State) (k e : Nat) : Bool := (channelAt k e).any fun x => s.channelOpen x.1

/-! ## Region ports (03 R105 to R113) -/

def State.port (s : State) (p : Nat) : RegionPort := SMap.look {} s.ports p

def State.putPort (s : State) (p : Nat) (v : RegionPort) : State := { s with ports := SMap.put {} s.ports p v }

/-! ## Lanes of a region (15 R429, Table 15-3) -/

/-- The two lanes of region k. -/
def lanesOf (k : Nat) : List Nat := [8 * (k / 4) + 2 * (k % 4), 8 * (k / 4) + 2 * (k % 4) + 1]

def laneRegion (l : Nat) : Nat := 4 * (l / 8) + l % 8 / 2

def State.lane (s : State) (l : Nat) : Lane := SMap.look {} s.lanes l
def State.putLane (s : State) (l : Nat) (v : Lane) : State := { s with lanes := SMap.put {} s.lanes l v }

/-- A fabric lane: enabled and not held by an endpoint. -/
def State.fabricLane (s : State) (l : Nat) : Bool :=
  s.flag .XCV_LANE_CFG_EN l && !s.flag .XCV_LANE_STAT_HELD_PCIE l

/-- A running eye scan of lane l ends early (15 R440). -/
def State.abortScan (s : State) (l : Nat) : State :=
  if s.flag .XCV_EYE_RES_BUSY l then
    let s := s.spend.put .XCV_EYE_RES_ERRORS (Config.abortedScan s.freeCount).toNat l
    ((s.putFlag .XCV_EYE_RES_BUSY false l).putFlag .XCV_EYE_RES_DONE true l).putFlag .XCV_EYE_RES_ABORTED true l
  else s

/-- The lanes of a fenced region: TX idle, RX words discarded, scans ended. -/
def State.idleLanes (s : State) (k : Nat) : State :=
  s.forEach (lanesOf k) fun s l =>
    if s.flag .XCV_LANE_STAT_HELD_PCIE l then s
    else ((s.putFlag .XCV_LANE_STAT_TX_IDLE true l).abortScan l).putLane l { s.lane l with discard := true }

/-- The fence has lifted: RX words reach the design; TX resumes with the first word offered. -/
def State.resumeLanes (s : State) (k : Nat) : State :=
  s.forEach (lanesOf k) fun s l =>
    if s.flag .XCV_LANE_STAT_HELD_PCIE l then s else s.putLane l { s.lane l with discard := false }

/-! ## Applying and lifting a fence -/

/-! ### The crossing FIFO (R107) -/

/-- Outbound beats of INI_REQ and of TGT_RSP, inbound beats of INI_RSP and of TGT_REQ. -/
def RegionPort.iniBeats (r : RegionPort) : Nat := (r.opened.map (·.beats.length)).getD 0
def RegionPort.ansBeats (r : RegionPort) : Nat := (r.answering.map (·.length)).getD 0
def RegionPort.rspBeats (r : RegionPort) : Nat := (r.rsp.map fun a => a.beats.length - a.sent).sum
def RegionPort.reqBeats (r : RegionPort) : Nat := (r.req.map (·.2)).sum

/-- Entries left for INI_REQ: 24 are shared, less what TGT_RSP uses beyond its own 8. -/
def RegionPort.iniRoom (r : RegionPort) : Nat := 24 - (r.iniBeats + (r.ansBeats - 8))

/-- Entries left for TGT_RSP: its own 8 and what is free of the shared 24. -/
def RegionPort.ansRoom (r : RegionPort) : Nat := 8 + (24 - r.iniBeats) - r.ansBeats

/-- Entries left for TGT_REQ: 24 are shared, less what INI_RSP uses beyond its own 8. -/
def RegionPort.reqRoom (r : RegionPort) : Nat := 24 - (r.reqBeats + (r.rspBeats - 8))

/-- What a fence discards out of port p's crossing FIFO (R112 items 3 and 5, R113 item 4). -/
def State.discardFifo (s : State) (p : Nat) : State :=
  let r := s.port p
  let s := s.bump .SPN_RP_DISC_REQ_DISC p r.iniBeats
  let s := s.bump .SPN_RP_TGT_TGT_DISC p r.ansBeats
  let s := s.bump .SPN_RP_DISC_RSP_DISC p r.rsp.length
  s.putPort p { r with opened := none, answering := none, rsp := [], req := [] }

/-- The requests a region holds without having answered end with DARK (R112 item 1, R224). -/
def State.darkInFlight (s : State) (k : Nat) : State :=
  (s.spine.taken.filter fun t => decide (portOf t.addr < 64) && portOf t.addr / 4 == k && !t.lost).foldl
    State.answerDark s

/-- Requests of region k's ports: those without a credit are removed and counted, the others become stale (R224). -/
def State.discardRequests (s : State) (k : Nat) : State :=
  let mine := fun t : Txn => decide (t.src < 64) && t.src / 4 == k
  let s := s.forEach ((List.range 4).map (4 * k + ·)) fun s p =>
    s.bump .SPN_RP_DISC_REQ_DISC p (s.spine.waiting.filter (·.src == p)).length
  let sp := { s.spine with waiting := s.spine.waiting.filter fun t => !mine t }
  { s with spine := sp.mark mine }

/-- What R112 to R114 and R224 do to a region at the instant its first cause appears. -/
def State.fenceEffects (s : State) (k : Nat) : State :=
  let s := (s.darkInFlight k).discardRequests k
  let s := s.forEach ((List.range 4).map (4 * k + ·)) State.discardFifo
  (s.idleLanes k).closeChannels

/-- A cause is added to region k's. -/
def State.addFence (s : State) (k : Nat) (f : Fences → Fences) : State :=
  if s.fenced k then (s.putFence k (f (s.fence k))).showPins k
  else
    let s := s.capturePins k
    (((s.putFence k (f (s.fence k))).fenceEffects k)).showPins k

/-- Each enabled port of region k asks for a resynchronisation (R113). -/
def State.resyncPorts (s : State) (k : Nat) : State :=
  s.forEach ((List.range 4).map (4 * k + ·)) fun s p =>
    let r := s.port p
    if r.iniOn || r.tgtOn then s.putPort p { r with resync := true } else s

/-- A cause clears; with the last of them the fence lifts (R111, R113). -/
def State.clearFence (s : State) (k : Nat) (f : Fences → Fences) : State :=
  if !s.fenced k then s
  else
    let s := s.putFence k (f (s.fence k))
    if s.fenced k then s.showPins k else ((s.resyncPorts k).resumeLanes k).showPins k

/-- Every region with a cause added. -/
def State.fenceAll (s : State) (f : Fences → Fences) : State := s.forEach (List.range 16) fun s k => s.addFence k f

/-- The regions that PLL j's gating fences: its own with one cause, its dependents with the other (R103, R111). -/
def State.fenceByPll (s : State) (j : Nat) : State :=
  let s := s.addFence j fun f => { f with pll := true }
  s.forEach ((List.range 16).filter fun k => s.dependsOn k j) fun s k => s.addFence k fun f => { f with dep := true }

/-- PLL j runs qualified. -/
def State.pllQualified (s : State) (j : Nat) : Bool := s.flag .PLL_STAT_QUALIFIED j

/-- Region k, loaded, depends on a PLL that does not run qualified: the dependency cause of Table 3-11. -/
def State.awaitsPll (s : State) (k : Nat) : Bool := (List.range 16).any fun i => s.dependsOn k i && !s.pllQualified i

/-- PLL j has qualified: its own region's cause clears, and the dependency cause of each region all of whose PLLs are
qualified. -/
def State.unfenceByPll (s : State) (j : Nat) : State :=
  let s := s.clearFence j fun f => { f with pll := false }
  s.forEach (List.range 16) fun s k =>
    if (s.fence k).dep && !s.awaitsPll k then
      s.clearFence k fun f => { f with dep := false }
    else s

end Sys2Proof.Machine
end

