-- ==== Sys2Proof/Machine/MailOps.lean ====
section
/-! DEFINITION. The operations of the mailboxes: opcode index, packet framing, the checks before a command, replies,
MSI-X messages (spec/02, spec/22). -/

namespace Sys2Proof.Machine

set_option Elab.async false

/-! ## Status codes (22 R564, Table 22-4) -/

namespace St
def ok : Nat := 0x0000
def busy : Nat := 0x0001
def badOpcode : Nat := 0x0002
def badParam : Nat := 0x0003
def notOwner : Nat := 0x0004
def lifecycleDenied : Nat := 0x0005
def energyRefused : Nat := 0x0006
def poweredDown : Nat := 0x0007
def timeout : Nat := 0x0008
def authFail : Nat := 0x0009
def idMismatch : Nat := 0x000A
def truncated : Nat := 0x000B
def frameOutOfRegion : Nat := 0x000C
def worn : Nat := 0x000D
def unstable : Nat := 0x000E
def suspendedErase : Nat := 0x000F
def poisoned : Nat := 0x0010
def narrowWrite : Nat := 0x0011
def hopLimit : Nat := 0x0012
def queueFull : Nat := 0x0013
def safeMode : Nat := 0x0014
def incomplete : Nat := 0x0015
def pllNoband : Nat := 0x0016
end St

/-! ## Life-cycle states (Table 19-1) -/

def lcBlank : Nat := 0x1
def lcProvisioned : Nat := 0x3
def lcDeployed : Nat := 0x7
def lcReturned : Nat := 0xF

def State.lc (s : State) : Nat := s.get .DEV_LC_STATE

/-! ## The command index (22 R557 to R561, Tables 22-1 and 22-2) -/

/-- The fixed roles of 22 R559. -/
inductive Role | any | admin | adminOrSpi | spi | spiInBlank
  deriving DecidableEq, Repr

/-- Where a command runs besides RUN: not in BOOT, in a failed boot only, or in any BOOT. -/
inductive InBoot | never | failed | always
  deriving DecidableEq, Repr

/-- A row of Table 22-1: permitted lengths, largest reply in entries, fixed role, life-cycle states, modes, and
whether R393 holds it back while an orderly OFF is pending. -/
structure OpInfo where
  minL : Nat
  maxL : Nat
  room : Nat := 1
  role : Role := .any
  states : List Nat := [lcProvisioned, lcDeployed, lcReturned]
  boot : InBoot := .never
  safe : Bool := false
  held : Bool := false
  deriving DecidableEq, Repr

/-- Table 22-1, with the reply room of Table 22-2; `lc` decides the length of LC_KEY_SET. -/
def opInfo (lc : Nat) (op : Nat) : Option OpInfo :=
  let every := [lcBlank, lcProvisioned, lcDeployed, lcReturned]
  let pd := [lcProvisioned, lcDeployed]
  match op with
  | 0x00 => some { minL := 0, maxL := 254, room := 16, states := every, boot := .always, safe := true }
  | 0x01 => some { minL := 1, maxL := 1, role := .admin, states := every, boot := .failed, safe := true, held := true }
  | 0x02 => some { minL := 1, maxL := 1, role := .admin, held := true }
  | 0x0E => some { minL := 0, maxL := 0, states := every, boot := .always, safe := true }
  | 0x0F => some { minL := 4, maxL := 4, role := .admin, states := pd, boot := .always, held := true }
  | 0x10 => some { minL := 1, maxL := 1, room := 13, boot := .failed, safe := true }
  | 0x11 => some { minL := 2, maxL := 2, states := pd, held := true }
  | 0x12 => some { minL := 2, maxL := 2, role := .admin, states := pd, boot := .failed, held := true }
  | 0x13 => some { minL := 5, maxL := 5, role := .admin, states := pd, boot := .failed, held := true }
  | 0x14 => some { minL := 1, maxL := 1, role := .admin, states := pd, boot := .failed, held := true }
  | 0x15 => some { minL := 1, maxL := 1, role := .admin, states := pd, boot := .failed, held := true }
  | 0x16 => some { minL := 1, maxL := 1, role := .admin, states := pd, boot := .failed, held := true }
  | 0x17 => some { minL := 1, maxL := 1, states := pd, boot := .failed, held := true }
  | 0x18 => some { minL := 1, maxL := 1, room := 2 }
  | 0x20 => some { minL := 4, maxL := 4, safe := true }
  | 0x21 => some { minL := 4, maxL := 4 }
  | 0x22 => some { minL := 1, maxL := 1 }
  | 0x23 => some { minL := 0, maxL := 0, held := true }
  | 0x24 => some { minL := 1, maxL := 1, room := 13, safe := true }
  | 0x25 => some { minL := 1, maxL := 1, safe := true }
  | 0x26 => some { minL := 5, maxL := 5, held := true }
  | 0x27 => some { minL := 1, maxL := 1, held := true }
  | 0x28 => some { minL := 1, maxL := 1, role := .admin, held := true }
  | 0x30 => some { minL := 0, maxL := 0, role := .admin, held := true }
  | 0x31 => some { minL := 1, maxL := 1, states := pd, held := true }
  | 0x32 => some { minL := 1, maxL := 1, states := pd, held := true }
  | 0x33 => some { minL := 1, maxL := 1, role := .admin, held := true }
  | 0x40 => some { minL := 1, maxL := 1, safe := true }
  | 0x41 => some { minL := 3, maxL := 3, safe := true }
  | 0x42 => some { minL := 0, maxL := 0, role := .adminOrSpi }
  | 0x50 => some { minL := 1, maxL := 1, held := true }
  | 0x51 => some { minL := 4, maxL := 4, role := .admin, held := true }
  | 0x60 => some { minL := 1, maxL := 1, boot := .always }
  | 0x70 => some { minL := 0, maxL := 0, room := 4, boot := .always, safe := true }
  | 0x71 => some { minL := 2, maxL := 2, states := pd }
  | 0x72 => some { minL := 0, maxL := 0, room := 4, boot := .always, safe := true }
  | 0x73 => some { minL := 53, maxL := 53, role := .admin, states := pd, held := true }
  | 0x80 => some { minL := 8, maxL := 8 }
  | 0x81 => some { minL := 8, maxL := 8, held := true }
  | 0x82 => some { minL := 1, maxL := 1 }
  | 0x90 => some { minL := 0, maxL := 0, states := every, boot := .always, safe := true }
  | 0xA0 => some { minL := 82, maxL := 82, states := [lcBlank, lcProvisioned, lcDeployed], boot := .failed, held := true }
  | 0xA1 =>
    let l := if lc = lcBlank then 13 else 82
    some { minL := l, maxL := l, role := .spiInBlank, states := [lcBlank, lcProvisioned, lcDeployed], boot := .failed }
  | 0xA2 => some { minL := 82, maxL := 82, states := pd, boot := .failed }
  | 0xA3 => some { minL := 8, maxL := 8, role := .spi, states := [lcBlank, lcProvisioned], boot := .failed }
  | 0xA4 => some { minL := 4, maxL := 4, states := [lcProvisioned], boot := .failed, held := true }
  | 0xA5 => some { minL := 0, maxL := 0, states := [lcProvisioned], boot := .failed, held := true }
  | _ => none

/-- A fixed role holds for the sender's own owner ID (22 R559). -/
def State.hasRole (s : State) (r : Role) (o : Nat) : Bool :=
  match r with
  | .any => true
  | .admin => s.isAdmin o
  | .adminOrSpi => s.isAdmin o || o == 0x14
  | .spi => o == 0x14
  | .spiInBlank => s.lc != lcBlank || o == 0x14

/-! ## Rings (02 R62 to R65) -/

/-- The owner of mailbox m (02 R62). -/
def mailOwner (m : Nat) : Nat := if m = 4 then 0x14 else 0x10 + m

/-- Entries of a packet or reply of `l` words: ⌈(8 + 4 l) / 64⌉ (02 R63). -/
def entries (l : Nat) : Nat := (8 + 4 * l + 63) / 64

/-- `n` words of mailbox m's request ring from the start of the entry counted `at0`, wrapping at 256 entries. -/
def State.requestWords (s : State) (m at0 n : Nat) : List Word :=
  (List.range n).map fun i => SMap.look 0 s.mail.request (4096 * m + (16 * at0 + i) % 4096)

def State.occupancy (s : State) (m : Nat) : Nat :=
  (s.get .MBX_REQ_TAIL_TAIL m + 65536 - s.get .MBX_REQ_HEAD_HEAD m) % 65536

/-- L of the next packet's header, in bitsOf 39 to 32 (Table 2-6). -/
def State.nextL (s : State) (m : Nat) : Nat :=
  ((s.requestWords m (s.get .MBX_REQ_HEAD_HEAD m) 2).getD 1 0).toNat % 256

def State.nextOpcode (s : State) (m : Nat) : Nat :=
  ((s.requestWords m (s.get .MBX_REQ_HEAD_HEAD m) 1).getD 0 0).toNat % 256

/-- MBX_STAT.PARTIAL: the next packet needs entries beyond TAIL. -/
def State.partialPacket (s : State) (m : Nat) : Bool :=
  decide (0 < s.occupancy m) && decide (s.occupancy m < entries (s.nextL m))

def State.replyRoom (s : State) (m : Nat) : Nat :=
  256 - (s.get .MBX_RSP_TAIL_TAIL m + 65536 - s.get .MBX_RSP_HEAD_HEAD m) % 65536

/-- The room R65 requires before a packet starts (22 R561). -/
def State.roomNeeded (s : State) (op : Nat) : Nat := ((opInfo s.lc op).map (·.room)).getD 1

def State.running (s : State) (m : Nat) : Option Packet := SMap.look none s.mail.running m

def State.setRunning (s : State) (m : Nat) (p : Option Packet) : State :=
  { s with mail := { s.mail with running := SMap.put none s.mail.running m p } }

def State.clearingMail (s : State) (m : Nat) : Bool := SMap.look false s.mail.clearing m

/-- A complete packet stands at HEAD of a mailbox that runs none (02 R64, R70). -/
def State.packetWaits (s : State) (m : Nat) : Bool :=
  (s.running m).isNone && !s.clearingMail m && decide (0 < s.occupancy m) &&
    decide (entries (s.nextL m) ≤ s.occupancy m)

/-- MBX_STAT.RSP_WAIT: the next packet waits for reply room only. -/
def State.replyWait (s : State) (m : Nat) : Bool :=
  s.packetWaits m && decide (s.replyRoom m < s.roomNeeded (s.nextOpcode m))

/-! ## MSI-X (02 R50, Table 2-2) -/

/-- A word of endpoint k's MSI-X table. The vector control words reset to 1, masked, as PCIe Base 5.0 has them. -/
def State.msixWord (s : State) (k w : Nat) : Word :=
  SMap.look 0 s.hosts.msixTable (8192 * k + w) ^^^ (if w % 4 = 3 then 1 else 0)

def State.putMsixWord (s : State) (k w : Nat) (v : Word) : State :=
  { s with hosts := { s.hosts with
      msixTable := SMap.put 0 s.hosts.msixTable (8192 * k + w) (v ^^^ (if w % 4 = 3 then 1 else 0)) } }

/-- Vector `v` of endpoint k: sent, or its PBA bit set while it is masked (10 R302). -/
def State.sendMsix (s : State) (k v : Nat) : State :=
  if (s.msixWord k (4 * v + 3)).getLsbD 0 then
    { s with hosts := { s.hosts with pba := SMap.put false s.hosts.pba (2048 * k + v) true } }
  else
    let n := SMap.look 0 s.hosts.msixSent (2048 * k + v)
    { s with hosts := { s.hosts with msixSent := SMap.put 0 s.hosts.msixSent (2048 * k + v) (n + 1) } }

/-! ## Replies (02 R65 to R68) -/

/-- A reply's words: the header of Table 2-7 and the results. -/
def replyWords (p : Packet) (status : Nat) (results : List Word) : List Word :=
  BitVec.ofNat 32 (p.seq + 2 ^ 16 * status) ::
    BitVec.ofNat 32 (results.length + 2 ^ 8 * p.opcode) :: results

/-- Writes words into mailbox m's reply ring from the start of the entry counted `at0`. -/
def State.putReply (s : State) (m at0 : Nat) (ws : List Word) : State :=
  let ring := (ws.zipIdx).foldl (fun r wi =>
    SMap.put (0 : Word) r (4096 * m + (16 * at0 + wi.2) % 4096) wi.1) s.mail.reply
  { s with mail := { s.mail with reply := ring } }

/-- The reply of packet `p` of mailbox m, which then runs nothing. A discarded reply is counted (Table 2-9); in
HOLDUP and OFF none is written (02 R71), and none by a halted MGC (01 R28). -/
def State.replyTo (s : State) (m : Nat) (p : Packet) (status : Nat) (results : List Word) : State :=
  if s.power.mgcHalted then s
  else
  let s := s.setRunning m none
  if p.discard then s.bump .MBX_STAT_DISCARDS m
  else if s.mode == .holdup || s.mode == .off then s
  else
    let t := s.get .MBX_RSP_TAIL_TAIL m
    let s := (s.putReply m t (replyWords p status results)).put .MBX_RSP_TAIL_TAIL (t + entries results.length) m
    if p.irq && decide (m < 4) && s.flag .MBX_CTL_IRQ_EN m then s.sendMsix m 0 else s

/-- The reply of the packet that mailbox m runs. -/
def State.reply (s : State) (m status : Nat) (results : List Word := []) : State :=
  match s.running m with
  | some p => s.replyTo m p status results
  | none => s

/-- A command's row takes effect only when its packet is the one the mailbox runs and nothing is awaited, while the MGC
runs: not in DOZE or while it is entered, in HOLDUP, once an orderly commit has begun or after the MGC has halted (02 R71,
13 R388, R393, 01 R28). A command that SAFE does not permit, and that SAFE overtook, returns SAFE_MODE. -/
def State.command (s : State) (m opcode : Nat) (f : Packet → State) : State :=
  match s.running m with
  | none => s
  | some p =>
    if !(p.opcode = opcode && p.wait == .nothing) || s.power.mgcHalted || s.power.orderly.any (·.committed) ||
        s.get .DEV_MODE_PHASE == 1 then s
    else match s.mode with
      | .boot | .run => f p
      | .safe => if (opInfo s.lc opcode).any (·.safe) then f p else s.replyTo m p St.safeMode []
      | _ => s

/-- The packet of mailbox m goes on waiting for `w`. -/
def State.await (s : State) (m : Nat) (p : Packet) (w : Wait) : State := s.setRunning m (some { p with wait := w })

/-- Answers every packet that waits for `w`. -/
def State.replyWaiting (s : State) (w : Wait) (status : Nat) (results : State → Packet → List Word) : State :=
  s.forEach (List.range 5) fun s m =>
    match s.running m with
    | some p => if p.wait == w then s.replyTo m p status (results s p) else s
    | none => s

/-- A 48-bit or 64-bit value as two words, low word first. -/
def twoWords (n : Nat) : List Word := [BitVec.ofNat 32 n, BitVec.ofNat 32 (n / 2 ^ 32)]

/-- Parameter word `i` of a packet. -/
def Packet.p (p : Packet) (i : Nat) : Nat := (p.params.getD i 0).toNat

/-- The 64-bit value of parameter words `i` and `i + 1`, low word first. -/
def Packet.p64 (p : Packet) (i : Nat) : Nat := p.p i + 2 ^ 32 * p.p (i + 1)

/-- A refusal by the ledger as a command's reply. -/
def State.replyEnergyRefused (s : State) (m c : Nat) : State :=
  (s.refuseEnergy c).reply m St.energyRefused

/-- A refusal of a mode or power request as a command's reply (13 R398). -/
def State.replyRefusal (s : State) (m request reason refuser index : Nat) : State :=
  (s.recordRefusal request reason refuser index).reply m (if reason = 1 then St.energyRefused else St.busy)
    [BitVec.ofNat 32 (refusalWord refuser reason request index false)]

/-! ## The checks before a command (02 R69 checks 1 to 6, 08 R237, 13 R393) -/

/-- The owner a packet acts for, or the status of check 4. -/
def State.checkTarget (s : State) (sender target : Nat) (role : Role) : Nat × Nat :=
  if target ≠ 0 && !ownerDefined target then (St.badParam, 0)
  else
    let acts :=
      if target = 0 || target = sender then some sender
      else if (isRegion target || isGroup target) && s.top target == sender then some sender
      else if s.isAdmin sender && s.absent target then some (s.top target)
      else none
    match acts with
    | none => (St.notOwner, 0)
    | some a => if s.hasRole role sender then (St.ok, a) else (St.notOwner, 0)

/-- Checks 1 to 6 of R69 for a packet with header words `h0`, `h1`: the status, and the packet to run. -/
def State.checkPacket (s : State) (m : Nat) (h0 h1 : Nat) (params : List Word) : Nat × Packet :=
  let l := bitsOf h1 0 8
  let p : Packet :=
    { opcode := bitsOf h0 0 8, irq := h0.testBit 8, seq := bitsOf h0 16 16, params := params, acts := mailOwner m }
  if l = 255 || bitsOf h0 9 7 ≠ 0 || bitsOf h1 16 16 ≠ 0 then (St.badParam, p)
  else match opInfo s.lc p.opcode with
    | none => (St.badOpcode, p)
    | some i =>
      if l < i.minL || i.maxL < l then (St.badParam, p)
      else
        let (st, acts) := s.checkTarget (mailOwner m) (bitsOf h1 8 8) i.role
        let p := { p with acts, target := bitsOf h1 8 8 }
        if st ≠ St.ok then (st, p)
        else if !i.states.contains s.lc then (St.lifecycleDenied, p)
        else if s.mode == .safe && !i.safe then (St.safeMode, p)
        else if s.mode == .boot && !(i.boot == .always || (i.boot == .failed && s.failedBoot)) then (St.busy, p)
        else if s.power.orderly.isSome && i.held then (St.busy, p)
        else (St.ok, p)

/-- The mailbox the MGC serves next: the first after the last served that has a packet it can start (02 R70). -/
def State.nextMailbox (s : State) : Option Nat :=
  ((List.range 5).map fun i => (s.mail.last + 1 + i) % 5).find? fun m => s.packetWaits m && !s.replyWait m

/-- The MGC takes packets: in BOOT, RUN and SAFE, not while entering DOZE, not once an orderly commit has started, and
not after it has halted (02 R71, 13 R388, R393, 01 R28). -/
def State.takesPackets (s : State) : Bool :=
  (s.mode == .boot || s.mode == .run || s.mode == .safe) && s.get .DEV_MODE_PHASE != 1 && !s.power.mgcHalted &&
    !(s.power.orderly.any (·.committed))

end Sys2Proof.Machine
end

