-- ==== Sys2Proof/Machine/ClockOps.lean ====
section
/-! DEFINITION. Fabric PLLs, the timebase and its alarms as operations on the state (spec/14), and how a control register
write ends (00 R8, R16; 01 R46). -/

namespace Sys2Proof.Machine

set_option Elab.async false

/-! ## Control register writes -/

/-- How a write to a control register ends: it took effect; the writer has no right to it (NOTOWN); its value is
rejected per R8 (DECERR, CAUSE 1), with what the rejection itself records; or its offset is dark while a mailbox is
being cleared (02 Table 2-9). -/
inductive Wrote
  | took (s : State)
  | notOwner (s : State)
  | rejected (s : State)
  | dark
  deriving DecidableEq, Repr

/-- The state after a write, and its response; a rejection is captured as 01 R44 states. -/
def State.finishWrite (s : State) (owner addr : Nat) : Wrote → State × Resp
  | .took t => (t, .ok)
  | .notOwner t => (t, .notown)
  | .rejected t => (t.captureDecerr owner (0x3_0000_0000 + addr) true true, .decerr)
  | .dark => (s.countDark, .dark)

/-- The parent of region k, or ADMIN while that parent is absent (08 R236). -/
def State.controlsRegion (s : State) (k o : Nat) : Bool :=
  o == s.parent k || (s.isAdmin o && s.absent (s.parent k))

/-! ## PLL configurations (14 R408, R409) -/

def State.pll (s : State) (k : Nat) : Pll := SMap.look {} s.clocks.pll k

def State.putPll (s : State) (k : Nat) (p : Pll) : State :=
  { s with clocks := { s.clocks with pll := SMap.put {} s.clocks.pll k p } }

/-- The staged values of PLL k. -/
def State.stagedPll (s : State) (k : Nat) : PllSetting :=
  { refsel := s.get .PLL_REF_REFSEL k
    khz := s.get .PLL_REF_FREQ_KHZ k
    m := s.get .PLL_CFG_M k
    n := s.get .PLL_CFG_N k
    outs := (List.range 5).map fun o => (s.get .PLL_OUT_DIV (5 * k + o), s.flag .PLL_OUT_EN (5 * k + o)) }

def State.stagePll (s : State) (k : Nat) (c : PllSetting) : State :=
  let s := (s.put .PLL_REF_REFSEL c.refsel k).put .PLL_REF_FREQ_KHZ c.khz k
  let s := (s.put .PLL_CFG_M c.m k).put .PLL_CFG_N c.n k
  s.forEach (List.range 5) fun s o =>
    let d := c.outs.getD o (16, false)
    (s.put .PLL_OUT_DIV d.1 (5 * k + o)).putFlag .PLL_OUT_EN d.2 (5 * k + o)

/-- The dividers of the enabled outputs. -/
def PllSetting.dividers (c : PllSetting) : List Nat := (c.outs.filter (·.2)).map (·.1)

/-- The first range of R408 that fails, as its LAST_ERR code; 0 when every range holds. All comparisons are exact. -/
def PllSetting.rangeError (c : PllSetting) : Nat :=
  if 9 ≤ c.refsel || c.khz < 10000 || 400000 < c.khz then 5
  else if c.m < 1 || 40 < c.m || c.n < 30 || 600 < c.n || c.dividers.any (fun d => d < 2 || 512 < d) then 6
  else if c.khz < 10000 * c.m || 100000 * c.m < c.khz then 2
  else if c.khz * c.n < 3000000 * c.m || 6000000 * c.m < c.khz * c.n then 3
  else if c.dividers.any (fun d => 800000 * c.m * d < c.khz * c.n) then 4
  else 0

/-- TMB_CORR as a signed number. -/
def State.correction (s : State) : Int := (BitVec.ofNat 32 (s.get .TMB_CORR_PPB)).toInt

/-- The calibrated frequency of a configuration's reference as a fraction of kilohertz (R406, R407): the reference
oscillator's own, which a correction of c parts per 10^9 on its period makes 10^14 / (10^9 + c) kHz; or the measured one;
the declared one where nothing has measured the source yet (DEDUCED, log entry 20). -/
def State.calibrated (s : State) (k : Nat) (c : PllSetting) : Nat × Nat :=
  if c.refsel = 0 then (10 ^ 14, (10 ^ 9 + s.correction).toNat)
  else if (s.pll k).inForce.refsel = c.refsel && s.flag .PLL_MEAS_PRESENT k then (s.get .PLL_MEAS_REF_KHZ k, 1)
  else (c.khz, 1)

/-- Entry `b` of PLL k's band table covers the VCO frequency `num / den` kHz (R409). -/
def State.bandCovers (s : State) (k b num den : Nat) : Bool :=
  let lo := s.get .PLL_BAND_FMIN_MHZ (32 * k + b)
  let hi := s.get .PLL_BAND_FMAX_MHZ (32 * k + b)
  hi ≠ 0 && decide (lo ≤ hi) && decide (lo * 1000 * den ≤ num) && decide (num ≤ hi * 1000 * den)

/-- The lowest-numbered band that covers a configuration's VCO frequency, judged on a reference frequency, and that
frequency in whole kilohertz. -/
def State.chooseBand (s : State) (k : Nat) (c : PllSetting) (f : Nat × Nat) : Option (Nat × Nat) :=
  ((List.range 32).find? fun b => s.bandCovers k b (f.1 * c.n) (f.2 * c.m)).map fun b => (b, f.1 * c.n / (f.2 * c.m))

/-- Step 1 of Table 14-4: the LAST_ERR code, or the band and its VCO frequency. -/
def State.checkPll (s : State) (k : Nat) (c : PllSetting) (f : Nat × Nat) : Nat × Nat × Nat :=
  if c.rangeError ≠ 0 then (c.rangeError, 0, 0)
  else match s.chooseBand k c f with
    | none => (1, 0, 0)
    | some (b, v) => (0, b, v)

/-! ## PLL states (R412 to R416) -/

/-- PLL k is powered or not. -/
def State.powerPll (s : State) (k : Nat) (b : Bool) : State :=
  (s.putFlag .PLL_STAT_POWERED b k).putBit .PWR_DOMAINS_PLL_ON k b

/-- The outputs are gated, in PLL_STAT.STATE `st`. -/
def State.gatePll (s : State) (k st : Nat) : State :=
  let s := (s.putFlag .PLL_STAT_LOCKED false k).putFlag .PLL_STAT_QUALIFIED false k
  (s.putFlag .PLL_STAT_GATED true k).put .PLL_STAT_STATE st k

/-- Acquisition begins, after a full window of presence where `window` says so. -/
def State.acquirePll (s : State) (k : Nat) (window : Bool) : State :=
  (s.gatePll k (if window then 1 else 2)).putPll k { s.pll k with window := window }

/-- The reference monitor starts again from an empty window (R407). -/
def State.restartMonitor (s : State) (k : Nat) : State := s.putFlag .PLL_MEAS_PRESENT false k

/-- PLL k is powered down. -/
def State.stopPll (s : State) (k : Nat) : State :=
  ((s.gatePll k 0).powerPll k false).putPll k { s.pll k with counted := false, window := false }

/-- A band and its VCO frequency come into force. -/
def State.setBand (s : State) (k b v : Nat) : State :=
  (s.put .PLL_STAT_BAND b k).put .PLL_VCO_VCO_KHZ v k

/-- A configuration in force starts from power-up (R407, R411); its region and those that depend on the PLL are fenced until
it is qualified (03 R103, R111). -/
def State.powerUpPll (s : State) (k : Nat) : State :=
  let s := (s.powerPll k true).restartMonitor k
  let s := s.putPll k { s.pll k with counted := false }
  (s.acquirePll k true).fenceByPll k

/-- A start with a new configuration: from the PLL boot record (R411), or one that waited for power-up (R427). One that
fails its check, or that enables no output, leaves the PLL powered down. -/
def State.startPll (s : State) (k : Nat) (c : PllSetting) : State :=
  let (err, b, v) := s.checkPll k c (s.calibrated k c)
  if err ≠ 0 then
    let s := (s.put .PLL_STAT_LAST_ERR err k).logEvent 0x0802 k err (0x20 + k)
    ((s.stopPll k).putPll k { inForce := c, unusable := true }).fenceByPll k
  else
    let s := (s.setBand k b v).putPll k { inForce := c }
    if c.dividers.isEmpty then s.stopPll k else s.powerUpPll k

/-- PLL k at the power-up of its region (R385, R417): what waited for it, or else what is in force. -/
def State.regionPll (s : State) (k : Nat) : State :=
  match (s.pll k).forPowerUp with
  | some c => s.startPll k c
  | none =>
    if (s.pll k).unusable || (s.pll k).inForce.dividers.isEmpty then s else s.powerUpPll k

/-- Steps 2 and 3 of Table 14-4 with a configuration that passed step 1 (R416). -/
def State.applyPll (s : State) (k : Nat) (c : PllSetting) (b v : Nat) : State :=
  let window := decide ((s.pll k).inForce.refsel ≠ c.refsel) || !s.flag .PLL_STAT_POWERED k || (s.pll k).window
  let s := (s.put .PLL_STAT_LAST_ERR 0 k).setBand k b v
  let s := (s.fenceByPll k).powerPll k true
  let s := s.putPll k { s.pll k with inForce := c, forPowerUp := none, counted := false, unusable := false }
  (if window then s.restartMonitor k else s).acquirePll k window

/-- An APPLY of a setting (R416): outside RUN it is rejected; a failing step 1 sets LAST_ERR and changes nothing else; a
DARK region's PLL keeps it for power-up, judged on the declared frequency (R427); otherwise the change begins. -/
def State.tryPll (s : State) (k : Nat) (c : PllSetting) : Wrote :=
  let dark := !s.regionOn k
  let (err, b, v) := s.checkPll k c (if dark then (c.khz, 1) else s.calibrated k c)
  if s.mode != .run then .rejected s
  else if err ≠ 0 then .rejected (s.put .PLL_STAT_LAST_ERR err k)
  else if dark then .took ((s.put .PLL_STAT_LAST_ERR 0 k).putPll k { s.pll k with forPowerUp := some c, unusable := false })
  else .took (s.applyPll k c b v)

/-- The staged values differ from those in force (PLL_STAT.STAGED). -/
def State.pllStaged (s : State) (k : Nat) : Bool := decide (s.stagedPll k ≠ (s.pll k).inForce)

/-- The PLL_STAT word. -/
def State.pllStat (s : State) (k : Nat) : Nat :=
  (s.putFlag .PLL_STAT_STAGED (s.pllStaged k) k).regValue .PLL_STAT k

/-- A write to PLL_CFG[k] (R416, R428): a rejected APPLY writes no divider either (00 R8). -/
def State.writePllCfg (s : State) (k o v : Nat) : Wrote :=
  if !s.controlsRegion k o then .notOwner s
  else
    let put := fun t : State => (t.put .PLL_CFG_M (bitsOf v 0 6) k).put .PLL_CFG_N (bitsOf v 8 10) k
    if v.testBit 31 then
      match (put s).tryPll k ((put s).stagedPll k) with
      | .rejected t => .rejected (s.put .PLL_STAT_LAST_ERR (t.get .PLL_STAT_LAST_ERR k) k)
      | w => w
    else .took (put s)

/-! ## The PLL boot record (R411) -/

/-- The entry of PLL k in a set of 512 bytes; the default where the set is absent. -/
def bootPll (set : List Byte) (k : Nat) : PllSetting :=
  if set.length < 512 then { outs := (16, true) :: List.replicate 4 (16, false) }
  else
    let w := fun i => ofLe ((set.drop (32 * k + 4 * i)).take 4)
    { refsel := bitsOf (w 0) 0 4, khz := bitsOf (w 0) 4 19, m := bitsOf (w 1) 0 6, n := bitsOf (w 1) 8 10
      outs := (List.range 5).map fun o => (bitsOf (w (2 + o)) 0 10, (w (2 + o)).testBit 16) }

/-- Every PLL starts from a set of the boot record. -/
def State.startPlls (s : State) (set : List Byte) : State :=
  s.forEach (List.range 16) fun s k => (s.stagePll k (bootPll set k)).startPll k (bootPll set k)

/-- The bytes of an entry (R411). -/
def PllSetting.bytes (c : PllSetting) : List Byte :=
  leBytes 4 (c.refsel + 16 * c.khz) ++ leBytes 4 (c.m + 256 * c.n) ++
    c.outs.flatMap (fun o => leBytes 4 (o.1 + 65536 * o.2.toNat)) ++ leBytes 4 0

/-- The band table of PLL k from the factory record (R410). -/
def State.loadBands (s : State) (k : Nat) : State :=
  s.forEach (List.range 32) fun s b =>
    let w := (Config.factoryBand k b).toNat
    ((s.put .PLL_BAND_FMIN_MHZ (bitsOf w 0 13) (32 * k + b)).put .PLL_BAND_FMAX_MHZ (bitsOf w 13 13) (32 * k + b)).put
      .PLL_BAND_CODE (bitsOf w 26 6) (32 * k + b)

/-! ## Gating by modes -/

/-- SAFE and HOLDUP gate every powered PLL (Table 14-5). -/
def State.stopAllPlls (s : State) : State :=
  s.forEach (List.range 16) fun s k => if s.flag .PLL_STAT_POWERED k then s.gatePll k 5 else s

/-- DOZE entry powers the PLLs down; exit powers the same ones up (Tables 13-6, 13-7). -/
def State.dozePlls (s : State) : State :=
  s.forEach (List.range 16) fun s k =>
    if s.flag .PLL_STAT_POWERED k then
      let s := s.stopPll k
      s.putPll k { s.pll k with dozed := true }
    else s

def State.wakePlls (s : State) : State :=
  s.forEach (List.range 16) fun s k =>
    if (s.pll k).dozed then (s.putPll k { s.pll k with dozed := false }).powerUpPll k else s

/-! ## The timebase (R418, R419, R422) -/

/-- One tick of the timebase, in units of 10^−8 ns: of the Umber oscillator, or of the corrected reference oscillator. -/
def State.tickLength (s : State) : Nat :=
  if s.flag .TMB_STAT_SOURCE then s.get .TMB_UMBER_PER_PERIOD_PS * 10 ^ 5 else (10 ^ 9 + s.correction).toNat

/-- TMB_NOW counts one tick. -/
def State.tick (s : State) : State :=
  let total := s.clocks.fraction + s.tickLength
  let s := s.put .TMB_NOW_NOW (s.now + total / 10 ^ 8)
  { s with clocks := { s.clocks with
      fraction := total % 10 ^ 8
      dozeTicks := if s.mode == .doze then s.clocks.dozeTicks + 1 else s.clocks.dozeTicks } }

/-- The epoch of a boot (R419), from the values that could be read. -/
def State.setEpoch (s : State) (retained snapshot archive : Option Nat) : State :=
  let found := [retained, snapshot, archive].filterMap id
  let e := 1 + found.foldl max 0
  let s := (s.put .TMB_EPOCH_EPOCH (min e 0xFFFFFFFF)).putFlag .TMB_STAT_EPOCH_SAT (decide (0xFFFFFFFF ≤ e))
  (s.putFlag .TMB_STAT_EPOCH_UNSURE retained.isNone).logEvent 0x0901 (min e 0xFFFFFFFF) (s.regValue .TMB_STAT)

/-- U of R422: ⌈D × (0.001 + 0.000 020 × ΔT)⌉ + 2,000, with ΔT in eighths of a kelvin. -/
def dozeUncertainty (d deltaT : Nat) : Nat := (d * (400 + deltaT) + 399999) / 400000 + 2000

/-- DOZE entry: the count goes over to the Umber oscillator (R422 step 1). -/
def State.enterDozeTime (s : State) : State :=
  let s := s.putFlag .TMB_STAT_SOURCE true
  { s with clocks := { s.clocks with dozeStart := s.now, dozeTicks := 0, dozeTemp := s.get .CAL_TEMP_TEMP 18, dozeDelta := 0, fraction := 0 } }

/-- DOZE exit: the count returns to the reference oscillator, and the doubt is added (R422 steps 3 and 4). -/
def State.exitDozeTime (s : State) : State :=
  let d := s.clocks.dozeTicks * s.get .TMB_UMBER_PER_PERIOD_PS / 1000
  let u := dozeUncertainty d s.clocks.dozeDelta
  let s := (s.putFlag .TMB_STAT_SOURCE false).put .TMB_DOZE_LAST_DURATION_NS d
  (s.put .TMB_DOZE_UNC_UNC_NS (min u 0xFFFFFFFF)).bump .TMB_UNCERT_UNCERT_NS 0 u

/-! ## Alarms (R424, R425) -/

/-- A write to TMB_ALARM_CTL[a]. -/
def State.writeAlarm (s : State) (a o v : Nat) : Wrote :=
  if o ≠ 0x10 + a then .notOwner s
  else
    let s := if v.testBit 1 then s.putFlag .TMB_ALARM_CTL_PENDING false a else s
    let s := (s.put .TMB_ALARM_CTL_VECTOR (bitsOf v 16 11) a).putFlag .TMB_ALARM_CTL_ARM (v.testBit 0) a
    if v.testBit 0 then
      let s := s.put .TMB_ALARM_CTL_MISSED 0 a
      .took { s with clocks := { s.clocks with
        alarmTime := SMap.put 0 s.clocks.alarmTime a (s.get .TMB_ALARM_TIME_TIME a)
        alarmPeriod := SMap.put 0 s.clocks.alarmPeriod a (s.get .TMB_ALARM_PER_PERIOD_NS a) } }
    else .took s

/-- Alarm a is armed and its time has come. -/
def State.alarmDue (s : State) (a : Nat) : Bool :=
  s.coreOn && s.flag .TMB_ALARM_CTL_ARM a && decide (SMap.look 0 s.clocks.alarmTime a ≤ s.now)

/-- A firing's effect on the alarm itself: PENDING, and disarmed or moved on past TMB_NOW. -/
def State.fireAlarm (s : State) (a : Nat) : State :=
  let t := SMap.look 0 s.clocks.alarmTime a
  let p := SMap.look 0 s.clocks.alarmPeriod a
  let s := s.putFlag .TMB_ALARM_CTL_PENDING true a
  if p = 0 then s.putFlag .TMB_ALARM_CTL_ARM false a
  else
    let n := (s.now - t) / p + 1
    let s := s.bump .TMB_ALARM_CTL_MISSED a (n - 1)
    { s with clocks := { s.clocks with alarmTime := SMap.put 0 s.clocks.alarmTime a (t + n * p) } }

/-- A host reset disarms its alarm (Table 14-7). -/
def State.dropAlarm (s : State) (a : Nat) : State :=
  (s.putFlag .TMB_ALARM_CTL_ARM false a).putFlag .TMB_ALARM_CTL_PENDING false a

end Sys2Proof.Machine
end

