-- ==== Sys2Proof/Machine/AttOps.lean ====
section
/-! DEFINITION. The address translation table: lookups, key changes, map writes, stale entries (10 R288, R303 to
R306; 08 R243 to R245). -/

namespace Sys2Proof.Machine

set_option Elab.async false

/-- Table 10-2. -/
inductive DmaForm
  | translated (entry offset : Nat)
  | directHost
  | spine
  deriving DecidableEq, Repr

def dmaForm (a : Nat) : DmaForm :=
  if 0x0800_0000_0000 ≤ a ∧ a < 0x1000_0000_0000 then .translated (bitsOf a 28 15) (bitsOf a 0 28)
  else if 0x1000_0000_0000 ≤ a ∧ a < 0x5000_0000_0000 then .directHost
  else .spine

/-- The causes of Table 10-6 that a lookup gives. -/
def attKey : Nat := 0x06
def attStale : Nat := 0x07
def attPerm : Nat := 0x08
def attLimit : Nat := 0x09
def attNoHost : Nat := 0x0A
def directHostCause : Nat := 0x0B

/-- The lookup of R306 for a transaction of `len` bytes: a spine address, or the cause of the first failing check. -/
def State.attLookup (s : State) (x e offset len : Nat) (write : Bool) : Nat ⊕ Nat :=
  let base := 4096 * s.get .ATT_ENT_MAP_BASE e
  let span := 4096 * (s.get .ATT_ENT_MAP_LIMIT e + 1)
  if s.get .ATT_ENT_KEY_KEY e ≠ x then .inl attKey
  else if s.flag .ATT_ENT_KEY_STALE e then .inl attStale
  else if !(if write then s.flag .ATT_ENT_MAP_WR e else s.flag .ATT_ENT_MAP_RD e) then .inl attPerm
  else if span < offset + len then .inl attLimit
  else if s.top x < 0x10 || 0x13 < s.top x then .inl attNoHost
  else .inr ((s.top x - 0x10 + 1) * 0x1000_0000_0000 + base + offset)

/-- A DMA address on its way to the spine (R288, R303). -/
def State.translate (s : State) (x a len : Nat) (write : Bool) : Nat ⊕ Nat :=
  match dmaForm a with
  | .translated e o => s.attLookup x e o len write
  | .directHost => .inl directHostCause
  | .spine => .inr a

/-- A lookup failure captured and counted (R306). -/
def State.captureFault (s : State) (x a cause : Nat) (write : Bool) : State :=
  let s := ((s.put .ATT_FAULT_INFO_OWNER x).put .ATT_FAULT_INFO_CAUSE cause).putFlag .ATT_FAULT_INFO_WRITE write
  let s := s.put .ATT_FAULT_ADDR_ADDR a
  if isGroup x then s.bump .ATT_FAULT_CNT_DMA else s.bump .ATT_FAULT_CNT_REGION

/-- The entries keyed to `x`. -/
def State.keyedTo (s : State) (x : Nat) : List Nat :=
  (s.regs.filterMap fun kv =>
    let off := kv.1 / 64
    if kv.1 % 64 = 0 && decide (0xD0_0000 ≤ off) && decide (off < 0xD8_0000) && off % 16 == 8 then
      some ((off - 0xD0_0008) / 16) else none).filter fun e => s.get .ATT_ENT_KEY_KEY e == x

/-- USED of a family rises or falls. -/
def State.chargeEntry (s : State) (e family : Nat) : State :=
  { (s.put .ATT_QUOTA_USED (s.get .ATT_QUOTA_USED (family - 1) + 1) (family - 1)) with
    dma := { s.dma with charged := SMap.put 0 s.dma.charged e family } }

def State.refundEntry (s : State) (e : Nat) : State :=
  let f := SMap.look 0 s.dma.charged e
  if f = 0 then s
  else
    { (s.put .ATT_QUOTA_USED (s.get .ATT_QUOTA_USED (f - 1) - 1) (f - 1)) with
      dma := { s.dma with charged := SMap.put 0 s.dma.charged e 0 } }

/-- MAP 0: an entry without rights. -/
def State.zeroMap (s : State) (e : Nat) : State :=
  ((s.put .ATT_ENT_MAP_RD 0 e).put .ATT_ENT_MAP_WR 0 e).put .ATT_ENT_MAP_BASE 0 e |>.put .ATT_ENT_MAP_LIMIT 0 e

/-- An entry freed. -/
def State.freeEntry (s : State) (e : Nat) : State :=
  (((s.refundEntry e).put .ATT_ENT_KEY_KEY 0 e).putFlag .ATT_ENT_KEY_STALE false e).zeroMap e

/-- A change of the parent of `x` makes its entries stale, and a sweep is queued (R306). -/
def State.staleKeys (s : State) (x former : Nat) : State :=
  let s := s.forEach (s.keyedTo x) fun s e => s.putFlag .ATT_ENT_KEY_STALE true e
  { s with dma := { s.dma with sweeps := s.dma.sweeps ++ [(x, former)] } }.putFlag .ATT_SWEEP_ACTIVE true

/-- The oldest sweep: every stale entry of its key is freed. -/
def State.sweep (s : State) : State :=
  match s.dma.sweeps with
  | [] => s
  | (x, _) :: rest =>
    let es := (s.keyedTo x).filter fun e => s.flag .ATT_ENT_KEY_STALE e
    let s := (s.forEach es State.freeEntry).bump .ATT_SWEEP_FREED 0 es.length
    ({ s with dma := { s.dma with sweeps := rest } }).putFlag .ATT_SWEEP_ACTIVE (!rest.isEmpty)

/-- A write to ATT_ENT_KEY[e] (Table 10-8). -/
def State.writeAttKey (s : State) (e o v : Nat) : Wrote :=
  let key := s.get .ATT_ENT_KEY_KEY e
  let expect := bitsOf v 8 8
  let new := bitsOf v 16 8
  let stale := s.flag .ATT_ENT_KEY_STALE e
  let claim := key == 0
  if expect ≠ key then .notOwner s
  else if claim && !(isTop o && (isRegion new || isGroup new) && s.top new == o) then .notOwner s
  else if !claim && !((o == s.top key || (s.isAdmin o && (stale || s.absent key))) && new == 0) then .notOwner s
  else if !(new == 0 || isRegion new || isGroup new) then .rejected s
  else if claim then
    let i := o - 0x10
    if s.get .ATT_QUOTA_LIMIT i ≤ s.get .ATT_QUOTA_USED i then .rejected s
    else .took (((s.chargeEntry e (i + 1)).put .ATT_ENT_KEY_KEY new e).zeroMap e)
  else .took (s.freeEntry e)

/-- A 64-bit write to ATT_ENT_MAP[e] (R305, R245). -/
def State.writeAttMap (s : State) (e o v : Nat) (wide : Bool) : Wrote :=
  let key := s.get .ATT_ENT_KEY_KEY e
  let t := s.top key
  let base := bitsOf v 12 32
  let limit := bitsOf v 44 16
  if key ≠ 0 && !(o == t || (s.isAdmin o && s.absent key)) then .notOwner s
  else if key = 0 || t < 0x10 || 0x13 < t || !wide || 2 ^ 44 < 4096 * base + 4096 * (limit + 1) then .rejected s
  else .took ((((s.putFlag .ATT_ENT_MAP_RD (v.testBit 0) e).putFlag .ATT_ENT_MAP_WR (v.testBit 1) e).put
    .ATT_ENT_MAP_BASE base e).put .ATT_ENT_MAP_LIMIT limit e)

/-- A write to ATT_QUOTA[i]. -/
def State.writeQuota (s : State) (i o v : Nat) : Wrote :=
  if !s.maintains o then .notOwner s
  else if 32768 < bitsOf v 0 16 then .rejected s
  else .took (s.put .ATT_QUOTA_LIMIT (bitsOf v 0 16) i)

end Sys2Proof.Machine
end

