-- ==== Sys2Proof/Machine/DmaOps.lean ====
section
/-! DEFINITION. Rings, descriptors and completions as operations on the state (spec/10). A descriptor's transactions are
issued one at a time: a chunk of the destination, up to the next 512-byte boundary, is read whole and then written. -/

namespace Sys2Proof.Machine

set_option Elab.async false

/-! ## Rings (R283 to R287) -/

def groupOfRing (r : Nat) : Nat := r / 128
def ringOwner (r : Nat) : Nat := 0x40 + groupOfRing r
def ringPort (r : Nat) : Nat := 69 + groupOfRing r % 8

def State.ring (s : State) (r : Nat) : Ring := (SMap.look none s.dma.ring r).getD {}

def State.putRing (s : State) (r : Nat) (v : Ring) : State :=
  { s with dma := { s.dma with ring := SMap.put none s.dma.ring r (some v) } }.put .DMA_RING_STAT_INFLIGHT v.jobs.length r

def State.ringState (s : State) (r : Nat) : Nat := s.get .DMA_RING_STAT_STATE r
def State.ringSize (s : State) (r : Nat) : Nat := 2 ^ s.get .DMA_RING_CTL_SIZE_LOG2 r

/-- Slots posted and not completed. -/
def State.ringOccupancy (s : State) (r : Nat) : Nat :=
  (s.get .DMA_RING_TAIL_TAIL r + 2 ^ 32 - s.get .DMA_RING_HEAD_HEAD r) % 2 ^ 32

/-- The rings that hold a record: every ring that is not DISABLED. -/
def State.liveRings (s : State) : List Nat := (s.dma.ring.map (·.1)).filter fun r => s.ringState r != 0

/-- The lowest-numbered ring with posted or executing slots (13 Table 13-5). -/
def State.busyRing (s : State) : Option Nat :=
  s.liveRings.find? fun r => decide (0 < s.ringOccupancy r) || decide (0 < (s.ring r).jobs.length)

/-- A job has come to its end; nothing but its completion is left to do. -/
def DmaJob.over (j : DmaJob) : Bool := j.phase == .complete

/-- Slots behind a completion that has failed end without one, once the last of them is over (R299). -/
def State.dropStuck (s : State) (r : Nat) : State :=
  if (s.ring r).stuck && (s.ring r).jobs.all DmaJob.over then s.putRing r { s.ring r with jobs := [] } else s

/-- A HALTING ring whose last slot has ended is HALTED. -/
def State.settleRing (s : State) (r : Nat) : State :=
  let s := s.dropStuck r
  if s.ringState r == 2 && (s.ring r).jobs.isEmpty then s.put .DMA_RING_STAT_STATE 3 r else s

/-- A chain whose next descriptor is not fetched yet, at a descriptor-boundary halt: its slot completes with BUSY and CAUSE
CUT (R309). -/
def DmaJob.cutChain (j : DmaJob) : DmaJob :=
  if j.phase == .fetch && 0 < j.hops then { j with phase := .complete, outcome := (0x0001, 0x10, 0), hops := j.hops - 1 }
  else j

/-- A running ring begins to halt; `cut` says at a descriptor boundary (R309). -/
def State.haltRing (s : State) (r cause : Nat) (cut : Bool) : State :=
  let s := if s.ringState r == 1 then (s.put .DMA_RING_STAT_STATE 2 r).put .DMA_RING_STAT_HALT_CAUSE cause r else s
  let s := if cut && (s.ringState r == 2) then
      s.putRing r { s.ring r with cut := true, jobs := (s.ring r).jobs.map DmaJob.cutChain }
    else s
  s.settleRing r

/-- Every ring of group g halts at its descriptor boundaries. -/
def State.haltGroup (s : State) (g cause : Nat) : State :=
  s.forEach (s.liveRings.filter fun r => groupOfRing r == g) fun s r => s.haltRing r cause true

/-- A DMA port's transaction. -/
def Txn.ofRing (t : Txn) : Bool := match t.user with | .dma _ _ => true | _ => false

/-- The transactions of the DMA ports that wait for a credit are not issued any more. -/
def State.dropUnissued (s : State) : State :=
  { s with spine := { s.spine with waiting := s.spine.waiting.filter fun t => !t.ofRing } }

/-- SAFE: no transaction is issued any more, and every enabled ring reads HALTED (Table 10-10). -/
def State.stopRings (s : State) : State :=
  s.dropUnissued.forEach s.liveRings fun s r =>
    let s := s.putRing r { s.ring r with jobs := [], cut := false }
    (s.put .DMA_RING_STAT_STATE 3 r).put .DMA_RING_STAT_HALT_CAUSE 5 r

/-- HOLDUP: descriptors in execution issue nothing more, and no completion is written (Table 10-10). -/
def State.dropJobs (s : State) : State := s.dropUnissued.forEach s.liveRings fun s r => s.putRing r { s.ring r with jobs := [] }

/-! ## Register writes (R285 to R287, R302, R311) -/

/-- A writer of ring r's registers: the parent of its group, or ADMIN while that parent is absent. -/
def State.writesRing (s : State) (r o : Nat) : Bool :=
  let x := ringOwner r
  (o == s.top x && s.top x != 0) || (s.isAdmin o && s.absent x)

/-- The doorbell. -/
def State.writeRingTail (s : State) (r o v : Nat) : Wrote :=
  let t := s.top (ringOwner r)
  let occ := (v + 2 ^ 32 - s.get .DMA_RING_HEAD_HEAD r) % 2 ^ 32
  if !(s.writesRing r o || (t != 0 && s.top o == t)) then .notOwner s
  else if s.ringState r == 0 || s.ringSize r < occ || occ < s.ringOccupancy r then .rejected s
  else .took ((s.put .DMA_RING_TAIL_TAIL v r).wake 1 r)

/-- A write to DMA_RING_CTL[r]: the value is checked whole, then ENABLE, HALT and RESUME act. -/
def State.writeRingCtl (s : State) (r o v : Nat) : Wrote :=
  let st := s.ringState r
  let enable := v.testBit 0
  let size := bitsOf v 8 5
  let vector := bitsOf v 16 11
  let static := size == s.get .DMA_RING_CTL_SIZE_LOG2 r && vector == s.get .DMA_RING_CTL_VECTOR r
  if !s.writesRing r o then .notOwner s
  else if vector = 0 || (st ≠ 0 && !static) || (st ≠ 0 && !enable && st ≠ 3) || (v.testBit 2 && st ≠ 3) ||
      (st = 0 && enable && (size < 4 || 16 < size || s.get .DMA_RING_BASE_BASE r % 4096 ≠ 0 ||
        s.get .DMA_RING_CQ_CQ r % 4096 ≠ 0)) then .rejected s
  else
    let s := ((s.put .DMA_RING_CTL_SIZE_LOG2 size r).put .DMA_RING_CTL_VECTOR vector r).putFlag .DMA_RING_CTL_ENABLE
      enable r
    if st = 0 && enable then
      let s := (s.put .DMA_RING_HEAD_HEAD 0 r).put .DMA_RING_TAIL_TAIL 0 r
      let s := s.putRing r { lastIrq := (s.ring r).lastIrq }
      .took ((s.put .DMA_RING_STAT_STATE 1 r).put .DMA_RING_STAT_HALT_CAUSE 0 r)
    else if st = 3 && !enable then
      .took ((s.putRing r { lastIrq := (s.ring r).lastIrq }).put .DMA_RING_STAT_STATE 0 r)
    else if v.testBit 2 then
      let s := s.putRing r { s.ring r with next := s.get .DMA_RING_HEAD_HEAD r, jobs := [], cut := false, stuck := false }
      .took ((s.put .DMA_RING_STAT_STATE 1 r).put .DMA_RING_STAT_HALT_CAUSE 0 r)
    else if v.testBit 1 then .took (s.haltRing r 2 false)
    else .took s

/-- A write to DMA_RING_BASE[r] or DMA_RING_CQ[r]: only while the ring is DISABLED. -/
def State.writeRingBase (s : State) (f : Fld) (r o v : Nat) : Wrote :=
  if !s.writesRing r o then .notOwner s
  else if s.ringState r ≠ 0 then .rejected s
  else .took (s.put f v r)

def State.writeDmaTimeout (s : State) (o v : Nat) : Wrote :=
  let t := bitsOf v 0 14
  if !s.maintains o then .notOwner s
  else if t < 10 || 10000 < t then .rejected s
  else .took (s.put .DMA_TIMEOUT_TIMEOUT_US t)

def State.writeGroupCfg (s : State) (g o v : Nat) : Wrote :=
  let cap := bitsOf v 4 12
  if !s.maintains o then .notOwner s
  else if cap < 1 || 2048 < cap then .rejected s
  else .took ((s.put .DMA_GROUP_CFG_WEIGHT (bitsOf v 0 4) g).put .DMA_GROUP_CFG_TAG_CAP cap g)

/-! ## Descriptors (R289 to R292) -/

def descriptorOf (bs : List Byte) : Descriptor :=
  let w := fun i => ofLe ((bs.drop (8 * i)).take 8)
  let h := w 0
  { opcode := bitsOf h 0 8, barrier := h.testBit 8, irq := h.testBit 9, chain := h.testBit 10, sglSrc := h.testBit 11
    sglDst := h.testBit 12, poisonOk := h.testBit 13, reserved := bitsOf h 14 2 ≠ 0, user := bitsOf h 16 16
    length := bitsOf h 32 32, src := w 1, dst := w 2, next := w 3 }

/-- A DMA address of the spine form that lies in a bank, or in the control register space. -/
def inBank (a : Nat) : Bool := a < 0x400_0000
def inControl (a : Nat) : Bool := 0x3_0000_0000 ≤ a && a < 0x3_0100_0000

/-- A range touches the control register space. -/
def touchesControl (a len : Nat) : Bool := inControl a || (0 < len && inControl (a + len - 1))

/-- A descriptor names a bank range whose ends are not on word boundaries. -/
def Descriptor.narrow (d : Descriptor) : Bool :=
  d.opcode != 0 && !d.sglDst && 0 < d.length && inBank d.dst &&
    (d.dst % 8 != 0 || (d.dst + d.length) % 8 != 0)

/-- The constraints of R290 hold. -/
def Descriptor.formed (d : Descriptor) : Bool :=
  let addr := fun a : Nat => decide (a < 2 ^ 48)
  let chain := !d.chain || (d.next % 32 == 0 && addr d.next)
  let lists := (!d.sglSrc || (d.src % 16 == 0 && addr d.src)) && (!d.sglDst || (d.dst % 16 == 0 && addr d.dst))
  !d.reserved && chain &&
  match d.opcode with
  | 0 => d.length == 0 && !d.sglSrc && !d.sglDst && !d.poisonOk
  | 1 => lists && addr d.src && addr d.dst && (d.sglDst || !touchesControl d.dst d.length)
  | 2 => lists && !d.sglSrc && d.length % 8 == 0 && addr d.dst && (d.sglDst || (d.dst % 8 == 0 && !touchesControl d.dst d.length))
  | 3 => (d.length == 4 || d.length == 8) && d.dst % d.length == 0 && addr d.dst && !d.sglSrc && !d.sglDst
  | _ => false

/-! ## Jobs -/

def State.job (s : State) (r i : Nat) : Option DmaJob := (s.ring r).jobs[i]?

def State.setJob (s : State) (r i : Nat) (j : DmaJob) : State :=
  s.putRing r { s.ring r with jobs := (s.ring r).jobs.set i j }

/-- A descriptor of a job has ended with this outcome (status, cause, code); one that halts starts the halt (R298). -/
def State.endDescriptor (s : State) (r i : Nat) (j : DmaJob) (outcome : Nat × Nat × Nat) (halts : Bool) : State :=
  let s := s.setJob r i { j with phase := .ended, outcome := outcome, halts := halts }
  if halts && s.ringState r == 1 then
    let s := ((s.put .DMA_RING_ERR_STATUS outcome.1 r).put .DMA_RING_ERR_CAUSE outcome.2.1 r).put .DMA_RING_ERR_CODE
      outcome.2.2 r
    (s.put .DMA_RING_ERR_IDX_INDEX (j.slot % s.ringSize r) r).haltRing r 1 false
  else s

/-- A list stands before its LAST pair. -/
def DmaSide.open (d : DmaSide) : Bool := d.list.isSome && !d.last

/-- What a job does next once a piece, a pair or its start check is behind it. -/
def DmaJob.proceed (j : DmaJob) (d : Descriptor) : DmaJob :=
  if d.opcode = 1 && j.source.left = 0 && j.source.open then { j with phase := .pair false }
  else if j.dest.left = 0 && j.dest.open then { j with phase := .pair true }
  else if d.length ≤ j.done then { j with phase := if d.barrier && !j.flushes.isEmpty then .flush else .ended }
  else
    let piece := if d.opcode = 1 then min (min j.source.left j.dest.left) (d.length - j.done)
      else min j.dest.left (d.length - j.done)
    let overlap := match dmaForm j.source.addr, dmaForm j.dest.addr with
      | .translated e _, .translated e' _ => e == e'
      | .spine, .spine => true
      | _, _ => false
    let down := d.opcode == 1 && overlap && decide (j.source.addr < j.dest.addr) &&
      decide (j.dest.addr < j.source.addr + piece)
    { j with piece, moved := 0, down, data := [], phase := if d.opcode = 1 then .read else .write }

/-- The part of the piece in hand that moves next: its offset in the piece and its length. -/
def DmaJob.chunk (j : DmaJob) : Nat × Nat :=
  if j.down then
    let e := j.dest.addr + j.piece - j.moved
    let n := min (j.piece - j.moved) (if e % 512 = 0 then 512 else e % 512)
    (j.piece - j.moved - n, n)
  else
    let a := j.dest.addr + j.moved
    (j.moved, min (j.piece - j.moved) (512 - a % 512))

/-- Address and length of the next source read of the chunk in hand. -/
def DmaJob.readAt (j : DmaJob) : Nat × Nat :=
  let (off, n) := j.chunk
  let a := j.source.addr + off + j.data.length
  (a, min (n - j.data.length) (512 - a % 512))

/-- Request beats that cover `bs` from address `a`. -/
def beatsOf (a : Nat) (bs : List Byte) : List BeatIn :=
  let first := a / 32
  let n := if bs.isEmpty then 0 else (a + bs.length - 1) / 32 - first + 1
  (List.range n).map fun i =>
    let at0 := 32 * (first + i)
    let lanes := (List.range 32).map fun b =>
      if a ≤ at0 + b ∧ at0 + b < a + bs.length then some (bs.getD (at0 + b - a) 0) else none
    { be := BitVec.ofNat 32 (lanes.zipIdx.foldl (fun v x => if x.1.isSome then v + 2 ^ x.2 else v) 0)
      data := BitVec.ofNat 256 (ofLe (lanes.map (·.getD 0))) }

/-- The bytes of a read's response, each with its poison mark. -/
def bytesFrom (a len : Nat) (beats : List BeatOut) : List (Byte × Bool) :=
  (List.range len).map fun i =>
    let x := a + i
    match beats[x / 32 - a / 32]? with
    | some b => ((b.data >>> (8 * (x % 32))).setWidth 8, !b.wok.getLsbD (x % 32 / 8))
    | none => (0xFF, true)

/-- The bytes a job writes in the chunk in hand: what it read, with poisoned words as all ones, or the fill value. -/
def DmaJob.bytesToWrite (j : DmaJob) (d : Descriptor) : List Byte :=
  let (off, n) := j.chunk
  if d.opcode = 1 then j.data.map fun b => if b.2 then 0xFF else b.1
  else (List.range n).map fun i => (leBytes 8 d.src).getD ((j.done + off + i) % 8) 0

/-- BYTES_DONE (R301): of the last descriptor executed, which a failed or cut fetch of a chain leaves the one before. -/
def DmaJob.bytesDone (j : DmaJob) : Option Descriptor → Nat
  | some d => if j.outcome.1 = 0 then d.length else if j.down then j.done else j.done + j.moved
  | none => j.before

/-- The transaction a job would issue now: kind, DMA address, its length in bytes, its beats and its poison mark. -/
def DmaJob.transaction (j : DmaJob) (s : State) (r : Nat) : Option (TxnKind × Nat × Nat × List BeatIn × Bool) :=
  let read := fun a n => (TxnKind.read, a, n, beatsOf a (List.replicate n 0), false)
  match j.phase, j.desc with
  | .fetch, _ => some (read j.at0 32)
  | .pair dst, _ => let l := ((if dst then j.dest else j.source).list).getD 0; some (read l 16)
  | .read, some _ => let (a, n) := j.readAt; some (read a n)
  | .write, some d =>
    let (off, n) := j.chunk
    let a := j.dest.addr + off
    let ep := j.data.any (·.2) && (match dmaForm a with | .translated _ _ => true | _ => false)
    some (.write, a, n, beatsOf a (j.bytesToWrite d), ep)
  | .flush, _ => match j.flushes with
    | [] => none
    | a :: _ => some (.flush, a / 32 * 32, 32, [{ be := 0, data := 0 }], false)
  | .complete, d =>
    let k := s.ringSize r
    let (status, cause, code) := j.outcome
    let done := j.bytesDone d
    let e := status + 2 ^ 16 * cause + 2 ^ 24 * code + 2 ^ 28 * (1 - j.slot / k % 2) + 2 ^ 32 * j.user + 2 ^ 48 * j.hops
    let e' := done % 2 ^ 32 + 2 ^ 32 * (j.slot % k) + 2 ^ 48 * min j.poison 0xFFFF
    let a := s.get .DMA_RING_CQ_CQ r + 16 * (j.slot % k)
    some (.write, a, 16, beatsOf a (leBytes 8 e ++ leBytes 8 e'), false)
  | _, _ => none

/-- The phase of a job whose transaction is outstanding. -/
def DmaPhase.issued : DmaPhase → DmaPhase
  | .fetch => .fetching
  | .pair d => .pairing d
  | .read => .reading
  | .write => .writing
  | .flush => .flushing
  | .complete => .completing
  | p => p

/-- The jobs of a ring before index `i` let it issue: none of them is a barrier, or may yet turn out to be one (R295). -/
def Ring.clearOfBarriers (v : Ring) (i : Nat) : Bool :=
  (v.jobs.take i).all fun j =>
    match j.phase, j.desc with
    | .complete, _ | .completing, _ | .acked, _ => true
    | _, some d => !d.barrier
    | _, none => false

/-- A job may issue: its phase has a transaction, no barrier stands before it, and a completion is in slot order. -/
def State.jobReady (s : State) (r i : Nat) : Bool :=
  match s.job r i with
  | none => false
  | some j => (j.transaction s r).isSome && (s.ring r).clearOfBarriers i &&
    (j.phase != .complete || (i == 0 && !(s.ring r).stuck))

/-- The next posted slot of a ring may start. -/
def State.slotReady (s : State) (r : Nat) : Bool :=
  let v := s.ring r
  s.ringState r == 1 && decide (v.jobs.length < 8) && v.next != s.get .DMA_RING_TAIL_TAIL r &&
    v.clearOfBarriers v.jobs.length

/-- What ring r would issue next: a job's transaction, or the fetch of a new slot. -/
def State.nextIssue (s : State) (r : Nat) : Option Nat :=
  match (List.range (s.ring r).jobs.length).find? (s.jobReady r) with
  | some i => some i
  | none => if s.slotReady r then some (s.ring r).jobs.length else none

/-- A slot starts (R287, R297). -/
def State.startSlot (s : State) (r : Nat) : State :=
  let v := s.ring r
  let n := v.next
  let j : DmaJob :=
    { slot := n, at0 := s.get .DMA_RING_BASE_BASE r + 32 * (n % s.ringSize r), hopMax := s.get .DMA_RING_HOPMAX_HOPMAX r }
  s.putRing r { v with next := (n + 1) % 2 ^ 32, jobs := v.jobs ++ [j] }

/-- The cause that a failing response of a job's transaction is reported with. -/
def DmaPhase.cause : DmaPhase → Nat
  | .fetch | .fetching => 0x01
  | .pair _ | .pairing _ => 0x03
  | .read | .reading => 0x04
  | .write | .writing => 0x05
  | .flush | .flushing => 0x0D
  | _ => 0x0F

/-- The status of a lookup failure (Table 10-6). -/
def faultStatus (cause : Nat) : Nat := if cause = attLimit || cause = directHostCause then 0x0003 else 0x0004

/-- A completion write that cannot report itself (R299): the ring halts, HEAD stays at its slot, and the slots behind it come
to their ends without completions. -/
def State.failCompletion (s : State) (r : Nat) (j : DmaJob) (code : Nat) : State :=
  let s := ((s.put .DMA_RING_ERR_STATUS j.outcome.1 r).put .DMA_RING_ERR_CAUSE 0x0F r).put .DMA_RING_ERR_CODE code r
  let s := s.put .DMA_RING_ERR_IDX_INDEX (j.slot % s.ringSize r) r
  (s.putRing r { s.ring r with jobs := (s.ring r).jobs.tail, stuck := true }).haltRing r 1 false

/-- Job `i` of ring r issues its transaction (R303, R307). -/
def State.issueJob (s : State) (r i : Nat) : State :=
  let s := if i < (s.ring r).jobs.length then s else s.startSlot r
  match s.job r i with
  | none => s
  | some j => match j.transaction s r with
    | none => s
    | some (kind, a, len, beats, ep) =>
      match s.translate (ringOwner r) a len (kind != .read) with
      | .inl cause =>
        let s := s.captureFault (ringOwner r) a cause (kind != .read)
        if j.phase == .complete then s.failCompletion r j 0
        else s.endDescriptor r i j (faultStatus cause, cause, 0) true
      | .inr x =>
        let s := s.setJob r i { j with phase := j.phase.issued }
        let t : Txn := { id := s.spine.nextId, src := ringPort r, owner := ringOwner r, kind, addr := x / 32 * 32, beats
                         user := .dma r j.slot, ep }
        { s with spine := { s.spine with nextId := s.spine.nextId + 1, waiting := s.spine.waiting ++ [t] } }

/-! ## Responses (R290 to R301) -/

/-- A fetched descriptor passes its checks and starts, or ends at once (R290); after a descriptor-boundary halt no chained
descriptor starts (R309). -/
def State.startDescriptor (s : State) (r i : Nat) (j : DmaJob) (d : Descriptor) : State :=
  let j := { j with done := 0, moved := 0, piece := 0, down := false, data := [], flushes := [] }
  if 0 < j.hops && (s.ring r).cut then
    s.setJob r i { j with phase := .complete, outcome := (0x0001, 0x10, 0), done := j.before }
  else if !d.formed then s.endDescriptor r i j (0x0003, 0x02, 0) false
  else if d.narrow then s.endDescriptor r i j (0x0011, 0x0E, 0) false
  else
    let side := fun (sgl : Bool) (a : Nat) =>
      if sgl then ({ list := some a } : DmaSide) else { addr := a, start := a, left := d.length, last := true }
    let j := { j with source := side d.sglSrc d.src, dest := side d.sglDst d.dst, outcome := (0, 0, 0), halts := false }
    if d.length = 0 then s.setJob r i { j with phase := .ended }
    else s.setJob r i (j.proceed d)

/-- A pair has been read (R292): the side after it, or none where the list is malformed. -/
def DmaSide.take (v : DmaSide) (d : Descriptor) (dst : Bool) (bs : List Byte) : Option DmaSide :=
  let a := ofLe (bs.take 8)
  let len := ofLe ((bs.drop 8).take 4)
  let f := ofLe ((bs.drop 12).take 4)
  let last := f.testBit 0
  let sum := v.sum + len
  if 2 ≤ f || 2 ^ 48 ≤ a || d.length < sum || (last && sum ≠ d.length) || (!last && 4096 ≤ v.pairs + 1) ||
      (dst && inBank a && (a % 8 ≠ 0 || len % 8 ≠ 0)) || (dst && d.opcode = 2 && a % 8 ≠ 0) ||
      (dst && touchesControl a len) then none
  else some { addr := a, start := a, left := len, list := v.list.map (· + 16), pairs := v.pairs + 1, sum, last }

/-- Poisoned words among the bytes read from `a`: each is counted at its first byte in the source range that begins at
`start`. -/
def poisonedWords (start a : Nat) (bs : List (Byte × Bool)) : Nat :=
  (bs.zipIdx.filter fun b => b.1.2 && ((a + b.2) % 8 == 0 || a + b.2 == start)).length

/-- The chunk in hand has been written. -/
def DmaJob.wrote (j : DmaJob) (d : Descriptor) : DmaJob :=
  let (off, n) := j.chunk
  let host := match dmaForm (j.dest.addr + off) with | .translated _ _ => true | _ => false
  let j := { j with data := [], moved := j.moved + n, flushes := if host then [j.dest.addr + off] else j.flushes }
  if j.moved < j.piece then { j with phase := if d.opcode = 1 then .read else .write }
  else
    let step := fun v : DmaSide => { v with addr := v.addr + j.piece, left := v.left - j.piece }
    { j with done := j.done + j.piece, moved := 0, piece := 0, down := false
             source := if d.opcode = 1 then step j.source else j.source, dest := step j.dest }.proceed d

/-- The response of job `i`'s outstanding transaction. -/
def State.jobResponse (s : State) (r i : Nat) (j : DmaJob) (beats : List BeatOut) : State :=
  let c := codeOf beats
  match j.phase, j.desc with
  | .fetching, _ =>
    if c = .ok then
      let d := descriptorOf ((bytesFrom j.at0 32 beats).map (·.1))
      s.setJob r i { j with desc := some d, phase := .start, user := if j.hops = 0 then d.user else j.user }
    else s.endDescriptor r i j (c.status, 0x01, c.code) true
  | .pairing dst, some d =>
    let l := ((if dst then j.dest else j.source).list).getD 0
    if c ≠ .ok then s.endDescriptor r i j (c.status, 0x03, c.code) (c == .timeout)
    else match (if dst then j.dest else j.source).take d dst ((bytesFrom l 16 beats).map (·.1)) with
      | none => s.endDescriptor r i j (0x0003, 0x03, 0) false
      | some v => s.setJob r i ((if dst then { j with dest := v } else { j with source := v }).proceed d)
  | .reading, some d =>
    let (a, n) := j.readAt
    if c ≠ .ok && !(d.poisonOk && beats.all fun b => b.code = .ok || b.code = .poison) then
      s.endDescriptor r i j (c.status, 0x04, c.code) (c == .timeout)
    else
      let bs := bytesFrom a n beats
      let j := { j with data := j.data ++ bs, poison := j.poison + poisonedWords j.source.start a bs }
      s.setJob r i { j with phase := if j.data.length < j.chunk.2 then .read else .write }
  | .writing, some d =>
    if c ≠ .ok then s.endDescriptor r i j (c.status, 0x05, c.code) (c == .timeout)
    else
      let s := s.put .DMA_BYTES_BYTES (s.get .DMA_BYTES_BYTES + j.chunk.2)
      s.setJob r i (j.wrote d)
  | .flushing, _ =>
    if c ≠ .ok then s.endDescriptor r i j (c.status, 0x0D, c.code) (c == .timeout)
    else
      let rest := j.flushes.tail
      s.setJob r i { j with flushes := rest, phase := if rest.isEmpty then .ended else .flush }
  | .completing, _ =>
    if c ≠ .ok then s.failCompletion r j c.code else s.setJob r i { j with phase := .acked }
  | _, _ => s

/-- A DMA port's response reaches its ring's slot. -/
def State.dmaResponse (s : State) (r slot : Nat) (beats : List BeatOut) : State :=
  match (s.ring r).jobs.findIdx? (·.slot == slot) with
  | none => s
  | some i => match s.job r i with
    | none => s
    | some j => s.jobResponse r i j beats

/-- A descriptor has ended: the chain goes on, or the slot's completion is due (R297, R309). -/
def State.chainNext (s : State) (r i : Nat) (j : DmaJob) : State :=
  match j.desc with
  | some d =>
    if !d.chain || j.outcome.1 ≠ 0 then s.setJob r i { j with phase := .complete }
    else if j.hopMax ≤ j.hops then
      let s := s.endDescriptor r i j (0x0012, 0x0C, 0) true
      s.setJob r i { j with phase := .complete, outcome := (0x0012, 0x0C, 0), halts := true }
    else if (s.ring r).cut then s.setJob r i { j with phase := .complete, outcome := (0x0001, 0x10, 0) }
    else s.setJob r i { j with phase := .fetch, at0 := d.next, hops := j.hops + 1, desc := none, before := d.length }
  | none => s.setJob r i { j with phase := .complete }

/-- The acknowledged completion at the front of ring r's slots: HEAD advances (R301, R302). -/
def State.retireSlot (s : State) (r : Nat) (j : DmaJob) : State :=
  let s := (s.put .DMA_RING_HEAD_HEAD (s.get .DMA_RING_HEAD_HEAD r + 1) r).bump .DMA_RING_DONE_DONE r
  let s := if (j.desc.map (·.irq)).getD false then s.putFlag .DMA_RING_STAT_IRQ_PENDING true r else s
  (s.putRing r { s.ring r with jobs := (s.ring r).jobs.tail }).settleRing r

/-- The host that ring r's messages go to, if it is there to take them (R302). -/
def State.ringHost (s : State) (r : Nat) : Option Nat :=
  let t := s.top (ringOwner r)
  if 0x10 ≤ t && t ≤ 0x13 && !s.hostAbsent (t - 0x10) then some (t - 0x10) else none

/-! ## Scheduling (R307) -/

/-- Transactions of group g in flight. -/
def State.groupInFlight (s : State) (g : Nat) : Nat :=
  ((s.spine.waiting ++ s.spine.issued).filter fun t => t.owner == 0x40 + g && 69 ≤ t.src && t.src < 77).length

/-- The first ring of group g after the one served last that can issue, if the group is under its cap. -/
def State.groupNext (s : State) (g : Nat) : Option Nat :=
  if s.get .DMA_GROUP_CFG_TAG_CAP g ≤ s.groupInFlight g then none
  else
    let rs := (s.liveRings.filter fun r => groupOfRing r == g && (s.nextIssue r).isSome)
    let last := SMap.look 0 s.dma.lastRing g
    match rs.find? fun r => last ≤ r % 128 with
    | some r => some r
    | none => rs.head?

/-- The groups of port p in the order of their turns: the one whose turn it is, while it has any left, then round. -/
def State.turnOrder (s : State) (p : Nat) : List Nat :=
  let last := SMap.look 0 s.dma.lastGroup p
  let rest := (List.range 8).map fun i => 8 * ((last + 1 + i) % 8) + p
  if 0 < SMap.look 0 s.dma.turn p then (8 * last + p) :: rest else rest

/-- Port p issues one transaction: of the group whose turn it is, or of the next that can. -/
def State.portIssue (s : State) (p : Nat) : State :=
  match (s.turnOrder p).find? fun g => (s.groupNext g).isSome with
  | none => s
  | some g => match s.groupNext g with
    | none => s
    | some r =>
      let same := SMap.look 0 s.dma.lastGroup p == g / 8 && 0 < SMap.look 0 s.dma.turn p
      let left := if same then SMap.look 0 s.dma.turn p - 1 else s.get .DMA_GROUP_CFG_WEIGHT g
      let s := { s with dma := { s.dma with
        lastGroup := SMap.put 0 s.dma.lastGroup p (g / 8), turn := SMap.put 0 s.dma.turn p left
        lastRing := SMap.put 0 s.dma.lastRing g ((r % 128 + 1) % 128) } }
      match s.nextIssue r with
      | none => s
      | some i => s.issueJob r i

/-- The complex issues transactions: in BOOT and RUN, outside DOZE entry and once no commit stops it. -/
def State.dmaRuns (s : State) : Bool :=
  (s.mode == .boot || s.mode == .run) && s.get .DEV_MODE_PHASE != 1 && !(s.power.orderly.any (·.committed))

end Sys2Proof.Machine
end

