-- ==== Sys2Proof/Machine/SlateCodes.lean ====
section
/-! DEFINITION. The codes of a Slate page: the word code's check bytes, the BCH page code, and the outcome of a read
with a given set of flipped bits (11 R324 to R326). -/

namespace Sys2Proof.Machine

set_option Elab.async false

/-- Product of two polynomials over GF(2), as bit sets; `n` bits of the second are used. -/
def clMul (a b : Nat) : Nat → Nat
  | 0 => 0
  | n + 1 => Nat.xor (clMul a b n) (if b.testBit n then a * 2 ^ n else 0)

/-- The minimal polynomial of α^i, as a bit set: the product of x − c over the 16 conjugates (R324). -/
def minimalPoly (i : Nat) : Nat :=
  let conj := (List.range 16).map fun k => alpha (i * 2 ^ k % 65535)
  let cs := conj.foldl (fun p c => List.zipWith Nat.xor (p ++ [0]) (0 :: p.map (gfMul c))) [1]
  cs.foldl (fun v c => 2 * v + c) 0

/-- The generator: the product of the minimal polynomials of α^1, α^3, … α^79, of degree 640. -/
def slateGenerator : Nat := (List.range 40).foldl (fun g i => clMul g (minimalPoly (2 * i + 1)) 17) 1

/-- The parity after one more message bit. -/
def parityBit (g r : Nat) (u : Bool) : Nat :=
  let r' := 2 * r % 2 ^ 640
  if r.testBit 639 != u then Nat.xor r' (g % 2 ^ 640) else r'

/-- Message bits u_0 to u_36863 of a page's 512 words: its data bytes, then its check bytes. -/
def messageBits (ws : List DWord) : List Bool :=
  (ws.flatMap fun w => (List.range 64).map (w.getLsbD ·)) ++
    ws.flatMap fun w => (List.range 8).map ((checkByte w).getLsbD ·)

/-- r(x) = u(x) · x^640 mod g(x), with the coefficient of x^k in bit k. -/
def slateParity (ws : List DWord) : Nat := (messageBits ws).foldl (parityBit slateGenerator) 0

/-- Parity byte `i` of a page: bit b is the coefficient of x^(639 − 8i − b). -/
def parityByte (r i : Nat) : Nat :=
  (List.range 8).foldl (fun v b => if r.testBit (639 - 8 * i - b) then v + 2 ^ b else v) 0

/-- The 37,504 code bits of a programmed page, message bits first, then parity from x^639 down. -/
def codeBits (ws : List DWord) : List Bool :=
  let r := slateParity ws
  messageBits ws ++ (List.range 640).map fun k => r.testBit (639 - k)

/-- What a page read finds (R325, R326). -/
inductive PageRead
  | erased (zeros : Nat)
  | good (corrections : Nat)
  | uncorrectable
  deriving DecidableEq, Repr

/-- The word and row bit of code bit j below 36,864. -/
def codePlace (j : Nat) : Nat × Nat :=
  if j < 32768 then (j / 64, j % 64) else ((j - 32768) / 8, 64 + (j - 32768) % 8)

/-- The error that the word pass leaves in word `w`'s row after the flips `f`, and whether the word is uncorrectable.
The code is linear, so the stored data do not matter. -/
def wordResidue (f : Nat) : Nat × Bool :=
  let row : BitVec 72 := BitVec.ofNat 72 f
  let syn := (checkByte (row.setWidth 64) ^^^ (row >>> 64).setWidth 8).toNat
  if syn = 0 then (f, false)
  else match columnIndex syn with
    | some i => (Nat.xor f (2 ^ i), false)
    | none => (f, true)

/-- The code bit that holds bit `b` of word `w`'s row. -/
def placeCode (w b : Nat) : Nat := if b < 64 then 64 * w + b else 32768 + 8 * w + (b - 64)

/-- S_i of an error pattern, a list of code bits: code bit j is the coefficient of x^(37,503 − j). -/
def pageSyndrome (e : List Nat) (i : Nat) : Nat :=
  e.foldl (fun a j => Nat.xor a (alpha (i * (37503 - j) % 65535))) 0

/-- The bits that the page code's decoder changes for an error pattern: the only ones within its reach of 40, if any. Up
to 40 errors are found as they are, since two codewords differ in 81 bits at least. -/
def decodePattern (e : List Nat) : Option (List Nat) :=
  if e.length ≤ 40 then some e
  else
    let syn := (List.range 80).map fun i => pageSyndrome e (i + 1)
    let st := (List.range 80).foldl (locatorStep syn) ⟨[1], [1], 0, 1, 1⟩
    let roots := (List.range 37504).filter fun j =>
      evalPoly st.lam.reverse (alpha ((65535 - (37503 - j)) % 65535)) == 0
    if 40 < st.len || roots.length ≠ st.len then none else some roots

/-- Bits in one of two patterns but not in both. -/
def patternXor (a b : List Nat) : List Nat := a.filter (!b.contains ·) ++ b.filter (!a.contains ·)

/-- The bits of an error pattern in each word's row, for the words that have any. -/
def patternRows (e : List Nat) : List (Nat × Nat) :=
  (((e.filter (· < 36864)).map fun j => (codePlace j).1).eraseDups).map fun w =>
    (w, (e.filter fun j => decide (j < 36864) && (codePlace j).1 == w).foldl
      (fun v j => Nat.xor v (2 ^ (codePlace j).2)) 0)

/-- The words of a page after the bits of a pattern are inverted. -/
def invertBits (ws : List DWord) (e : List Nat) : List DWord :=
  (patternRows e).foldl (fun ws r => ws.set r.1 (ws.getD r.1 0 ^^^ BitVec.ofNat 64 r.2)) ws

/-- Steps 1 to 4 of R325 on a codeword with the code bits `e` inverted; `ws` are the codeword's words. The code is linear,
so that only the pattern matters. -/
def decodeRead (ws : List DWord) (e : List Nat) : PageRead × List DWord :=
  let rows := (patternRows e).map fun r => (r.1, wordResidue r.2)
  let left := (rows.flatMap fun r => ((List.range 72).filter fun b => r.2.1.testBit b).map (placeCode r.1)) ++
    e.filter (36864 ≤ ·)
  let clean := left.isEmpty || (decide (80 < left.length) && (List.range 40).all fun i => pageSyndrome left (2 * i + 1) == 0)
  if clean && rows.all fun r => !r.2.2 then (.good 0, invertBits ws left)
  else match decodePattern left with
    | none => (.uncorrectable, ws)
    | some f =>
      let after := patternXor left f
      if (patternRows after).all fun r => decide ((wordResidue r.2).1 = r.2) && !(wordResidue r.2).2 then
        (.good f.length, invertBits ws after)
      else (.uncorrectable, ws)

/-- Zero bits among a page's code bits with the bits `flips` inverted. -/
def zeroBits (ws : List DWord) (flips : List Nat) : Nat :=
  let bits := codeBits ws
  let turned := (flips.filter fun j => bits.getD j false).length
  (bits.filter fun b => !b).length + turned - (flips.length - turned)

/-- The read of a programmed page whose stored bits differ from its codeword in the bits `flips` (no repeats): the test of
R326 first, for which a page with many zero data bits need not be counted out, then the decoding. -/
def readProgrammed (ws : List DWord) (flips : List Nat) : PageRead × List DWord :=
  let many := decide (40 + flips.length < (ws.map fun w => 64 - weight w.toNat 64).sum)
  if !many && decide (zeroBits ws flips ≤ 40) then (.erased (zeroBits ws flips), List.replicate 512 (BitVec.allOnes 64))
  else decodeRead ws flips

/-- The read of an erased page with the bits `flips` at zero; with more than 40 of them it is decoded as what it holds,
which differs from the zero codeword in every other bit. -/
def readErased (flips : List Nat) : PageRead × List DWord :=
  if flips.length ≤ 40 then (.erased flips.length, List.replicate 512 (BitVec.allOnes 64))
  else decodeRead (List.replicate 512 0) ((List.range 37504).filter (!flips.contains ·))

end Sys2Proof.Machine
end

