-- ==== Sys2Proof/Machine/SlateOps.lean ====
section
/-! DEFINITION. The Slate die: geometry, block map, page reads, programs, erases, wear and retirement
(11 R312 to R337). -/

namespace Sys2Proof.Machine

set_option Elab.async false

/-! ## Partitions (Table 11-1) -/

inductive Partition
  | slot (n : Nat) | directory | settings (c : Nat) | archive | spares | user (x : Nat)
  deriving DecidableEq, Repr

/-- The partition of a logical block. -/
def partitionOf (l : Nat) : Partition :=
  let bank := l / 512
  let b := l % 512
  if 4 ≤ bank then .user ((bank - 4) * 16 + b / 32)
  else if b < 384 then .slot bank
  else if b < 448 then
    (if bank = 0 then .directory else if bank = 1 then .settings 0 else if bank = 2 then .settings 1 else .archive)
  else .spares

/-- First logical block of a partition. -/
def Partition.base : Partition → Nat
  | .slot n => 512 * n
  | .directory => 384
  | .settings c => 512 * (c + 1) + 384
  | .archive => 512 * 3 + 384
  | .spares => 448
  | .user x => 2048 + 32 * x

/-- The lock bit of a partition (R337). -/
def State.locked (s : State) : Partition → Bool
  | .slot n => s.bit .SLT_PART_SLOT_LOCK n
  | .directory => s.flag .SLT_PART_DIR_LOCK
  | .settings c => s.bit .SLT_PART_SET_LOCK c
  | .archive => s.flag .SLT_PART_LOG_LOCK
  | .spares => false
  | .user _ => s.flag .SLT_PART_USER_LOCK

def State.lockPartition (s : State) : Partition → State
  | .slot n => s.putBit .SLT_PART_SLOT_LOCK n true
  | .directory => s.putFlag .SLT_PART_DIR_LOCK true
  | .settings c => s.putBit .SLT_PART_SET_LOCK c true
  | .archive => s.putFlag .SLT_PART_LOG_LOCK true
  | .spares => s
  | .user _ => s.putFlag .SLT_PART_USER_LOCK true

/-- The endurance rating of a partition (Table 11-5). -/
def Partition.rating : Partition → Nat
  | .slot _ => 10000
  | _ => 100000

/-! ## Physical blocks (R313) -/

/-- Physical block of spare n (R314). -/
def spareBlock (n : Nat) : Nat := 512 * (n / 64) + 448 + n % 64

def State.physOf (s : State) (l : Nat) : Nat := (SMap.look none s.slate.map l).getD l

/-- The flash bank of a logical block. -/
def State.flashBank (s : State) (l : Nat) : Nat := s.physOf l / 512

def State.blockErases (s : State) (p : Nat) : Nat := SMap.look 0 s.slate.erases p

def State.pageKind (s : State) (l page : Nat) : PageKind := SMap.look .erased s.slate.page (64 * s.physOf l + page)

/-- The 512 words of a page as programmed. -/
def State.pageWords (s : State) (l page : Nat) : List DWord :=
  SMap.lookList (BitVec.allOnes 64) s.slate.word (512 * (64 * s.physOf l + page)) 512

def State.pageBytes (s : State) (l page : Nat) : List Byte := (s.pageWords l page).flatMap fun w => leBytes 8 w.toNat

/-- Words of a run of bytes, padded with erased bytes. -/
def wordsOf (bs : List Byte) (n : Nat) : List DWord :=
  (List.range n).map fun i => BitVec.ofNat 64 (ofLe ((List.range 8).map fun j => bs.getD (8 * i + j) 0xFF))

/-- The block's next unprogrammed page. -/
def State.nextPage (s : State) (l : Nat) : Nat :=
  (List.range 64).foldl (fun n i => if s.pageKind l i = .erased then n else i + 1) 0

/-! ## Wear (R330, R331) -/

def State.blockState (s : State) (l : Nat) : Nat := s.get .SLT_BLK_WEAR_STATE l

/-- The first time a measure reaches its warning level in an erase cycle. -/
def State.wearCheck (s : State) (l : Nat) : State :=
  if !s.flag .SLT_BLK_WEAR_WEAR_WARN l &&
      (decide (16 ≤ s.get .SLT_BLK_WEAR_PULSE_MAX l) || decide (24 ≤ s.get .SLT_BLK_WEAR_CORR_MAX l)) then
    let s := s.putFlag .SLT_BLK_WEAR_WEAR_WARN true l
    s.logEvent 0x0202 l (s.regValue .SLT_BLK_WEAR l)
  else s

def State.noteCorrections (s : State) (l n : Nat) : State :=
  (s.put .SLT_BLK_WEAR_CORR_MAX (max (s.get .SLT_BLK_WEAR_CORR_MAX l) n) l).wearCheck l

def State.notePulses (s : State) (l n : Nat) : State :=
  (s.put .SLT_BLK_WEAR_PULSE_MAX (max (s.get .SLT_BLK_WEAR_PULSE_MAX l) (min n 31)) l).wearCheck l

/-- SLT_BLK_WEAR[l].OVER_RATED (R330). -/
def State.overRated (s : State) (l : Nat) : Bool := decide ((partitionOf l).rating < s.blockErases (s.physOf l))

/-! ## Reads (R325 to R327, Table 11-4) -/

/-- Words of an erased page, and those given with a page that has no data. -/
def blankWords : List DWord := List.replicate 512 (BitVec.allOnes 64)
def noWords : List DWord := List.replicate 512 0

/-- Stored bits of a page that read inverted: each at most once, and only code bits. -/
def pageFlips (flips : List Nat) : List Nat := (flips.filter (· < 37504)).eraseDups

/-- A block that no spare replaces: its reads return POISON (R337). -/
def State.unreplaced (s : State) (l : Nat) : Bool := s.blockState l == 2

/-- One read of a page with the stored bits `flips` inverted: what it finds, and the data. An undefined page may read
as anything, differently at each read (R327): a free value. -/
def State.readPage (s : State) (l page : Nat) (flips : List Nat) : State × PageRead × List DWord :=
  if s.unreplaced l then (s, .uncorrectable, noWords)
  else match s.pageKind l page with
    | .erased => (s, readErased (pageFlips flips))
    | .programmed => (s, readProgrammed (s.pageWords l page) (pageFlips flips))
    | .uncorrectable => (s, .uncorrectable, noWords)
    | .undefined =>
      let c := (Config.undefinedPage s.freeCount).toNat
      let n := s.freeCount
      (s.spend, if c ≤ 40 then .erased c else if c ≤ 81 then .good (c - 41) else .uncorrectable,
        if c ≤ 40 then blankWords else (List.range 512).map fun i => Config.undefinedWord n i)

/-- What the controller records of a read (R331, Table 11-4); of a block that is not replaced, nothing. -/
def State.noteRead (s : State) (l page : Nat) (r : PageRead) : State :=
  if s.unreplaced l then s else
  match r with
  | .erased _ => s
  | .good 0 => s
  | .good n => (s.bump .SLT_RD_ERR_PAGE_CORR).noteCorrections l n
  | .uncorrectable =>
    let n := 64 * l + page
    let s := (s.bump .SLT_RD_ERR_UE_PAGES).put .SLT_LAST_UE_PAGE n
    ((s.putFlag .SLT_LAST_UE_VALID true).stamp .SLT_LAST_UE_TIME_TIME).logEvent 0x0201 n

/-! ## Units in flight (R320 to R322) -/

/-- The unit runs: it has started and is not suspended. -/
def FlashUnit.runs (u : FlashUnit) : Bool := !u.waiting && !u.suspended

/-- SLT_STAT follows the units in flight. -/
def State.showFlash (s : State) : State :=
  let bits := fun (p : FlashUnit → Bool) => (List.range 8).foldl (fun v b =>
    if s.slate.units.any (fun u => p u && s.flashBank u.block == b) then v + 2 ^ b else v) 0
  ((s.put .SLT_STAT_PROGRAMMING (bits fun u => !u.erase && u.runs)).put .SLT_STAT_ERASING
    (bits fun u => u.erase && u.runs)).put .SLT_STAT_SUSPENDED (bits fun u => u.erase && u.suspended)

def State.setUnits (s : State) (us : List FlashUnit) : State := { s with slate := { s.slate with units := us } }.showFlash

/-- An erase of block `l` is running or suspended. -/
def State.erasing (s : State) (l : Nat) : Bool := s.slate.units.any fun u => u.erase && !u.waiting && u.block == l

/-- A unit of block `l` is in flight or waits to start. -/
def State.blockBusy (s : State) (l : Nat) : Bool := s.slate.units.any fun u => u.block == l

/-- A page program runs in flash bank b (R318). -/
def State.programmingBank (s : State) (b : Nat) : Bool :=
  s.slate.units.any fun u => !u.erase && u.runs && s.flashBank u.block == b

/-- An erase of flash bank b has run for less than 200 µs since it started or resumed (R322). -/
def State.eraseFresh (s : State) (b : Nat) : Bool :=
  s.slate.units.any fun u => u.erase && u.runs && s.flashBank u.block == b && decide (s.now < u.since + 200000)

/-- Every running erase of flash bank b is suspended (R322); `long` until the stream ends. -/
def State.suspendBank (s : State) (b : Nat) (long : Bool) : State :=
  let hit := fun u : FlashUnit => u.erase && !u.waiting && s.flashBank u.block == b
  let n := (s.slate.units.filter fun u => hit u && !u.suspended).length
  (s.setUnits (s.slate.units.map fun u =>
    if hit u then { u with suspended := true, long := u.long || long, since := if u.suspended then u.since else s.now } else u)).bump
    .SLT_SUSPEND_SUSPENDS 0 n

/-! ## Reads that wait (R316, R318) -/

/-- The logical block that a transaction at the Slate window addresses. -/
def Txn.slateBlock (t : Txn) : Option Nat :=
  if 0x1_0000_0000 ≤ t.addr ∧ t.addr < 0x1_4000_0000 then some ((t.addr - 0x1_0000_0000) / 0x4_0000) else none

/-- A read stamped 0x02 or 0x04, which is started before others and suspends an erase at once (R316, R322). -/
def Txn.firstRead (t : Txn) : Bool := t.owner == 0x02 || t.owner == 0x04

/-- Reads in the queue of flash bank b, in the order in which they start: those stamped 0x02 and 0x04 first, the others in
arrival order. -/
def State.bankReads (s : State) (b : Nat) : List Txn :=
  let l := s.spine.taken.filter fun t => t.kind == .read && !t.lost && (t.slateBlock.map s.flashBank) == some b
  l.filter Txn.firstRead ++ l.filter (!Txn.firstRead ·)

/-! ### Repair reads (06 R187, R190) -/

def regionsOf (mask : Nat) : List Nat := (List.range 16).filter mask.testBit


def chunkSize (encrypted : Bool) : Nat := if encrypted then 20624 else 20608


/-- Record at position j of the image that carries region offset `o` of region k. -/
def recordOf (h : Header) (k o : Nat) : Nat :=
  let ps := regionsOf h.mask
  if h.imageType = 3 then o else ps.length * o + ps.findIdx (· == k)

/-- First logical block of segment `g` of slot `n` (11 R314). -/
def segmentBlock (slot segment : Nat) : Nat := 512 * slot + 24 * segment

/-- The blocks, counted from the image's first, that hold the chunk with the record of frame f of region k. -/
def chunkBlocks (h : Header) (k f : Nat) : List Nat :=
  let off := 768 + recordOf h k (f % 4000) / 16 * chunkSize h.encrypted
  (List.range 2).map (off / 0x4_0000 + ·) |>.filter fun b => decide (b * 0x4_0000 < off + chunkSize h.encrypted)

/-- First block of the image that region k's repairs read: that of the entry CFG_REGION_STAT names, or of the implied Gold
entry. -/
def State.repairBase (s : State) (k : Nat) : Nat :=
  let e := s.get .CFG_REGION_STAT_ENTRY k
  match s.loader.dir with
  | some d => if e < 64 then segmentBlock (d.entry.getD e {}).slot (d.entry.getD e {}).segment else 0
  | none => 0

/-- Flash banks that the oldest repair of region k reads. -/
def State.repairBanks (s : State) (k : Nat) : List Nat :=
  match (SMap.look ({} : ScrubLane) s.loader.lane k).repairs, SMap.look none s.loader.source k with
  | r :: _, some (h, _) => (chunkBlocks h k r.frame).map fun b => s.flashBank (s.repairBase k + b)
  | _, _ => []

/-- A read of flash bank b waits: of its queue, or of a repair. -/
def State.readWaits (s : State) (b : Nat) : Bool :=
  !(s.bankReads b).isEmpty || (List.range 16).any fun k => (s.repairBanks k).contains b

/-- A page holds what a verified program left. -/
def State.programPage (s : State) (l page : Nat) (ws : List DWord) : State :=
  let p := 64 * s.physOf l + page
  { s with slate := { s.slate with
      page := SMap.put .erased s.slate.page p .programmed
      word := SMap.putList (BitVec.allOnes 64) s.slate.word (512 * p) ws } }

/-- The kind of a page. -/
def State.setKind (s : State) (l page : Nat) (k : PageKind) : State :=
  { s with slate := { s.slate with page := SMap.put .erased s.slate.page (64 * s.physOf l + page) k } }

/-- A waiting unit may start: no stream holds it, and of a program no read of its bank waits and fewer than 16 programs run
there (R318, R320, Table 5-5). -/
def State.mayStart (s : State) (u : FlashUnit) : Bool :=
  let b := s.flashBank u.block
  u.waiting && !u.long && (u.erase || (!s.readWaits b &&
    decide ((s.slate.units.filter fun v => !v.erase && v.runs && s.flashBank v.block == b).length < 16)))

/-- A unit starts: until it ends, what its page or its block holds is undefined (R327). -/
def State.beginUnit (s : State) (u : FlashUnit) : State :=
  let s := s.setUnits (s.slate.units.map fun v => if v = u then { u with waiting := false, since := s.now } else v)
  if u.erase then s.forEach (List.range 64) fun s i => s.setKind u.block i .undefined
  else s.setKind u.block u.page .undefined

/-- Every waiting unit that may start does, in the order requested. -/
def State.releaseUnits (s : State) : State :=
  s.slate.units.foldl (fun s u => if s.mayStart u then s.beginUnit u else s) s

/-- The end of a stream from flash bank b lets its erases resume and its waiting units start (R322, Table 5-5). -/
def State.endLong (s : State) (b : Nat) : State :=
  (s.setUnits (s.slate.units.map fun u => if s.flashBank u.block = b then { u with long := false } else u)).releaseUnits

/-- A unit is requested. -/
def State.requestUnit (s : State) (u : FlashUnit) : State :=
  (s.setUnits (s.slate.units ++ [{ u with waiting := true }])).releaseUnits

/-- A page program is requested, with the words that the page will hold; till it starts the page reads as erased. `held`: a
stream reads its bank. -/
def State.startProgram (s : State) (l page : Nat) (ws : List DWord) (user : UnitUser) (held : Bool) : State :=
  ((s.programPage l page ws).setKind l page .erased).requestUnit { block := l, page, erase := false, user, long := held }

/-- A block erase is requested. -/
def State.startErase (s : State) (l : Nat) (user : UnitUser) (cost : Option Nat) (held : Bool) : State :=
  s.requestUnit { block := l, erase := true, long := held, user, cost }

/-- Units that have not started are dropped. -/
def State.dropWaitingUnits (s : State) : State := s.setUnits (s.slate.units.filter fun u => !u.waiting)

/-- A page is left undefined, and its block RETIRE_PENDING (R321). -/
def State.failPage (s : State) (l page : Nat) : State :=
  let p := 64 * s.physOf l + page
  { s with slate := { s.slate with
      page := SMap.put .erased s.slate.page p .undefined
      retire := SMap.put false s.slate.retire l true } }.put .SLT_BLK_WEAR_STATE 1 l

/-- A physical block's pages are erased, and its counter raised (R329). -/
def State.erasePhys (s : State) (p : Nat) : State :=
  { s with slate := { s.slate with
      page := s.slate.page.clearRange (64 * p) 64
      word := s.slate.word.clearRange (32768 * p) 32768
      erases := SMap.put 0 s.slate.erases p (min (s.blockErases p + 1) 0xFFFF_FFFF) } }

/-- The wear measures of a block start afresh with each erase. -/
def State.freshBlock (s : State) (l : Nat) : State :=
  let s := { s with slate := { s.slate with retire := SMap.put false s.slate.retire l false } }
  s.resetRegs [.SLT_BLK_WEAR_PULSE_MAX, .SLT_BLK_WEAR_CORR_MAX, .SLT_BLK_WEAR_WEAR_WARN, .SLT_BLK_WEAR_STATE,
    .SLT_BLK_WEAR_UNSTABLE] l

/-! ## Retirement (R333 to R337) -/

/-- A spare that can be drawn for a block of flash bank b: of its own bank first, lowest number first. -/
def State.drawSpare (s : State) (b : Nat) : Option Nat :=
  let free := fun n => !SMap.look false s.slate.spareUsed n
  match ((List.range 64).map (64 * b + ·)).find? fun n => decide (n < 256) && free n with
  | some n => some n
  | none => (List.range 256).find? free

/-- No spare remains: the block is WORN_UNREPLACED and its partition is locked (R337). -/
def State.noSpare (s : State) (l : Nat) : State :=
  let s := (s.put .SLT_BLK_WEAR_STATE 2 l).lockPartition (partitionOf l)
  s.logEvent 0x0204 l (s.regValue .SLT_PART)

/-- Spare n is drawn and erased. -/
def State.takeSpare (s : State) (n : Nat) : State :=
  let s := { s with slate := { s.slate with spareUsed := SMap.put false s.slate.spareUsed n true } }
  let s := s.erasePhys (spareBlock n)
  s.put .SLT_SPARE_FREE (s.get .SLT_SPARE_FREE - 1)

/-- The CRC of a block map record, over two bytes for each of its fields: the manual gives no layout (DESIGN CHOICE, log
entry 99). -/
def mapCrc (logical spare : Nat) : Nat := crc32 (leBytes 2 logical ++ leBytes 2 spare)

/-- A block map record is programmed in both rows. -/
def State.programMap (s : State) (l n : Nat) : State :=
  let r : MapRecord := { logical := l, spare := n, crc := mapCrc l n }
  { s with slate := { s.slate with
    map := SMap.put none s.slate.map l (some (spareBlock n)), rows0 := s.slate.rows0 ++ [r], rows1 := s.slate.rows1 ++ [r] } }

/-- Spare n serves logical block `l` from now on. -/
def State.serveFrom (s : State) (l n : Nat) : State :=
  let s := s.programMap l n
  let s := (s.put .SLT_SPARE_ENT_LOGICAL l n).putFlag .SLT_SPARE_ENT_IN_USE true n
  (s.freshBlock l).logEvent 0x0203 l n

/-- Spares are drawn for block `l` of flash bank b until one verifies; `bad` of them do not and are retired too. -/
def State.drawFor (s : State) (l b : Nat) : Nat → State
  | 0 => match s.drawSpare b with
    | none => s.noSpare l
    | some n => (s.takeSpare n).serveFrom l n
  | bad + 1 => match s.drawSpare b with
    | none => s.noSpare l
    | some n =>
      let s := s.takeSpare n
      let s := { s with slate := { s.slate with worn := SMap.put false s.slate.worn (spareBlock n) true } }
      State.drawFor ((s.putFlag .SLT_SPARE_ENT_WORN true n).bump .SLT_SPARE_WORN) l b bad

/-- The spare at physical block p serves no logical block any more: its entry names none (DEDUCED, log entry 99). -/
def State.withdrawSpare (s : State) (p : Nat) : State :=
  match (List.range 256).find? fun n => spareBlock n == p with
  | some n => ((s.put .SLT_SPARE_ENT_LOGICAL 0xFFF n).putFlag .SLT_SPARE_ENT_IN_USE false n).putFlag .SLT_SPARE_ENT_WORN true n
  | none => s

/-- Logical block `l` is retired. -/
def State.retireTo (s : State) (l bad : Nat) : State :=
  let old := s.physOf l
  let s := { s with slate := { s.slate with worn := SMap.put false s.slate.worn old true } }.bump .SLT_SPARE_WORN
  (s.withdrawSpare old).drawFor l (old / 512) bad

/-- The end of an erase of logical block `l`: verified after at most 8 pulses, or retired (R333, R335). The erase that fails
counts too (R329); one of a RETIRE_PENDING block is not attempted. -/
def State.eraseEnds (s : State) (l pulses badSpares : Nat) : State :=
  if SMap.look false s.slate.retire l then s.retireTo l badSpares
  else
    let p := s.physOf l
    let s := s.erasePhys p
    if 8 < pulses then s.retireTo l badSpares else s.freshBlock l

/-! ## Boot (R313) -/

/-- The logical block that a physical block serves. -/
def State.logicalOf (s : State) (p : Nat) : Option Nat :=
  match s.slate.map.find? fun e => e.2 == some p with
  | some e => some e.1
  | none => if s.physOf p = p && partitionOf p != .spares then some p else none

/-- A worn block not replaced, in the block map: its wear state and its partition's lock. -/
def State.mapWorn (s : State) (p : Nat) : State :=
  match s.logicalOf p with
  | some l => (s.put .SLT_BLK_WEAR_STATE 2 l).lockPartition (partitionOf l)
  | none => s

/-- A spare in use or worn, in the block map. -/
def State.mapSpare (s : State) (n : Nat) : State :=
  let s := s.putFlag .SLT_SPARE_ENT_WORN (SMap.look false s.slate.worn (spareBlock n)) n
  match s.logicalOf (spareBlock n) with
  | some l => (s.put .SLT_SPARE_ENT_LOGICAL l n).putFlag .SLT_SPARE_ENT_IN_USE true n
  | none => s

/-- Record i of the map array: of the two copies the first whose CRC is right. -/
def State.mapRecord (s : State) (i : Nat) : Option MapRecord :=
  ([s.slate.rows0[i]?, s.slate.rows1[i]?].filterMap id).find? fun r => r.crc == mapCrc r.logical r.spare

/-- The block map that the records give: of several for one logical block the last holds. -/
def State.readMap (s : State) : SMap (Option Nat) :=
  (List.range (min s.slate.rows0.length 1024)).foldl (fun m i => match s.mapRecord i with
    | some r => SMap.put none m r.logical (some (spareBlock r.spare))
    | none => m) []

/-- The block map and the registers that follow the die are loaded. SLT_BLK_ERASES, SLT_BLK_MAP, SLT_SPARE_ERASES and
OVER_RATED are computed when they are read (`State.shown`). -/
def State.loadBlockMap (s : State) : State :=
  let s := { s with slate := { s.slate with map := s.readMap } }
  let s := s.forEach (s.slate.retire.map (·.1)) fun s l => s.put .SLT_BLK_WEAR_STATE 1 l
  let s := s.forEach (s.slate.worn.map (·.1)) State.mapWorn
  let s := s.forEach (s.slate.spareUsed.map (·.1)) State.mapSpare
  ((s.put .SLT_SPARE_FREE (256 - s.slate.spareUsed.length)).put .SLT_SPARE_WORN s.slate.worn.length).putFlag
    .SLT_STAT_MAP_LOADED true

/-! ## The stability check (R328) -/

/-- What a stability check has found of one page. -/
structure Stability where
  first : Option (PageRead × List DWord) := none
  differ : Nat := 0
  highest : Nat := 0
  erased : Bool := true
  programmed : Bool := true
  deriving DecidableEq, Repr

/-- A read classifies the page as another did. -/
def sameClass : PageRead × List DWord → PageRead × List DWord → Bool
  | (.erased _, _), (.erased _, _) => true
  | (.good _, v), (.good _, w) => v == w
  | (.uncorrectable, _), (.uncorrectable, _) => true
  | _, _ => false

/-- One more read. -/
def Stability.add (a : Stability) (r : PageRead) (ws : List DWord) : Stability :=
  let same := (a.first.map (sameClass (r, ws))).getD true
  { first := some (a.first.getD (r, ws))
    differ := a.differ + (if same then 0 else 1)
    highest := (match r with | .good n => max a.highest n | _ => a.highest)
    erased := a.erased && (match r with | .erased n => decide (n ≤ 20) | _ => false)
    programmed := a.programmed && same && (match r with | .good n => decide (n ≤ 20) | _ => false) }

/-- The reads of one page, each with its own inverted bits. -/
def State.readTimes (s : State) (l page : Nat) (a : Stability) : List (List Nat) → State × Stability
  | [] => (s, a)
  | f :: fs =>
    let (s, r, ws) := s.readPage l page f
    State.readTimes (s.noteRead l page r) l page (a.add r ws) fs

/-- The check of a page with R = 4, whose reads find the stored bits as they are. -/
def State.stability (s : State) (l page : Nat) : State × Stability := s.readTimes l page {} (List.replicate 4 [])

/-- The bytes of a page found stable programmed. -/
def Stability.bytes (a : Stability) : Option (List Byte) :=
  if a.programmed then a.first.map fun f => f.2.flatMap fun w => leBytes 8 w.toNat else none

/-! ## Read rights (R315) -/

/-- Whether owner `o` may read the window at logical block `l` (Table 11-2). -/
def State.mayReadSlate (s : State) (o l : Nat) : Bool :=
  match partitionOf l with
  | .slot _ => o == 0x01 || o == 0x02 || o == 0x04 || s.top o == s.admin
  | .directory | .settings _ => o == 0x01
  | .archive => o == 0x01 || isTop (s.top o)
  | .user x =>
    o == 0x01 || (SMap.look 0x10 s.journal.extentFamily x != 0 && s.top o == SMap.look 0x10 s.journal.extentFamily x &&
      SMap.look 0 s.journal.extentLeft x == 0)
  | .spares => true

end Sys2Proof.Machine
end

