-- ==== Sys2Proof/Machine/ImageOps.lean ====
section
/-! DEFINITION. Images and the image directory: header, region table, hash tree, signature, records, and directory pages
with their layout, consistency and choice (spec/04). -/

namespace Sys2Proof.Machine

set_option Elab.async false

/-! ## Fuses that images need (19 R499, R504) -/

/-- A flag reads as the majority of its three copies. -/
def State.fuse (s : State) (n : Nat) : Bool := decide (2 ≤ weight (SMap.look 0 s.fuses.flag n) 3)

/-- A key slot exists, is programmed and not revoked. -/
def State.keyUsable (s : State) (slot : Nat) : Bool := decide (slot ≤ 3) && s.fuse (8 + slot) && !s.fuse (12 + slot)

/-- An image key is present. -/
def State.hasImageKey (s : State) : Bool := s.fuse 16 && !s.fuse 17

/-! ## Fields of a run of bytes -/

/-- The little-endian field of `n` bytes at offset `o`. -/
def field (bs : List Byte) (o n : Nat) : Nat := ofLe ((bs.drop o).take n)

def zeroBytes (bs : List Byte) (o n : Nat) : Bool := ((bs.drop o).take n).all (· == 0)

def bytesOfHash (h : BitVec 384) : List Byte := (leBytes 48 h.toNat).reverse

/-! ## Header and region table (R119 to R124, R139) -/

def parseHeader (h : List Byte) : Header :=
  { imageType := field h 0x00E 1, mask := field h 0x010 2, keySlot := field h 0x012 1
    encrypted := (field h 0x013 1).testBit 0, frameCount := field h 0x014 4, chunkCount := field h 0x018 4
    imageLen := field h 0x01C 4, trailer := field h 0x024 4, nonce := (h.drop 0x028).take 8
    lines := [field h 0x030 1, field h 0x031 1, field h 0x032 1], version := field h 0x034 4 }

/-- R124: which masks an image type allows. -/
def maskAllowed (imageType mask : Nat) : Bool :=
  if imageType = 1 then mask == 0xFFFF
  else if imageType = 2 then mask != 0
  else (regionsOf mask).length == 1

/-- R120: the source bytes of global lines 5 to 7. -/
def linesAllowed (h : Header) : Bool :=
  if h.imageType = 1 then h.lines.all fun b => !b.testBit 7 || decide (bitsOf b 4 3 ≤ 4) else h.lines.all (· == 0)

/-- The lengths of R119 and R139. -/
def lengthsRight (h : Header) (recordOffset : Nat) : Bool :=
  let n := (regionsOf h.mask).length
  h.frameCount == 4000 * n && h.chunkCount == 250 * n && recordOffset == 0x300 &&
    h.trailer == 768 + 250 * n * chunkSize h.encrypted && h.imageLen == h.trailer + 12000 * n + 256

/-- The header stage of Table 4-9. -/
def headerStatus (b : List Byte) : Nat :=
  let h := parseHeader b
  if b.take 4 ≠ [0x53, 0x5A, 0x4D, 0x49] || field b 4 2 ≠ 0x0200 || field b 6 2 ≠ 0x0100 ||
      field b 0x0FC 4 ≠ crc32 (b.take 252) then St.badParam
  else if field b 8 4 ≠ 0x0D31_3A5F || !(field b 0x00C 2).testBit 1 then St.idMismatch
  else if !(1 ≤ h.imageType && h.imageType ≤ 3) || field b 0x00F 1 ≠ 1 || 1 < field b 0x013 1 ||
      field b 0x033 1 ≠ 0 || !zeroBytes b 0x060 156 || !maskAllowed h.imageType h.mask || !linesAllowed h ||
      !lengthsRight h (field b 0x020 4) || h.encrypted == h.nonce.all (· == 0) then St.badParam
  else St.ok

/-- The region table stage of Table 4-9; `t` is the table's 512 bytes. -/
def tableStatus (mask : Nat) (t : List Byte) : Nat :=
  let e := fun k => (t.drop (32 * k)).take 32
  if (regionsOf mask).any fun k =>
      field (e k) 0 1 != k || field (e k) 1 1 != 1 || field (e k) 2 2 != 0 || !zeroBytes (e k) 0x10 16 then St.badParam
  else if (List.range 16).any fun k =>
      if mask.testBit k then
        field (e k) 4 2 != 4000 * k || field (e k) 6 2 != 4000 * k + 3999 || field (e k) 8 4 != 4000
      else !(e k).all (· == 0) then St.frameOutOfRegion
  else St.ok

/-! ## Hash tree and signature (R135 to R138) -/

/-- The next level of the tree. -/
def nextLevel : List (List Byte) → List (List Byte)
  | a :: b :: rest => bytesOfHash (Config.sha384 (1 :: (a ++ b))) :: nextLevel rest
  | l => l

/-- ROOT of the leaf digests, level by level; `n` bounds the levels. -/
def rootOf : Nat → List (List Byte) → List Byte
  | 0, l => l.headD []
  | n + 1, l => if l.length ≤ 1 then l.headD [] else rootOf n (nextLevel l)

/-- A run of bytes in pieces of 48. -/
def leavesOf : Nat → List Byte → List (List Byte)
  | 0, _ => []
  | n + 1, bs => bs.take 48 :: leavesOf n (bs.drop 48)

/-- The signed message M. -/
def signedMessage (head : List Byte) (root : List Byte) : List Byte := head.take 768 ++ root

/-- IDENT: the first 32 bytes of SHA-384(M). -/
def identOf (m : List Byte) : List Byte := (bytesOfHash (Config.sha384 m)).take 32

/-- The signature stage: `head` the first 768 bytes, `trailer` the leaf digest table and signature block. -/
def State.signatureOk (s : State) (h : Header) (head trailer : List Byte) : Bool :=
  let sig := trailer.drop (48 * h.chunkCount)
  let m := signedMessage head (rootOf 16 (leavesOf h.chunkCount trailer))
  let key := sig.take 97
  zeroBytes sig 0x61 7 && zeroBytes sig 0xC8 56 && s.keyUsable h.keySlot &&
    decide (bytesOfHash (Config.sha384 key) = SMap.look [] s.fuses.slotHash h.keySlot) &&
    Config.ecdsaVerify key m ((sig.drop 0x68).take 48) ((sig.drop 0x98).take 48) &&
    (!h.encrypted || s.hasImageKey)

/-! ## Records (R125 to R129, R141) -/

/-- Region that record j of an image belongs to, and the frame it carries (R127, R128). -/
def recordPlace (h : Header) (j : Nat) : Nat × Nat :=
  let ps := regionsOf h.mask
  let n := ps.length
  if h.imageType = 3 then (ps.headD 0, 4000 * ps.headD 0 + j) else (ps.getD (j % n) 0, 4000 * ps.getD (j % n) 0 + j / n)

/-- The INDEX that the record at position j must hold. -/
def recordIndex (h : Header) (j : Nat) : Nat := if h.imageType = 3 then j else (recordPlace h j).2

def recordErased (r : List Byte) : Bool := field r 0 2 == 0xFFFF && field r 2 2 == 0xFFFF

def payloadOf (r : List Byte) : List Byte := (r.drop 4).take 1280

/-- The record stage of Table 4-9. -/
def recordStatus (h : Header) (j : Nat) (r : List Byte) : Nat :=
  if field r 0 2 ≠ recordIndex h j then St.frameOutOfRegion
  else if 1 < field r 2 2 || field r 0x504 4 ≠ crc32 (payloadOf r) then St.badParam
  else St.ok

/-- The record as a frame to write. DYNAMIC counts only on RAM content frames (R126). -/
def frameWord (h : Header) (chunk i : Nat) (r : List Byte) : FrameWord :=
  let f := (recordPlace h (16 * chunk + i)).2
  { frame := f, payload := BitVec.ofNat 10240 (ofLe (payloadOf r)), crc := field r 0x504 4
    dynamic := (field r 2 2).testBit 0 && isRamContent f, chunk, record := i }

/-- The bytes of a frame's cells. -/
def frameBytes (c : BitVec 10240) : List Byte := leBytes 1280 c.toNat

/-! ## Image bytes in the store -/

/-- What a run of reads has found: the bytes, and whether any page reads as erased, is uncorrectable, or lies in a block
under erase. -/
structure Span where
  bytes : List Byte := []
  erased : Bool := false
  bad : Bool := false
  busy : Bool := false

def Span.join (a b : Span) : Span :=
  { bytes := a.bytes ++ b.bytes, erased := a.erased || b.erased, bad := a.bad || b.bad, busy := a.busy || b.busy }

/-- The bits of page n that read inverted: `errors` lists them page by page. -/
def pageErrors (errors : List (Nat × List Nat)) (n : Nat) : List Nat :=
  ((errors.find? fun e => e.1 == n).map (·.2)).getD []

/-- A page read over the spine, as eight transactions of 16 beats (01 R26, 07 R202, log entry 94). -/
def State.countPage (s : State) (c : Resp) : State := s.forEach (List.range 8) fun s _ => s.countDirect 16 c

/-- One page read for the configuration engine, which suspends an erase elsewhere in the bank (R319, R322, R323). A page
without data counts as zero bytes, so that it is never taken for an erased one (05 R159). -/
def State.enginePage (s : State) (l page : Nat) (errors : List (Nat × List Nat)) : State × Span :=
  let none4k := List.replicate 4096 (0 : Byte)
  if s.erasing l then
    ((s.bump .SLT_SUSPEND_SUSPERASE).countPage .suserase, { bytes := none4k, busy := true })
  else
    let (s, r, ws) := (s.suspendBank (s.flashBank l) false).readPage l page (pageErrors errors (64 * l + page))
    let s := (s.noteRead l page r).countPage (if r = .uncorrectable then .poison else .ok)
    if r = .uncorrectable then (s, { bytes := none4k, bad := true })
    else (s, { bytes := ws.flatMap fun w => leBytes 8 w.toNat, erased := match r with | .erased _ => true | _ => false })

/-- The `n` pages from page position `p` counted from block `l0`. -/
def State.readPages (s : State) (l0 p : Nat) (errors : List (Nat × List Nat)) : Nat → State × Span
  | 0 => (s, {})
  | n + 1 =>
    let a := s.enginePage (l0 + p / 64) (p % 64) errors
    let b := State.readPages a.1 l0 (p + 1) errors n
    (b.1, a.2.join b.2)

/-- `len` bytes at byte offset `off` from block `l0`. -/
def State.readSpan (s : State) (l0 off len : Nat) (errors : List (Nat × List Nat)) : State × Span :=
  let p := off / 4096
  let r := s.readPages l0 p errors ((4095 + (len + off)) / 4096 - p)
  (r.1, { r.2 with bytes := (r.2.bytes.drop (off - 4096 * p)).take len })

/-! ## Stages of R158 and R159 -/

/-- The result of the checks of R158 steps 1 to 3: status, stage, header, IDENT. -/
structure ImageCheck where
  status : Nat
  stage : Nat
  header : Header
  ident : List Byte

/-- Steps 1 to 3 on an image of which the first 768 bytes and the trailer are given; `agree` is the agreement with the
directory entry. -/
def State.checkImage (s : State) (head trailer : List Byte) (agree : Header → Bool) : ImageCheck :=
  let h := parseHeader head
  let hs := headerStatus (head.take 256)
  let ts := tableStatus h.mask ((head.drop 256).take 512)
  if hs ≠ St.ok then ⟨hs, 1, h, []⟩
  else if ts ≠ St.ok then ⟨ts, 2, h, []⟩
  else if !agree h then ⟨St.badParam, 1, h, []⟩
  else if !s.signatureOk h head trailer then ⟨St.authFail, 3, h, []⟩
  else ⟨St.ok, 0, h, identOf (signedMessage head (rootOf 16 (leavesOf h.chunkCount trailer)))⟩

/-- The header's agreement with a directory entry (R158 step 1). -/
def DirEntry.agrees (e : DirEntry) (h : Header) : Bool :=
  h.imageType == e.imageType && h.keySlot == e.keySlot && h.mask == e.mask && h.imageLen == e.imageLen &&
    decide (h.imageLen ≤ e.segments * 6291456)

/-- A check that met a page under erase ends with SUSPENDED_ERASE (11 R323), at the stage that read it. -/
def ImageCheck.suspended (c : ImageCheck) (stage : Nat) : ImageCheck := { c with status := St.suspendedErase, stage }

/-- The rest of the checks once the first 768 bytes are read; a header that cannot be read ends them. -/
def State.checkRest (s : State) (l0 : Nat) (errors : List (Nat × List Nat)) (agree : Header → Bool) (head : Span) :
    State × ImageCheck :=
  if head.busy then (s, (s.checkImage head.bytes [] agree).suspended 1)
  else if headerStatus (head.bytes.take 256) ≠ St.ok then (s, s.checkImage head.bytes [] agree)
  else
    let h := parseHeader head.bytes
    let (t, trailer) := s.readSpan l0 h.trailer (256 + 48 * h.chunkCount) errors
    let c := t.checkImage head.bytes trailer.bytes agree
    (t, if trailer.busy then c.suspended 3 else c)

/-- The checks of an image in the store. -/
def State.checkStored (s : State) (l0 : Nat) (errors : List (Nat × List Nat)) (agree : Header → Bool) : State × ImageCheck :=
  let r := s.readSpan l0 0 768 errors
  r.1.checkRest l0 errors agree r.2

/-- The IV of chunk c (R133). -/
def chunkIv (h : Header) (c : Nat) : List Byte := h.nonce ++ (leBytes 4 c).reverse

/-- Stages 1 to 3 of R159 on a stored chunk with its leaf digest: the status, and the plaintext records. A chunk of which a
page could not be read fails stage 2. -/
def State.openChunk (s : State) (h : Header) (c : Nat) (chunk : Span) (leaf : List Byte) : Nat × List (List Byte) :=
  let cut := fun (bs : List Byte) => (List.range 16).map fun i => (bs.drop (1288 * i)).take 1288
  let plain := if h.encrypted then
      (Config.gcmOpen s.fuses.imageKey (chunkIv h c) (chunk.bytes.take 20608) (chunk.bytes.drop 20608)) else some chunk.bytes
  if chunk.erased || chunk.bytes.length < chunkSize h.encrypted || (!h.encrypted && (cut chunk.bytes).any recordErased) then
    (St.truncated, [])
  else if chunk.bad || chunk.busy || decide (bytesOfHash (Config.sha384 (0 :: chunk.bytes)) ≠ leaf) then (St.authFail, [])
  else match plain with
    | none => (St.authFail, [])
    | some bs => if (cut bs).any recordErased then (St.truncated, []) else (St.ok, cut bs)

/-! ## The directory (R144 to R149) -/

def freeEntry : DirEntry := {}

/-- The 48 bytes of an entry (Table 4-11). -/
def DirEntry.bytes (e : DirEntry) : List Byte :=
  if e.state = 0 then List.replicate 48 0
  else [e.state, e.slot, e.segment, e.segments, e.imageType, e.keySlot].map (BitVec.ofNat 8 ·) ++ leBytes 2 e.mask ++
    leBytes 4 e.imageLen ++ leBytes 4 e.version ++ (e.ident ++ List.replicate 32 0).take 32

def parseEntry (b : List Byte) : DirEntry :=
  { state := field b 0 1, slot := field b 1 1, segment := field b 2 1, segments := field b 3 1
    imageType := field b 4 1, keySlot := field b 5 1, mask := field b 6 2, imageLen := field b 8 4
    version := field b 0x0C 4, ident := (b.drop 0x10).take 32 }

/-- The page (Table 4-10). -/
def Directory.bytes (d : Directory) : List Byte :=
  let b := [0x53, 0x5A, 0x4D, 0x44] ++ leBytes 2 0x0100 ++ leBytes 2 0 ++ leBytes 8 d.generation ++
    [d.bootEntry, d.goldEntry, d.bootStyle, 0].map (BitVec.ofNat 8 ·) ++ d.regionEntry.map (BitVec.ofNat 8 ·) ++
    List.replicate 28 0 ++ d.entry.flatMap DirEntry.bytes ++ List.replicate 956 0
  b ++ leBytes 4 (crc32 b)

def parseDirectory (b : List Byte) : Directory :=
  { generation := field b 8 6, bootEntry := field b 0x10 1, goldEntry := field b 0x11 1, bootStyle := field b 0x12 1
    regionEntry := (List.range 16).map fun k => field b (0x14 + k) 1
    entry := (List.range 64).map fun e => parseEntry ((b.drop (0x40 + 48 * e)).take 48) }

def Directory.at (d : Directory) (e : Nat) : DirEntry := d.entry.getD e freeEntry

/-- Entry e names a VALID FULL entry. -/
def Directory.fullEntry (d : Directory) (e : Nat) : Bool := e < 64 && (d.at e).state == 2 && (d.at e).imageType == 1

/-- Entry e names a VALID one-region or several-region image that carries region k. -/
def Directory.carries (d : Directory) (e k : Nat) : Bool :=
  e < 64 && (d.at e).state == 2 && ((d.at e).imageType == 2 || (d.at e).imageType == 3) && (d.at e).mask.testBit k

def entriesOverlap (a b : DirEntry) : Bool :=
  a.slot == b.slot && decide (a.segment < b.segment + b.segments) && decide (b.segment < a.segment + a.segments)

/-- R146, but for the bytes. -/
def Directory.consistent (d : Directory) : Bool :=
  let used := (List.range 64).filter fun e => (d.at e).state != 0
  (used.all fun e => (d.at e).slot ≤ 3 && (d.at e).segment + (d.at e).segments ≤ 16) &&
    (used.all fun a => used.all fun b => a == b || !entriesOverlap (d.at a) (d.at b)) &&
    (d.fullEntry d.goldEntry && (d.at d.goldEntry).slot == 0 && (d.at d.goldEntry).segment == 0) &&
    (d.bootEntry == 0xFF || d.fullEntry d.bootEntry) &&
    (List.range 16).all fun k => d.regionEntry.getD k 0xFF == 0xFF || d.carries (d.regionEntry.getD k 0xFF) k

/-- WRITING entries left by an earlier boot count as FREE (R148). -/
def Directory.dropWriting (d : Directory) : Directory :=
  { d with entry := d.entry.map fun e => if e.state = 1 then freeEntry else e }

/-- A page's bytes are those of a consistent page: its magic, version, reserved bytes and CRC are the layout's own. -/
def pageConsistentDir (b : List Byte) : Bool :=
  let d := parseDirectory b
  decide (d.bytes = b) && d.dropWriting.consistent && (d.bootStyle == 0 || d.bootStyle == 1)

/-- Position a is the later of two (R148). -/
def laterPosition (a b : Nat) : Bool := decide ((a + 512 - b) % 512 < 256)

/-- The better of two pages as the current one: the higher GENERATION, and of equal ones the later position (R148). -/
def betterPage (best : Option (Directory × Nat)) (d : Directory) (i : Nat) : Option (Directory × Nat) :=
  match best with
  | none => some (d, i)
  | some (b, j) =>
    if b.generation < d.generation || (b.generation = d.generation && laterPosition i j) then some (d, i) else best

/-- The current directory page at boot (R148): among the pages that the stability check finds stable programmed (11 R328)
and that are consistent. -/
def State.findDirectory (s : State) : State × Option (Directory × Nat) :=
  (List.range 512).foldl (fun a i =>
    let (l, page) := (384 + i / 64, i % 64)
    if a.1.pageKind l page = .erased then a
    else
      let (t, c) := a.1.stability l page
      match c.bytes with
      | some b => if pageConsistentDir b then (t, betterPage a.2 (parseDirectory b) i) else (t, a.2)
      | none => (t, a.2)) (s, none)

end Sys2Proof.Machine
end

