-- ==== Sys2Proof/Machine/LoadOps.lean ====
section
/-! DEFINITION. Loading, wiping, fallback and scrubbing as operations on the state (05 R158 to R173, 06 R180 to R196). -/

namespace Sys2Proof.Machine

set_option Elab.async false

/-! ## Jobs and region states -/

def State.setLoader (s : State) (l : Loader) : State := { s with loader := l }

def State.setRegion (s : State) (k st : Nat) : State := s.put .CFG_REGION_STAT_STATE st k

/-- The first logical block of the image a job reads. -/
def State.jobBlock (s : State) (j : LoadJob) : Nat :=
  match s.loader.dir with
  | some d => if j.entry < 64 then segmentBlock (d.at j.entry).slot (d.at j.entry).segment else 0
  | none => 0

/-- The entry a job's header must agree with: one of the directory, or the implied Gold entry (R158 step 1). -/
def State.jobAgrees (s : State) (j : LoadJob) (h : Header) : Bool :=
  if j.entry = 0xFD then true
  else match s.loader.dir with
    | some d => (d.at j.entry).agrees h
    | none => h.imageType == 1 && h.mask == 0xFFFF && decide (h.imageLen ≤ 16 * 6291456)

/-- The physical flash banks of `len` bytes from logical block `l0` on (11 R336). -/
def State.spanBanks (s : State) (l0 len : Nat) : List Nat :=
  ((List.range ((len + 262143) / 262144)).map fun i => s.flashBank (l0 + i)).eraseDups

/-- A page program runs in a flash bank that holds an entry's image, so that its reads wait (11 R318). -/
def State.programmingEntry (s : State) (e : DirEntry) : Bool :=
  (s.spanBanks (segmentBlock e.slot e.segment) (e.segments * 6291456)).any s.programmingBank

/-- Flash banks that hold the image of a job: of each of its blocks the physical bank (11 R336). -/
def State.jobBanks (s : State) (j : LoadJob) : List Nat :=
  match j.header with
  | some h => if j.entry = 0xFD then []
    else s.spanBanks (s.jobBlock j) h.imageLen
  | none => []

/-- Flash banks that a load or reload stream reads. -/
def State.streamBanks (s : State) : List Nat := (s.loader.jobs.flatMap s.jobBanks).eraseDups

/-- A stream reads flash bank b, so that no program or erase starts in it (Table 5-5). -/
def State.streaming (s : State) (b : Nat) : Bool := s.streamBanks.contains b

/-- A stream begins: the erases in its flash banks are suspended until it ends (11 R322). -/
def State.beginStream (s : State) (j : LoadJob) : State := (s.jobBanks j).foldl (fun s b => s.suspendBank b true) s

/-- Streams have ended: what waited in the flash banks `banks`, if none reads them any more, goes on. -/
def State.endStreams (s : State) (banks : List Nat) : State :=
  (banks.filter fun b => !s.streaming b).foldl State.endLong s

/-- A job is over. -/
def State.endJob (s : State) (i : Nat) : State :=
  match s.loader.jobs[i]? with
  | none => s
  | some j =>
    let s := s.setLoader { s.loader with jobs := s.loader.jobs.eraseIdx i
                                         stream := if j.entry = 0xFD then [] else s.loader.stream
                                         streamDone := s.loader.streamDone || j.entry == 0xFD }
    s.endStreams (s.jobBanks j)

def State.writer (s : State) (k : Nat) : Writer := SMap.look {} s.loader.writer k
def State.setWriter (s : State) (k : Nat) (w : Writer) : State :=
  s.setLoader { s.loader with writer := SMap.put {} s.loader.writer k w }

/-! ## Scrub lanes (06 R181, R182, R194) -/

def State.scrubLane (s : State) (k : Nat) : ScrubLane := SMap.look {} s.loader.lane k

def State.showLanes (s : State) : State :=
  s.put .CFG_SCRUB_STAT_ACTIVE ((List.range 16).foldl (fun v k => if (s.scrubLane k).running then v + 2 ^ k else v) 0)

def State.setLane (s : State) (k : Nat) (l : ScrubLane) : State :=
  (s.setLoader { s.loader with lane := SMap.put {} s.loader.lane k l }).showLanes

/-- The words of SCRUB_QUERY's reply (R195). -/
def queryWord (l : ScrubLane) (notScrubbed cut : Bool) : Nat :=
  if notScrubbed then 2 ^ 24 else l.matched + 2 ^ 12 * l.mismatched + 2 ^ 25 * cut.toNat

def State.setQueries (s : State) (l : List ScrubQuery) : State := s.setLoader { s.loader with queries := l }

def State.mapQueries (s : State) (f : ScrubQuery → ScrubQuery) : State := s.setQueries (s.loader.queries.map f)

/-- Region k has answered a query. -/
def ScrubQuery.has (q : ScrubQuery) (k : Nat) : Bool := q.words.any fun w => w.1 == k

def ScrubQuery.done (q : ScrubQuery) : Bool := (regionsOf q.mask).all q.has

/-- Queries all of whose regions have answered are replied to. -/
def State.settleQueries (s : State) : State :=
  let done := s.loader.queries.filter ScrubQuery.done
  let s := s.setQueries (s.loader.queries.filter fun q => !q.done)
  done.foldl (fun s q => s.reply q.mailbox St.ok ((regionsOf q.mask).map fun k =>
    BitVec.ofNat 32 (((q.words.find? fun w => w.1 == k).map (·.2)).getD 0))) s

/-- Scrub lanes may run (06 R192): in BOOT and RUN, until DOZE entry stops them. -/
def State.lanesRun (s : State) : Bool := (s.mode == .boot || s.mode == .run) && !s.dozing

/-- Region k stops being scrubbed: a query whose sweep has begun takes the counts so far, one that waits takes none. -/
def State.cutQueries (s : State) (k : Nat) : State :=
  let l := s.scrubLane k
  let s := s.mapQueries fun q =>
    if q.mask.testBit k && !q.has k then { q with words := q.words ++ [(k, queryWord l (!q.begun.contains k) true)] } else q
  s.settleQueries

/-- A new sweep of region k begins at offset 0. -/
def State.startSweep (s : State) (k : Nat) : State :=
  let l := s.scrubLane k
  let s := s.setLane k { l with running := true, next := 0, sweepStart := s.now, matched := 0, mismatched := 0 }
  s.mapQueries fun q =>
    if q.mask.testBit k && !q.begun.contains k then { q with begun := q.begun ++ [k] } else q

/-- Queued repairs are abandoned, and programs that waited for their reads may start; the last mismatch, if it is one of them, reads OUTCOME 4. -/
def State.abandonRepairs (s : State) (k : Nat) : State :=
  let l := s.scrubLane k
  let s := s.setLane k { l with repairs := [] }
  let s := if s.get .CFG_SCRUB_LAST_OUTCOME == 5 && l.repairs.any (fun r => r.frame == s.get .CFG_SCRUB_LAST_FRAME) then
      s.put .CFG_SCRUB_LAST_OUTCOME 4
    else s
  s.releaseUnits

/-- An injection armed for a frame of region k, which is no longer scrubbed, is dropped (R196). -/
def State.dropInjection (s : State) (k : Nat) : State :=
  if s.flag .CFG_SCRUB_INJECT_ARM && s.get .CFG_SCRUB_INJECT_FRAME / 4000 == k then s.putFlag .CFG_SCRUB_INJECT_ARM false
  else s

/-- The lane of region k stops for a reload, a wipe, a power-down, SAFE or HOLDUP (R191, R192). -/
def State.stopLane (s : State) (k : Nat) : State :=
  let s := s.dropInjection k
  if (s.scrubLane k).running then
    let s := (s.abandonRepairs k).cutQueries k
    s.setLane k { s.scrubLane k with running := false }
  else s

/-- DOZE stops a lane without ending its queries (R192, R195). -/
def State.dozeLane (s : State) (k : Nat) : State :=
  if (s.scrubLane k).running then
    let s := s.abandonRepairs k
    let s := s.mapQueries fun q => { q with begun := q.begun.filter (· ≠ k) }
    s.setLane k { s.scrubLane k with running := false }
  else s

/-- The live entry of a frame: its CRC and skip bit; `none` where its region has never completed a load. -/
def State.liveEntry (s : State) (f : Nat) : Option (Nat × Bool) := SMap.look none s.loader.live f

/-- The region is scrubbed (R181): not in SAFE or HOLDUP (Table 6-3). -/
def State.scrubbed (s : State) (k : Nat) : Bool := s.loaded k && s.regionOn k && s.mode != .safe && s.mode != .holdup

/-! ## Wipes (R164) -/

/-- A wipe of region k begins: it is fenced, and counts as never having completed a load. -/
def State.startWipe (s : State) (k : Nat) : State :=
  let s := (s.stopLane k).addFence k fun f => { f with load := true }
  let s := ((s.setRegion k 4).put .CFG_REGION_STAT_ENTRY 0xFF k).setWriter k {}
  s.setLoader { s.loader with
    live := s.loader.live.clearRange (4000 * k) 4000, staged := s.loader.staged.clearRange (4000 * k) 4000
    ident := SMap.put [] s.loader.ident k [], source := SMap.put none s.loader.source k none }

/-- The wipe's frames are written: every cell, and with them every flip-flop and RAM content, is 0. -/
def State.wipeCells (s : State) (k : Nat) : State :=
  { s with fabric := { s.fabric with
      cells := s.fabric.cells.clearRange (4000 * k) 4000
      flop := s.fabric.flop.clearRange (64 * 4000 * k) (64 * 4000)
      ram := s.fabric.ram.clearRange (4000 * k) 4000
      mac := s.fabric.mac.clearRange (4000 * k) 4000 } }

/-! ## Failures (Table 5-3) -/

/-- A failure charged to region k is recorded (CFG_REGION_FAIL, LAST_STATUS) and logged. -/
def State.noteRegionFail (s : State) (k status stage chunk record : Nat) : State :=
  let s := (s.put .CFG_REGION_FAIL_CHUNK chunk k).put .CFG_REGION_FAIL_RECORD record k
  let s := (s.put .CFG_REGION_FAIL_STAGE stage k).put .CFG_REGION_STAT_LAST_STATUS status k
  s.logEvent 0x0102 (status + 65536 * k) (chunk + 4096 * record + 65536 * stage) (0x20 + k)

/-- Region k's load alone is aborted: wiped, fenced, ABORTED when the wipe ends. -/
def State.abortRegion (s : State) (k status stage chunk record : Nat) : State :=
  let s := (s.noteRegionFail k status stage chunk record).bump .CFG_REGION_COUNT_ABORTS k
  let s := (s.addFence k fun f => { f with abort := true }).startWipe k
  s.setLoader { s.loader with jobs := s.loader.jobs.map fun j =>
    if j.header.isSome then { j with regions := j.regions.filter (· ≠ k) } else j }

/-- The checks of R158 failed for these regions: the position of the failure, and the status of their last load attempt. -/
def State.noteCheckFail (s : State) (ks : List Nat) (status stage : Nat) : State :=
  s.forEach ks fun s k =>
    (((s.put .CFG_REGION_FAIL_CHUNK 0 k).put .CFG_REGION_FAIL_RECORD 0 k).put .CFG_REGION_FAIL_STAGE stage k).put
      .CFG_REGION_STAT_LAST_STATUS status k

/-- A failing image's identification in CFG_BOOT_FAIL, or CFG_GOLD_FAIL for the Gold image. -/
def State.noteBootFail (s : State) (j : LoadJob) (status stage chunk record : Nat) : State :=
  if j.kind = .gold then
    ((s.put .CFG_GOLD_FAIL_STATUS status).put .CFG_GOLD_FAIL_ENTRY j.entry).put .CFG_GOLD_FAIL_STAGE stage
  else
    let s := ((s.put .CFG_BOOT_FAIL_STATUS status).put .CFG_BOOT_FAIL_ENTRY j.entry).put .CFG_BOOT_FAIL_STAGE stage
    if stage = 4 || stage = 5 then (s.put .CFG_FAIL_POS_CHUNK chunk).put .CFG_FAIL_POS_RECORD record else s

/-- Regions that a boot's images have begun to write or have loaded. -/
def State.begunRegions (s : State) : List Nat :=
  (List.range 16).filter fun k =>
    s.regionState k == 3 || (s.regionState k == 2 && decide (0 < s.get .CFG_REGION_FRAMES_FRAMES k))

/-- A boot's image fails as a whole (R165 to R167, R512): every writer stops, every region begun is wiped, and the
fallback to Gold is due; a Gold image, or one loaded by JTAG in a failed boot, leaves the boot FAILED. -/
def State.failBoot (s : State) (j : LoadJob) (status stage chunk record : Nat) : State :=
  let s := s.noteBootFail j status stage chunk record
  let s := s.logEvent 0x0102 status (chunk + 4096 * record + 65536 * stage)
  let s := s.forEach j.regions fun s k => s.put .CFG_REGION_STAT_LAST_STATUS status k
  let begun := s.begunRegions
  let banks := s.streamBanks
  let s := s.setLoader { s.loader with jobs := [], stream := [], streamDone := s.loader.streamDone || j.entry == 0xFD }
  let s := s.endStreams banks
  let s := s.forEach (List.range 16) fun s k =>
    if begun.contains k then s.startWipe k
    else if s.regionState k == 1 || s.regionState k == 2 then (s.setRegion k 0).setWriter k {} else s
  if j.kind = .gold then
    (((s.put .CFG_BOOT_STAT_STATE 5).putFlag .SAF_STAT_FAULT true).logEvent 0x0104 (s.regValue .CFG_GOLD_FAIL)).showAllPins
  else if j.kind = .jtag then (s.put .CFG_BOOT_STAT_STATE 5).showAllPins
  else
    let s := ((s.put .CFG_BOOT_STAT_STATE 3).putFlag .CFG_BOOT_STAT_FALLBACK true).logEvent 0x0103
      (s.regValue .CFG_BOOT_FAIL)
    s.setLoader { s.loader with fallback := true }

/-- A chunk of a reload fails: every region of the reload is wiped and stays fenced, ABORTED. -/
def State.failReload (s : State) (i : Nat) (j : LoadJob) (status chunk : Nat) : State :=
  let s := s.endJob i
  s.forEach j.regions fun s k =>
    let s := (s.noteRegionFail k status 4 chunk 0).bump .CFG_REGION_COUNT_ABORTS k
    (s.addFence k fun f => { f with abort := true }).startWipe k

/-- SAFE or HOLDUP cuts every stream, wipe and pending reload (R169, Table 5-5). What waited for a stream goes on in SAFE; in
HOLDUP it is dropped later (11 Table 11-9). -/
def State.cutLoads (s : State) (safe : Bool) : State :=
  let busy := (List.range 16).filter s.loading
  let banks := s.streamBanks
  let s := s.setLoader { s.loader with jobs := [], stream := [], streamDone := true, fallback := false, reloads := [] }
  let s := if safe then s.endStreams banks else s
  s.forEach busy fun s k =>
    let s := (s.setRegion k 5).setWriter k {}
    if safe then (s.put .CFG_REGION_STAT_LAST_STATUS St.safeMode k).bump .CFG_REGION_COUNT_ABORTS k else s

/-! ## Records and frames (R159 to R162) -/

/-- A record that passed its chunk's stages: checked, staged in the signature table, and routed to its writer. -/
def State.takeRecord (s : State) (j : LoadJob) (h : Header) (chunk i : Nat) (r : List Byte) : State :=
  let pos := 16 * chunk + i
  let (k, f) := recordPlace h pos
  if !j.regions.contains k || s.regionState k != 2 then s
  else
    let st := recordStatus h pos r
    if st ≠ St.ok then s.abortRegion k st 5 chunk i
    else
      let w := frameWord h chunk i r
      let s := s.setWriter k { s.writer k with waiting := (s.writer k).waiting ++ [w] }
      s.setLoader { s.loader with staged := SMap.put none s.loader.staged f (some (w.crc, w.dynamic)) }

/-- The check bits of an ECC block are computed into its content cells (R162, 04 R132). -/
def State.sealRam (s : State) (f : Nat) : State :=
  let c := s.ramConfig f
  if c.ecc then
    let n := (eccBits c.widthA).1
    s.forEach (List.range (ramDepth c.widthA)) fun s w =>
      s.ramWrite f c c.widthA w (BitVec.allOnes 8) (s.ramWord f c.widthA w % 2 ^ n)
  else s

/-- The payload to write of a held content frame, once the RAM tile's control frame `c` has come: with its check bits
filled in where the control frame selects an ECC shape (R162). -/
def State.sealedPayload (s : State) (tile : List FrameWord) (c f : FrameWord) : BitVec 10240 :=
  (((tile ++ [c]).foldl (fun s x => s.putCells x.frame x.payload) s).sealRam (c.frame - 4)).cells f.frame

/-- The frame that region k's writer writes next: the first of a RAM tile's that it holds, once the tile's control frame has
come (R162), else the frame at its front. -/
def Writer.next (w : Writer) : Option FrameWord :=
  match w.waiting, w.tile with
  | [], _ => none
  | f :: _, [] => if isRamContent f.frame then none else some f
  | f :: _, g :: _ => if isRamContent f.frame then none else some g

/-- The writer of region k holds the content frame at its front back, or writes one confirmed frame. -/
def State.writeFrame (s : State) (k : Nat) (w : Writer) (f : FrameWord) : State :=
  let count := fun s : State => s.put .CFG_REGION_FRAMES_FRAMES (s.get .CFG_REGION_FRAMES_FRAMES k + 1) k
  if isRamContent f.frame then s.setWriter k { w with waiting := w.waiting.tail, tile := w.tile ++ [f] }
  else match w.tile with
    | g :: rest => count ((s.putCells g.frame (s.sealedPayload w.tile f g)).setWriter k { w with tile := rest })
    | [] => count ((s.putCells f.frame f.payload).setWriter k { w with waiting := w.waiting.tail })

/-! ## Completion (R163) -/

/-- The settings of a general pin's frame; the all-zero payload is the unconfigured pin of 17 R465. -/
def State.gioSettings (s : State) (n : Nat) : Nat :=
  let c := s.cells (peripheryFrame (n / 32) (n % 32))
  if c = 0 then 1 else (Config.gioCells c).toNat

/-- Likewise of a field pin; bit 8 marks a configured pin. -/
def State.fioSettings (s : State) (n : Nat) : Nat :=
  let c := s.cells (peripheryFrame (12 + n / 16) (32 + n % 16))
  if c = 0 then 0 else (Config.fioCells c).toNat % 256 + 256

/-- The VCCIO code of region k's bank, as its control frame sets it. -/
def State.vccioSettings (s : State) (k : Nat) : Nat := (Config.vccioCells (s.cells (peripheryFrame k 76))).toNat

def holdLevel (v : Nat) : Option PinLevel :=
  if v = 0 then none else if v = 1 then some .hiz else if v = 2 then some .low else some .high

def safeLevel (v : Nat) : PinLevel := if v = 0 then .hiz else if v = 1 then .low else .high

/-- The hold registers and the VCCIO regulator take the new periphery frames (R163 step 2; 20 R520, R521). The ramp ends
before the load completes. -/
def State.takePeriphery (s : State) (k : Nat) : State :=
  let s := match bankOfRegion k with
    | none => s
    | some b =>
      let code := s.vccioSettings k
      let inForce := if 6 ≤ code then 0 else code
      let bad := fun n => let g := s.gioSettings n; decide (bitsOf g 4 3 ≠ 0) && decide (bitsOf g 4 3 ≠ inForce)
      let pins := (List.range 32).map (32 * b + ·)
      let err := decide (6 ≤ code) || pins.any bad
      let s := ((s.put .GIO_BANK_STAT_VCCIO inForce b).putFlag .GIO_BANK_STAT_RAMPING false b).putFlag
        .GIO_BANK_STAT_CFG_ERR err b
      s.forEach pins fun s n =>
        let g := s.gioSettings n
        s.putGio n { s.gioPin n with hold := holdLevel (bitsOf g 0 2), safe := safeLevel (bitsOf g 2 2)
                                     malformed := bad n, settings := g }
  match fieldGroupOfRegion k with
  | none => s
  | some g => s.forEach ((List.range 16).map (16 * g + ·)) fun s n =>
      s.putFio n { s.fioPin n with holdLast := (s.fioSettings n).testBit 0, settings := s.fioSettings n }

/-- A completed load re-enables the pins of region k that a short or an overcurrent disabled (20 R524, R527); what a pin
without a detection showed falls. -/
def State.rearmAll (s : State) (k : Nat) : State :=
  let s := match bankOfRegion k with
    | none => s
    | some b => s.put .GIO_SHORT_DISABLED 0 b
  match fieldGroupOfRegion k with
  | none => s
  | some g =>
    let s := (s.put .FIO_OUT_STAT_SHORT 0 g).putFlag .FIO_GRP_STAT_OVERLOAD false g
    s.forEach (List.range 16) fun s i =>
      let p := s.fioPin (16 * g + i)
      let s := s.putFio (16 * g + i) { p with overload := false }
      let s := if p.settings.testBit 8 && !p.settings.testBit 1 then s else s.putBit .FIO_IN_IN i false g
      let s := if p.settings.testBit 3 then s else s.putBit .FIO_DIAG_OPEN_LOAD i false g
      if p.settings.testBit 4 then s else s.putBit .FIO_DIAG_WIRE_BREAK i false g

/-- Region k's staged signature entries and skip bits become live in one step (04 R143). -/
def State.swapSignatures (s : State) (k : Nat) : State :=
  let mine := s.loader.staged.filter fun e => decide (4000 * k ≤ e.1) && decide (e.1 < 4000 * k + 4000)
  let live := (s.loader.live.filter fun e => decide (e.1 < 4000 * k)) ++ mine ++
    s.loader.live.filter fun e => decide (4000 * k + 4000 ≤ e.1)
  s.setLoader { s.loader with live, staged := s.loader.staged.clearRange (4000 * k) 4000 }

/-- Global lines 5 to 7 from a FULL image at boot (03 R100). -/
def State.setGlobalLines (s : State) (h : Header) : State :=
  { s with fabric := { s.fabric with globalLines := SMap.putList 0 [] 5 (h.lines.take 3) } }

/-- The port sides the image enables (03 R105). -/
def State.setPortSides (s : State) (k : Nat) : State :=
  s.forEach ((List.range 4).map (4 * k + ·)) fun s p =>
    s.putPort p { s.port p with iniOn := s.portCells p % 2 == 1, tgtOn := s.portCells p / 2 % 2 == 1 }

/-- A job whose chunks have all been read and whose regions have all ended is over; a FULL image of a boot supplies global
lines 5 to 7, though every region be overlaid (R151). -/
def State.settleJob (s : State) (i : Nat) : State :=
  match s.loader.jobs[i]? with
  | some { kind, regions := [], header := some h, next, .. } =>
    if next < h.chunkCount then s
    else (if h.imageType = 1 && kind != .reload then s.setGlobalLines h else s).endJob i
  | _ => s

/-- Region k's last frame is confirmed and its load completes. -/
def State.completeLoad (s : State) (k i : Nat) (j : LoadJob) (h : Header) : State :=
  let s := (((s.takePeriphery k).rearmAll k).swapSignatures k).initFlops k
  let s := ((s.setRegion k 3).put .CFG_REGION_STAT_ENTRY j.entry k).put .CFG_REGION_STAT_LAST_STATUS 0 k
  let s := s.bump .CFG_REGION_COUNT_LOADS k
  let s := s.setLoader { s.loader with
    source := SMap.put none s.loader.source k (if j.entry = 0xFD then none else some (h, s.jobBlock j))
    ident := SMap.put [] s.loader.ident k j.ident
    goldTouched := SMap.put false s.loader.goldTouched k false
    jobs := s.loader.jobs.set i { j with regions := j.regions.filter (· ≠ k) } }
  let s := s.logEvent 0x0101 k j.entry (0x20 + k)
  let s := s.setPortSides k
  let wait := s.awaitsPll k
  let s := (s.clearFence k fun f => { f with load := false, abort := false, dep := wait }).showPins k
  if s.lanesRun then s.startSweep k else s

/-! ## Repairs (06 R187 to R189) -/

/-- A repair of region k fails: the region is wiped and stays fenced. -/
def State.failRepair (s : State) (k frame cause status : Nat) : State :=
  let s := (s.put .CFG_SCRUB_FAIL_FRAME frame k).put .CFG_SCRUB_FAIL_CAUSE cause k
  let s := if s.get .CFG_SCRUB_LAST_FRAME == frame then s.put .CFG_SCRUB_LAST_OUTCOME 3 else s
  let s := (s.logEvent 0x0106 frame cause (0x20 + k)).put .CFG_REGION_STAT_LAST_STATUS status k
  ((s.bump .CFG_REGION_COUNT_ABORTS k).addFence k fun f => { f with abort := true }).startWipe k

/-- Check 2 of R187, or what R188 puts in its place. -/
def State.repairSource (s : State) (k : Nat) : Bool :=
  let e := s.get .CFG_REGION_STAT_ENTRY k
  if e = 0xFE then !SMap.look false s.loader.goldTouched k
  else match s.loader.dir with
    | some d => e < 64 && (d.at e).state == 2 && decide ((d.at e).ident = SMap.look [] s.loader.ident k)
    | none => false

/-- Steps 1 to 3 of R187 for a frame of region k: the chunk that holds its record is read, and the record's payload with its
CRC; or CAUSE of the failure. -/
def State.repairRecord (s : State) (k f : Nat) (h : Header) (errors : List (Nat × List Nat)) :
    State × Except Nat (List Byte × Nat) :=
  let j := recordOf h k (frameOffset f)
  let (s, chunk) := s.readSpan (s.repairBase k) (768 + j / 16 * chunkSize h.encrypted) (chunkSize h.encrypted) errors
  if chunk.bad || chunk.busy then (s, .error 1)
  else if !s.repairSource k then (s, .error 2)
  else
    let plain := if h.encrypted then
        Config.gcmOpen s.fuses.imageKey (chunkIv h (j / 16)) (chunk.bytes.take 20608) (chunk.bytes.drop 20608)
      else some chunk.bytes
    match plain.map fun p => (p.drop (1288 * (j % 16))).take 1288 with
    | none => (s, .error 3)
    | some b =>
      if field b 0 2 ≠ recordIndex h j || some (field b 0x504 4) ≠ (s.liveEntry f).map (·.1) then (s, .error 3)
      else (s, .ok (payloadOf b, field b 0x504 4))

/-- The repair at the front of region k's queue, with `misses` failed confirmations (R187 to R189). A payload that does not
have its record's CRC fails its confirmation each time. -/
def State.repairFrame (s : State) (k : Nat) (r : Repair) (misses : Nat) (errors : List (Nat × List Nat)) : State :=
  let (s, got) := match SMap.look none s.loader.source k with
    | none => (s, Except.error 2)
    | some (h, _) => s.repairRecord k r.frame h errors
  let s := s.setLane k { s.scrubLane k with repairs := (s.scrubLane k).repairs.tail }
  match got with
  | .error cause => s.failRepair k r.frame cause St.authFail
  | .ok (payload, crc) =>
    if 3 ≤ misses || crc32 payload ≠ crc then s.failRepair k r.frame 4 St.unstable
    else
      let s := (s.putCells r.frame (BitVec.ofNat 10240 (ofLe payload))).bump .CFG_SCRUB_CNT_REPAIRS k
      if s.get .CFG_SCRUB_LAST_FRAME == r.frame then s.put .CFG_SCRUB_LAST_OUTCOME 1 else s

/-! ## Comparisons (06 R180, R182) -/

/-- The next static frame of region k's sweep from its lane's place, as a region offset. -/
def State.nextStatic (s : State) (k : Nat) : Option Nat :=
  let l := s.scrubLane k
  ((List.range (4000 - l.next)).map (l.next + ·)).find? fun o =>
    !((s.liveEntry (4000 * k + o)).map (·.2)).getD false

/-- A sweep of region k has visited its last frame: counts, and the queries that used it. -/
def State.endSweep (s : State) (k : Nat) : State :=
  let l := s.scrubLane k
  let us := min ((s.now - l.sweepStart + 999) / 1000) 8191
  let s := (s.bump .CFG_SCRUB_SWEEPS_SWEEPS k).put .CFG_SCRUB_TIME_LAST_US us k
  let s := s.put .CFG_SCRUB_TIME_MAX_US (max us (s.get .CFG_SCRUB_TIME_MAX_US k)) k
  let s := s.mapQueries fun q =>
    if q.begun.contains k && !q.has k then { q with words := q.words ++ [(k, queryWord l false false)] } else q
  (s.settleQueries).startSweep k

/-- A lane's place after the frame at offset `o`; past the last static frame the sweep ends. -/
def State.laneAfter (s : State) (k o : Nat) : State :=
  let s := s.setLane k { s.scrubLane k with next := o + 1 }
  if (s.nextStatic k).isNone then s.endSweep k else s

/-- Upsets have struck the cells of a frame. -/
def State.upset (s : State) (f : Nat) (bits : List (Fin 10240)) : State :=
  s.putCells f (bits.foldl (fun c b => c ^^^ BitVec.ofNat 10240 (2 ^ b.val)) (s.cells f))

end Sys2Proof.Machine
end

