-- ==== Sys2Proof/Machine/BankOps.lean ====
section
/-! DEFINITION. The shared banks: rows, words, poison, page correction, re-seal, reads and writes, scrubbing, remapping,
clears and the redirection of a slice test (spec/09). -/

namespace Sys2Proof.Machine

set_option Elab.async false

/-! ## Groups, power and rows (09 R251, R252, R270) -/

def groupOfBank (n : Nat) : Nat := n / 8
def quadrantOfBank (n : Nat) : Nat := n / 32

def State.bankOwner (s : State) (n : Nat) : Nat := s.get .BNK_OWNER_OWNER n

/-- A bank answers DARK while its group is off, during DOZE, until a clear of it ends (R274, 08 R241, 13 R383), and
while a self-test program runs (18 R487). -/
def State.bankDark (s : State) (n : Nat) : Bool :=
  !s.groupOn (groupOfBank n) || s.mode == .doze || s.mode == .off || s.flag .BNK_OWNER_CLEARING n ||
    s.flag .BNK_STAT_PU_CLEAR n || s.testing

/-- The spare cell that serves a cell index, if a remap entry holds it. -/
def State.spareOf (s : State) (n cell : Nat) : Option Nat :=
  (List.range 16).find? fun e =>
    s.flag .BNK_REMAP_ENT_VALID (16 * n + e) && s.get .BNK_REMAP_ENT_CELL (16 * n + e) == cell

def State.rowKey (s : State) (n cell : Nat) : Nat :=
  131072 * n + (match s.spareOf n cell with | some e => 66560 + e | none => cell)

/-- What the rows of bank n that no command has written since read as: the zeros of a clear, or what a self-test cut short
has left in them. Rows are stored as their difference from it. -/
def State.rowBase (s : State) (n key : Nat) : BitVec 72 :=
  match SMap.look 0 s.banks.left n with
  | 0 => 0
  | q + 1 => Config.cutRow q key

def State.rowAt (s : State) (n cell : Nat) : BitVec 72 :=
  SMap.look 0 s.banks.row (s.rowKey n cell) ^^^ s.rowBase n (s.rowKey n cell)

/-- A row rewritten: an injected error in it is gone. -/
def State.putRow (s : State) (n cell : Nat) (r : BitVec 72) : State :=
  let k := s.rowKey n cell
  { s with banks := { s.banks with
      row := SMap.put 0 s.banks.row k (r ^^^ s.rowBase n k), injected := SMap.put false s.banks.injected k false } }

/-- A cell as the word code reads it (R256). -/
def State.wordAt (s : State) (n cell : Nat) : Decoded := decodeRow (s.rowAt n cell)

def State.putWord (s : State) (n cell : Nat) (d : DWord) : State := s.putRow n cell (encodeRow d)

/-- A row of the cell holds an error injected through BNK_INJECT (R281). -/
def State.injectedAt (s : State) (n cell : Nat) : Bool := SMap.look false s.banks.injected (s.rowKey n cell)

/-- The 512 data words and 8 parity words of a page, as cell indices. -/
def dataCells (p : Nat) : List Nat := (List.range 512).map (512 * p + ·)
def parityCells (p : Nat) : List Nat := (List.range 8).map (65536 + 8 * p + ·)
def pageCells (p : Nat) : List Nat := dataCells p ++ parityCells p

/-! ## Poison (R261) and what is recorded of errors -/

/-- The poison bit of word `w`: the majority of its three copies. -/
def State.poisoned (s : State) (n w : Nat) : Bool :=
  let c := SMap.look (0 : BitVec 3) s.banks.poison (65536 * n + w)
  (c.getLsbD 0 && c.getLsbD 1) || (c.getLsbD 0 && c.getLsbD 2) || (c.getLsbD 1 && c.getLsbD 2)

/-- The poison bit of word `w`, and BNK_POISON[n].COUNT with it. -/
def State.setPoison (s : State) (n w : Nat) (b : Bool) : State :=
  if s.poisoned n w = b then s
  else
    let c := s.get .BNK_POISON_COUNT n
    { s with banks := { s.banks with poison := SMap.put 0 s.banks.poison (65536 * n + w) (if b then 7 else 0) } }.put
      .BNK_POISON_COUNT (if b then c + 1 else c - 1) n

/-- BNK_LAST_ERR[n] and its time; of events at one instant the higher KIND stays. -/
def State.noteErr (s : State) (n kind cell : Nat) (inj : Bool) : State :=
  if s.now == s.get .BNK_LAST_TIME_TIME n && decide (kind < s.get .BNK_LAST_ERR_KIND n) then s
  else
    let s := ((s.put .BNK_LAST_ERR_KIND kind n).put .BNK_LAST_ERR_CELL cell n).put .BNK_LAST_ERR_OWNER (s.bankOwner n) n
    (s.putFlag .BNK_LAST_ERR_INJECTED inj n).stamp .BNK_LAST_TIME_TIME n

/-- A detection of diagnostic 2 or 3 in bank n: contained, counted and logged (17 R456, Table 17-1; that a corrected word
too is logged as DIAG is DEDUCED, log entry 39). -/
def State.bankDiag (s : State) (diag n : Nat) (inj : Bool) : State :=
  s.logDiag diag n none (s.bankOwner n) (if inj then flagInjected else 0)

/-- An uncorrectable word is poisoned, by the scrubber or by an access (R260, R262, R267): counted and logged with its
spine address and the bank's owner. -/
def State.poisonWord (s : State) (n w : Nat) (scrub inj : Bool) : State :=
  let addr := 0x8_0000 * n + 8 * w
  let flags := if inj then flagInjected else 0
  if scrub then
    ((((s.setPoison n w true).bump .BNK_UE_LATENT_UE n).logEvent 0x0C02 addr (65536 * n) (s.bankOwner n) flags).bankDiag
      3 n inj).noteErr n 3 w inj
  else
    ((((s.setPoison n w true).bump .BNK_UE_ACCESS_UE n).logEvent 0x0C01 addr (65536 * n) (s.bankOwner n) flags).bankDiag
      2 n inj).noteErr n 4 w inj

/-- A correction in a spare cell has a counter of its own (R270). -/
def State.countSpare (s : State) (n cell : Nat) : State :=
  if (s.spareOf n cell).isSome then s.bump .BNK_CE_SPARE_COUNT n else s

/-- A word corrected by the word code: rewritten and counted; a spare cell has its own counter too (R270). -/
def State.fixWord (s : State) (n cell : Nat) (d : DWord) (access : Bool) : State :=
  let inj := s.injectedAt n cell
  let s := if access then s.bankDiag 2 n inj else s
  (((s.putWord n cell d).bump .BNK_CE_WORD_CE n).noteErr n 1 cell inj).countSpare n cell

/-- A data word that is uncorrectable and not poisoned. -/
def State.unsound (s : State) (n w : Nat) : Bool := !s.poisoned n w && (s.wordAt n w).bad

/-! ## Page correction and re-seal (R259, R260) -/

/-- Bank n has ended a page correction, a re-seal or a clear: the request at its ingress head comes next (R253). -/
def State.owe (s : State) (n : Nat) (b : Bool) : State :=
  { s with banks := { s.banks with owed := SMap.put false s.banks.owed n b } }


/-- The logical values of a page, data then parity. -/
def State.pageValues (s : State) (n p : Nat) : List DWord := (pageCells p).map fun c => (s.wordAt n c).value

/-- Writes a page's parity words with fresh word codes. -/
def State.putParity (s : State) (n p : Nat) (ps : List DWord) : State :=
  (ps.zipIdx).foldl (fun s wi => s.putWord n (65536 + 8 * p + wi.2) wi.1) s

/-- A re-seal of page p, recorded with the cell that R259 names. -/
def State.reseal (s : State) (n p cell : Nat) (scrub inj : Bool) : State :=
  let s := (dataCells p).foldl (fun s w => if s.unsound n w then s.poisonWord n w scrub inj else s) s
  ((s.putParity n p (pageParity ((dataCells p).map fun c => (s.wordAt n c).value))).noteErr n 5 cell inj).owe n true

/-- The words the page code decodes to, put into the cells they change, or the page resealed where it does not decode. -/
def State.settlePage (s : State) (n p cell : Nat) (scrub inj : Bool) : Option (List DWord) → State × Option (List Nat)
  | some ws =>
    let changed := ((pageCells p).zip ws).filter fun cw =>
      let old := s.wordAt n cw.1
      decide (old.value ≠ cw.2) || (old.bad && !(decide (cw.1 < 65536) && s.poisoned n cw.1))
    let s := changed.foldl (fun s cw => (s.putWord n cw.1 cw.2).countSpare n cw.1) (if scrub then s else s.bankDiag 2 n inj)
    (((s.bump .BNK_CE_PAGE_CORR n).noteErr n 2 cell inj).owe n true, some (changed.map (·.1)))
  | none => (s.reseal n p cell scrub inj, none)

/-- A page correction of page p, started at `cell`: the cells it rewrote, or none where a lane failed and the page was
poisoned and re-sealed. A word found uncorrectable counts as a word whose value changes. -/
def State.correctPage (s : State) (n p cell : Nat) (scrub : Bool) : State × Option (List Nat) :=
  s.settlePage n p cell scrub ((pageCells p).any (s.injectedAt n)) (decodePage (s.pageValues n p))

/-! ## Reads and writes of a bank's own words (R262 to R265) -/

/-- An ordinary read of word `w`; `none` is POISON. -/
def State.readWord (s : State) (n w : Nat) : State × Option DWord :=
  if s.poisoned n w then (s, none)
  else match s.wordAt n w with
    | .clean d => (s, some d)
    | .corrected d => (s.fixWord n w d true, some d)
    | .uncorrectable _ =>
      match s.correctPage n (w / 512) w false with
      | (s', some _) => (s', some (s'.wordAt n w).value)
      | (s', none) => (s', none)

/-- The page correction that a write starts, for the first of its words that is uncorrectable and not poisoned. -/
def State.mendForWrite (s : State) (n p : Nat) (ws : List (Nat × DWord)) : State :=
  match ws.find? fun wd => s.unsound n wd.1 with
  | some wd => (s.correctPage n p wd.1 false).1
  | none => s

/-- Single errors in the words a write replaces are corrected first, each reported as an access finds it. -/
def State.fixTargets (s : State) (n : Nat) (ws : List (Nat × DWord)) : State :=
  ws.foldl (fun s wd => match s.wordAt n wd.1 with
    | .corrected d => if s.poisoned n wd.1 then s else s.fixWord n wd.1 d true
    | _ => s) s

/-- Single errors in the page's parity words, likewise. -/
def State.fixParity (s : State) (n p : Nat) : State :=
  ((parityCells p).filter fun c => (s.wordAt n c).fixed).foldl (fun s c => s.fixWord n c (s.wordAt n c).value true) s

/-- A write to a page that holds poison: the words are replaced and the parity is computed over the whole page. -/
def State.sealWrite (s : State) (n p : Nat) (ws : List (Nat × DWord)) (c : Nat) : State :=
  (ws.foldl (fun s wd => (s.putWord n wd.1 wd.2).setPoison n wd.1 false) s).reseal n p c false false

/-- A write to a sound page: the parity moves by the difference of the old and the new words. -/
def State.deltaWrite (s : State) (n p : Nat) (ws : List (Nat × DWord)) : State :=
  let old := (parityCells p).map fun c => (s.wordAt n c).value
  let s := s.fixParity n p
  let new := ws.foldl (fun ps wd => deltaParity (wd.1 % 512) ((s.wordAt n wd.1).value ^^^ wd.2) ps) old
  (ws.foldl (fun s wd => s.putWord n wd.1 wd.2) s).putParity n p new

/-- Full-word writes of words of one page, the words of one beat (R258, R265). -/
def State.writeWords (s : State) (n : Nat) (ws : List (Nat × DWord)) : State :=
  match ws with
  | [] => s
  | first :: _ =>
    let p := first.1 / 512
    let s := s.mendForWrite n p ws
    let sealAt := (ws.find? fun wd => s.poisoned n wd.1).map (·.1)
    let s := if sealAt.isNone && (parityCells p).any (fun c => (s.wordAt n c).bad) then
        (s.correctPage n p (65536 + 8 * p) false).1 else s
    let s := s.fixTargets n ws
    match sealAt with
    | some c => s.sealWrite n p ws c
    | none => s.deltaWrite n p ws

/-! ## Redirection by a slice test (R275 to R277) -/

def State.slice (s : State) (g : Nat) : Option SliceTest := SMap.look none s.banks.slice g

def State.setSlice (s : State) (g : Nat) (t : Option SliceTest) : State :=
  { s with banks := { s.banks with slice := SMap.put none s.banks.slice g t } }

/-- The slice test whose page holds word `w` of bank n. -/
def State.sliceOver (s : State) (n w : Nat) : Option SliceTest :=
  (s.slice (groupOfBank n)).filter fun t => t.bank == n && t.page == w / 512

/-- The parked place of word `w` of the page under test. -/
def SliceTest.parked (t : SliceTest) (w : Nat) : Nat × Nat := (t.parkBank, 512 * t.parkPage + w % 512)

/-- Where an access to word `w` goes. -/
def State.route (s : State) (n w : Nat) : Nat × Nat :=
  match s.sliceOver n w with
  | none => (n, w)
  | some t =>
    let c := t.copied.contains (w % 512)
    if (t.step = 1 && !c) || (t.step = 4 && c) || t.step = 5 then (n, w) else t.parked w

/-- Where a write goes: in the save, a word not yet copied is written in the park page and counts as copied. -/
def State.routeWrite (s : State) (n w : Nat) : State × Nat × Nat :=
  match s.sliceOver n w with
  | some t =>
    if t.step = 1 && !t.copied.contains (w % 512) then
      (s.setSlice (groupOfBank n) (some { t with copied := t.copied ++ [w % 512] }), t.parked w)
    else (s, s.route n w)
  | none => (s, n, w)

/-- A read of data word `w` of bank n as a requester sees it. -/
def State.bankRead (s : State) (n w : Nat) : State × Option DWord :=
  let r := s.route n w
  s.readWord r.1 r.2

/-- The full-word writes of one beat as a requester makes them: the words of one target page go together. -/
def State.bankWrite (s : State) (n : Nat) (ws : List (Nat × DWord)) : State :=
  let (s, routed) := ws.foldl (fun (a : State × List ((Nat × Nat) × DWord)) wd =>
    let r := a.1.routeWrite n wd.1
    (r.1, a.2 ++ [(r.2, wd.2)])) (s, [])
  let (here, there) := routed.partition fun x => x.1.1 == n
  let s := s.writeWords n (here.map fun x => (x.1.2, x.2))
  match there with
  | [] => s
  | x :: _ => s.writeWords x.1.1 (there.map fun x => (x.1.2, x.2))

/-! ## Beats at a bank (07 R202, R203) -/

/-- 64-bit word `i` of a beat's data, and its 8 byte enables. -/
def beatWord (d : BitVec 256) (i : Nat) : DWord := (d >>> (64 * i)).setWidth 64
def beatEnables (be : BitVec 32) (i : Nat) : Nat := bitsOf be.toNat (8 * i) 8

/-- A beat's data from four words. -/
def ofBeatWords (ws : List DWord) : BitVec 256 :=
  BitVec.ofNat 256 (ws.zipIdx.foldl (fun n wi => n + wi.1.toNat * 2 ^ (64 * wi.2)) 0)

/-- The response of word codes, none for a word that is not accessed: words that completed OK in WOK, the lowest code
that is not OK, all ones where a word is not OK. -/
def beatResponse (codes : List (Option Resp)) (data : List DWord) : BeatOut :=
  { code := ((codes.filterMap id).find? (· ≠ .ok)).getD .ok
    wok := BitVec.ofNat 4 (codes.zipIdx.foldl (fun n ci => if ci.1 = some .ok then n + 2 ^ ci.2 else n) 0)
    data := ofBeatWords ((codes.zip data).map fun cd => if cd.1 = some .ok then cd.2 else BitVec.allOnes 64) }

/-- Word `w` of a read beat, whose enables are `e`. A word with no enable set is not accessed. -/
def State.bankReadPart (s : State) (n w e : Nat) : State × Option Resp × DWord :=
  if e = 0 then (s, none, 0)
  else if e ≠ 255 then (s, some .narrow, 0)
  else match s.bankRead n w with
    | (s', some d) => (s', some .ok, d)
    | (s', none) => (s', some .poison, 0)

/-- A read beat at word index `w` (a multiple of 4). -/
def State.bankReadBeat (s : State) (n w : Nat) (be : BitVec 32) : State × BeatOut :=
  let (s, out) := (List.range 4).foldl (fun (a : State × List (Option Resp × DWord)) i =>
    let r := a.1.bankReadPart n (w + i) (beatEnables be i)
    (r.1, a.2 ++ [r.2])) (s, [])
  (s, beatResponse (out.map (·.1)) (out.map (·.2)))

/-- A write beat at word index `w`. -/
def State.bankWriteBeat (s : State) (n w : Nat) (b : BeatIn) : State × BeatOut :=
  let full := (List.range 4).filter fun i => beatEnables b.be i == 255
  let codes := (List.range 4).map fun i =>
    if beatEnables b.be i = 0 then none else some (if beatEnables b.be i = 255 then Resp.ok else .narrow)
  (s.bankWrite n (full.map fun i => (w + i, beatWord b.data i)),
    beatResponse codes (List.replicate 4 0))

/-! ## Scrubbing and remapping (R266 to R271) -/

def State.suspects (s : State) (n : Nat) : List (Nat × Nat) := SMap.look [] s.banks.suspects n

def State.setSuspects (s : State) (n : Nat) (l : List (Nat × Nat)) : State :=
  { s with banks := { s.banks with suspects := SMap.put [] s.banks.suspects n l } }.put .BNK_SUSPECT_USED l.length n

def State.pass (s : State) (n : Nat) : Nat := SMap.look 0 s.banks.pass n

def State.setPass (s : State) (n p : Nat) : State :=
  let s := { s with banks := { s.banks with pass := SMap.put 0 s.banks.pass n p } }
  s.setSuspects n ((s.suspects n).filter fun e => decide (p ≤ e.2 + 1))

/-- A hard word moves to the lowest free spare cell (R270); `inj` says that the correction was of an injected error. -/
def State.remapWord (s : State) (n cell : Nat) (inj : Bool) : State :=
  match (List.range 16).find? fun e => !s.flag .BNK_REMAP_ENT_VALID (16 * n + e) with
  | none =>
    (s.putFlag .BNK_STAT_REMAP_FULL true n).logEvent 0x0C03 n cell (s.bankOwner n) (if inj then flagInjected else 0)
  | some e =>
    let v := (s.wordAt n cell).value
    let s := (s.put .BNK_REMAP_ENT_CELL cell (16 * n + e)).putFlag .BNK_REMAP_ENT_VALID true (16 * n + e)
    let s := (s.putWord n cell v).bump .BNK_STAT_REMAP_USED n
    let s := s.putFlag .BNK_STAT_REMAP_FULL (s.get .BNK_STAT_REMAP_USED n == 16) n
    { s with banks := { s.banks with remapChanged := true } }.noteErr n 6 cell inj

/-- A word that the scrubber corrected (R269). A spare cell is never remapped again. -/
def State.suspect (s : State) (n cell : Nat) (inj : Bool) : State :=
  if (s.spareOf n cell).isSome then s
  else
    let l := s.suspects n
    let p := s.pass n
    if l.any fun e => e.1 == cell && e.2 + 1 == p then
      (s.setSuspects n (l.filter fun e => !(e.1 == cell && e.2 + 1 == p))).remapWord n cell inj
    else if l.contains (cell, p) then s
    else if l.length < 32 then s.setSuspects n (l ++ [(cell, p)])
    else s.bump .BNK_SUSPECT_SUSPECT_OVF n

/-- The work of one scrub step on page p. -/
def State.scrubPage (s : State) (n p : Nat) : State :=
  let visited := (pageCells p).filter fun c => !(decide (c < 65536) && s.poisoned n c)
  let injected := visited.filter (s.injectedAt n)
  let fixed := visited.filter fun c => (s.wordAt n c).fixed
  let s := fixed.foldl (fun s c => s.fixWord n c (s.wordAt n c).value false) s
  let bad := visited.filter fun c => (s.wordAt n c).bad
  let badData := bad.filter (· < 65536)
  let (s, more) :=
    if bad.isEmpty && pageConsistent (s.pageValues n p) then (s, [])
    else
      let r := s.correctPage n p (badData.headD (65536 + 8 * p)) true
      (r.1, r.2.getD [])
  (fixed ++ more).foldl (fun s c => s.suspect n c (injected.contains c)) s

/-- The next page, or the end of a pass. -/
def State.scrubAdvance (s : State) (n : Nat) : State :=
  let p := s.get .BNK_SCRUB_NEXT_PAGE n
  if p = 127 then ((s.put .BNK_SCRUB_NEXT_PAGE 0 n).bump .BNK_SCRUB_PASSES n).setPass n (s.pass n + 1)
  else s.put .BNK_SCRUB_NEXT_PAGE (p + 1) n

/-- A new pass at page 0 begins. -/
def State.scrubRestart (s : State) (n : Nat) : State :=
  ((s.put .BNK_SCRUB_NEXT_PAGE 0 n).putFlag .BNK_SCRUB_RUNNING true n).setPass n (s.pass n + 1)

/-! ## Clears (R273, R274, 08 R241, R242) -/

def banksOfGroup (g : Nat) : List Nat := (List.range 8).map (8 * g + ·)

def State.clears (s : State) (g : Nat) : List Nat := SMap.look [] s.banks.clears g

/-- A group's clear queue, shown in BNK_CLR_STAT. -/
def State.setClears (s : State) (g : Nat) (l : List Nat) : State :=
  let s := { s with banks := { s.banks with clears := SMap.put [] s.banks.clears g l } }
  s.put .BNK_CLR_STAT_PENDING ((banksOfGroup g).zipIdx.foldl (fun v bi =>
    if l.contains bi.1 then v + 2 ^ bi.2 else v) 0) g

/-- A clear of bank n is requested. -/
def State.requestClear (s : State) (n : Nat) : State :=
  let g := groupOfBank n
  if (s.clears g).contains n then s else s.setClears g (s.clears g ++ [n])

/-- Everything a clear writes to zero. -/
def State.zeroBank (s : State) (n : Nat) : State :=
  let b := s.banks
  let s := { s with banks := { b with
      row := b.row.clearRange (131072 * n) 131072
      left := SMap.put 0 b.left n 0
      injected := b.injected.clearRange (131072 * n) 131072
      poison := b.poison.clearRange (65536 * n) 65536 } }
  (s.put .BNK_POISON_COUNT 0 n).setSuspects n []

/-- The engine of group g begins the clear at the front of its queue. -/
def State.startClear (s : State) (g : Nat) : State :=
  match s.clears g with
  | [] => s
  | n :: _ => ((s.zeroBank n).putFlag .BNK_CLR_STAT_ACTIVE true g).put .BNK_CLR_STAT_CURRENT (n % 8) g

/-- The WIPING or CLEARING bits of region and group handovers fall with the last bank they wait for. -/
def State.settleHandovers (s : State) : State :=
  let s := s.forEach (List.range 16) fun s k =>
    if s.flag .ATT_REGION_PARENT_WIPING k && (SMap.look [] s.banks.regionWait k).isEmpty &&
        s.get .CFG_REGION_STAT_STATE k != 4 then
      (s.putFlag .ATT_REGION_PARENT_WIPING false k).replyWaiting (.regionWipe k) St.ok
        fun s _ => [BitVec.ofNat 32 (s.get .ATT_REGION_PARENT_PARENT k)]
    else s
  s.forEach (List.range 64) fun s g =>
    if s.flag .ATT_GROUP_PARENT_CLEARING g && (SMap.look [] s.banks.groupWait g).isEmpty then
      (s.putFlag .ATT_GROUP_PARENT_CLEARING false g).replyWaiting (.groupClear g) St.ok
        fun s _ => [BitVec.ofNat 32 (s.get .ATT_GROUP_PARENT_PARENT g)]
    else s

/-- Bank n no longer waits for a clear: its CLEARING bit falls, and what waited for it goes on. -/
def State.clearOver (s : State) (n : Nat) : State :=
  let s := (s.putFlag .BNK_OWNER_CLEARING false n).putFlag .BNK_STAT_PU_CLEAR false n
  let drop := fun (m : SMap (List Nat)) => (m.map fun e => (e.1, e.2.filter (· ≠ n))).filter fun e => !e.2.isEmpty
  let s := { s with banks := { s.banks with
      regionWait := drop s.banks.regionWait, groupWait := drop s.banks.groupWait } }
  (s.replyWaiting (.bankClear n) St.ok fun s _ => [BitVec.ofNat 32 (s.bankOwner n)]).settleHandovers

/-- A scrub step of bank n that fell during a clear of it, run as soon as the clear has ended (R266). -/
def State.deferredStep (s : State) (n : Nat) : State :=
  if SMap.look false s.banks.deferred n then
    let s := { s with banks := { s.banks with deferred := SMap.put false s.banks.deferred n false } }
    (s.scrubPage n (s.get .BNK_SCRUB_NEXT_PAGE n)).scrubAdvance n
  else s

/-- The request at the head of group g's ingress queue is for bank n, and the bank owes it its start (R253). -/
def State.headWaits (s : State) (n : Nat) : Bool :=
  SMap.look false s.banks.owed n &&
    (s.spine.ingress.find? fun t => portOf t.addr == 77 + groupOfBank n).any fun t => decide (t.addr / 0x8_0000 = n)

/-- The clear that the engine of group g runs ends (R274). A scrub step deferred by it runs at once, unless a request at
the ingress head comes first. -/
def State.endClear (s : State) (g : Nat) : State :=
  match s.clears g with
  | [] => s
  | n :: rest =>
    let powerUp := s.flag .BNK_STAT_PU_CLEAR n
    let s := ((s.setClears g rest).putFlag .BNK_CLR_STAT_ACTIVE false g).bump .BNK_CLR_STAT_CLEARS g
    let s := if powerUp then s.scrubRestart n else s.putFlag .BNK_SCRUB_RUNNING true n
    let s := (s.clearOver n).owe n true
    let s := if s.headWaits n then s else s.deferredStep n
    if powerUp && !(banksOfGroup g).any (fun b => s.flag .BNK_STAT_PU_CLEAR b) then
      (s.releaseOp 9 g).replyWaiting (.groupPower g) St.ok fun _ _ => []
    else s

/-- Bank group g's domain comes on: every bank is cleared (R274). -/
def State.groupPowerUp (s : State) (g : Nat) : State :=
  let s := s.putBit .PWR_DOMAINS_GROUP_ON g true
  s.forEach (banksOfGroup g) fun s n =>
    ((s.putFlag .BNK_STAT_POWERED true n).putFlag .BNK_STAT_PU_CLEAR true n).requestClear n

/-- Bank group g's domain goes off: contents and suspect lists are lost, queued clears are dropped (R269, R280). -/
def State.groupPowerDown (s : State) (g : Nat) : State :=
  let s := (s.putBit .PWR_DOMAINS_GROUP_ON g false).setClears g []
  let s := s.putFlag .BNK_CLR_STAT_ACTIVE false g
  s.forEach (banksOfGroup g) fun s n =>
    (((s.zeroBank n).putFlag .BNK_STAT_POWERED false n).putFlag .BNK_SCRUB_RUNNING false n).clearOver n

/-! ## Parking banks (R275, R279) -/

/-- Page 0 to 3 of a parking bank that a bank's page parks in, and that bank, where the designation is valid. -/
def State.parkFor (s : State) (n : Nat) : Option (Nat × Nat) :=
  let q := quadrantOfBank n
  let a := s.get .BNK_PARK_BANK_A q
  let b := s.get .BNK_PARK_BANK_B q
  let usable := fun x => s.bankOwner x == 0 && s.groupOn (groupOfBank x)
  if s.flag .BNK_PARK_VALID_A q && s.flag .BNK_PARK_VALID_B q && usable a && usable b then
    some (if groupOfBank n = groupOfBank a then b else a, groupOfBank n % 4)
  else none

/-- BNK_STAT and BNK_PARK show the slice tests running. -/
def State.showSlices (s : State) : State :=
  let running := (List.range 16).filterMap s.slice
  let s := s.forEach (List.range 4) fun s q =>
    s.put .BNK_PARK_IN_USE ((running.filter fun t => quadrantOfBank t.bank == q).foldl
      (fun v t => Nat.lor v (2 ^ t.parkPage)) 0) q
  s.forEach (List.range 128) fun s n =>
    let t := running.find? fun t => t.bank == n
    ((s.putFlag .BNK_STAT_PARKED t.isSome n).put .BNK_STAT_PARK_PAGE ((t.map (·.page)).getD 0) n).putFlag
      .BNK_STAT_PARKING (running.any fun t => t.parkBank == n) n

/-- The words `ws` of a page, read one by one; `none` is poison. -/
def State.readSlice (s : State) (n p : Nat) (ws : List Nat) : State × List (Nat × Option DWord) :=
  ws.foldl (fun (a : State × List (Nat × Option DWord)) i =>
    let r := a.1.readWord n (512 * p + i)
    (r.1, a.2 ++ [(i, r.2)])) (s, [])

/-- Park transfers to and from a bank of another group pass its port under owner 0x03 (07 R200). -/
def State.countPark (s : State) (t : SliceTest) (beats : Nat) : State :=
  if groupOfBank t.parkBank = groupOfBank t.bank then s else s.countDirect beats .ok

/-- The next beat of the save: the first four words not copied, in ascending order; false where a word is poisoned. -/
def State.saveBeat (s : State) (g : Nat) (t : SliceTest) : State × Bool :=
  let ws := ((List.range 512).filter fun i => !t.copied.contains i).take 4
  let (s, vals) := s.readSlice t.bank t.page ws
  if vals.any fun v => v.2.isNone then (s, false)
  else
    let s := (s.writeWords t.parkBank (vals.map fun v => (512 * t.parkPage + v.1, v.2.getD 0))).countPark t 1
    let copied := t.copied ++ ws
    (s.setSlice g (some { t with copied, step := if copied.length = 512 then 2 else 1 }), true)

/-- A page's words, parity and poison at zero (R273 on one page). -/
def State.zeroPage (s : State) (n p : Nat) : State :=
  let s := (pageCells p).foldl (fun s c => s.putRow n c 0) s
  (dataCells p).foldl (fun s w => s.setPoison n w false) s

/-- The next beat of the restore: a parked word that reads POISON is poisoned in the page. After the last beat a page with
such words is re-sealed (R278). -/
def State.restoreBeat (s : State) (g : Nat) (t : SliceTest) : State :=
  let ws := ((List.range 512).filter fun i => !t.copied.contains i).take 4
  let (s, vals) := (s.countPark t 1).readSlice t.parkBank t.parkPage ws
  let good := vals.filterMap fun v => v.2.map fun d => (512 * t.page + v.1, d)
  let s := s.writeWords t.bank good
  let bad := (vals.filter fun v => v.2.isNone).map (·.1)
  let s := bad.foldl (fun s i => s.setPoison t.bank (512 * t.page + i) true) s
  let bad := t.bad ++ bad
  let copied := t.copied ++ ws
  if copied.length < 512 then s.setSlice g (some { t with copied, bad })
  else
    let s := match bad with
      | [] => s
      | i :: _ => s.reseal t.bank t.page (512 * t.page + i) false false
    s.setSlice g (some { t with copied, bad, step := 5 })

/-- Word `i`, saved so far, back in the page under test. -/
def State.takeBack (s : State) (t : SliceTest) (i : Nat) : State :=
  match s.readWord t.parkBank (512 * t.parkPage + i) with
  | (s', some d) => s'.writeWords t.bank [(512 * t.page + i, d)]
  | (s', none) => s'

/-- A save that stops (R278): the words in the park page, which writes may have changed since they were copied, are the
page's current ones, and go back before redirection ends. -/
def State.endSave (s : State) (t : SliceTest) : State :=
  (s.forEach t.copied fun s i => s.takeBack t i).zeroPage t.parkBank t.parkPage

/-- The next beat of a restore that still runs. -/
def State.restoreNext (s : State) (g : Nat) : State :=
  match s.slice g with
  | some t => if t.step = 4 then s.restoreBeat g t else s
  | none => s

/-- The whole restore and the release of the park page (steps 4 and 5), from wherever the test stands. -/
def State.finishSlice (s : State) (g : Nat) : State :=
  match s.slice g with
  | none => s
  | some t =>
    if t.step = 1 then
      ((s.endSave t).setSlice g none).showSlices
    else
      let t := if t.step < 4 then { t with step := 4, copied := [] } else t
      let s := if t.copied.isEmpty then s.zeroPage t.bank t.page else s
      let s := (s.setSlice g (some t)).forEach (List.range 128) fun s _ => s.restoreNext g
      ((s.zeroPage t.parkBank t.parkPage).setSlice g none).showSlices

end Sys2Proof.Machine
end

