-- ==== Sys2Proof/Machine/JournalOps.lean ====
section
/-! DEFINITION. The settings journal: record layout, staged changes, transactions, checkpoints, and the access
to a bank that a command's data go through (11 R339 to R353, 12 R365). -/

namespace Sys2Proof.Machine

set_option Elab.async false

/-! ## Records and transactions (R342 to R344) -/

def roundUp16 (n : Nat) : Nat := (n + 15) / 16 * 16

/-- Bytes of the record a change produces (R340, R343). -/
def Change.size (c : Change) : Nat := 32 + (c.value.map fun v => roundUp16 v.length).getD 0

/-- A record: the header of Table 11-8 and the padded payload. -/
def recordBytes (type flags seq owner id : Nat) (payload : List Byte) : List Byte :=
  let h := leBytes 2 0x4A53 ++ [BitVec.ofNat 8 type, BitVec.ofNat 8 flags] ++ leBytes 6 seq ++
    [BitVec.ofNat 8 owner, 0] ++ leBytes 2 id ++ leBytes 2 0 ++ leBytes 4 payload.length ++
    leBytes 4 (crc32 payload) ++ leBytes 4 0
  h ++ leBytes 4 (crc32 h) ++ payload ++ List.replicate (roundUp16 payload.length - payload.length) 0

def Change.record (seq : Nat) (c : Change) : List Byte :=
  match c.value with
  | some v => recordBytes 1 0 seq c.owner c.id v
  | none => recordBytes 2 0 seq c.owner c.id []

/-- A transaction's bytes before its commit record. -/
def txnBody (seq : Nat) (cs : List Change) : List Byte := cs.flatMap (Change.record seq)

/-- The commit record, with BOOT_PTR. -/
def commitRecord (seq owner : Nat) (checkpoint : Bool) (cs : List Change) (ptr : List Nat) : List Byte :=
  let body := txnBody seq cs
  recordBytes 3 checkpoint.toNat seq owner 0
    (leBytes 4 cs.length ++ leBytes 4 body.length ++ leBytes 4 (crc32 body) ++ leBytes 4 0 ++ ptr.flatMap (leBytes 4))

/-- A header page's bytes (R342). -/
def headerPage (copy firstSeq : Nat) : List Byte :=
  let h := [0x53, 0x48, BitVec.ofNat 8 copy, 0] ++ leBytes 6 firstSeq ++ leBytes 18 0
  h ++ leBytes 4 (crc32 h)

def txnSize (cs : List Change) : Nat := (cs.map Change.size).sum + 96

/-- Pages of a transaction. -/
def txnPages (cs : List Change) : Nat := (4095 + txnSize cs) / 4096

/-! ## Items -/

def findItem (l : List Item) (owner id : Nat) : Option Item := l.find? fun i => i.owner == owner && i.id == id

/-- The items after a change. Items are kept in ascending order of owner and ID. -/
def applyChange (l : List Item) (c : Change) : List Item :=
  let rest := l.filter fun i => !(i.owner == c.owner && i.id == c.id)
  match c.value with
  | none => rest
  | some v =>
    let low := rest.filter fun i => decide (65536 * i.owner + i.id < 65536 * c.owner + c.id)
    let high := rest.filter fun i => !decide (65536 * i.owner + i.id < 65536 * c.owner + c.id)
    low ++ [{ owner := c.owner, id := c.id, value := v }] ++ high

def applyChanges (l : List Item) (cs : List Change) : List Item := cs.foldl applyChange l

/-- Record bytes of committed items. -/
def itemBytes (l : List Item) : Nat := (l.map fun i => 32 + roundUp16 i.value.length).sum

/-! ## Copies -/

def State.copy (s : State) (c : Nat) : Copy := if c = 0 then s.journal.copy0 else s.journal.copy1

def State.setCopy (s : State) (c : Nat) (v : Copy) : State :=
  { s with journal := if c = 0 then { s.journal with copy0 := v } else { s.journal with copy1 := v } }

def State.copyLocked (s : State) (c : Nat) : Bool := s.bit .SLT_PART_SET_LOCK c

/-- A copy that is left out: locked, or unreadable (R345). -/
def State.copyOut (s : State) (c : Nat) : Bool := s.copyLocked c || (s.copy c).unreadable

/-- Free blocks of a copy (R346). -/
def Copy.free (c : Copy) : Nat := 64 - c.live

/-- The copy whose state is current: the higher SEQ among those in use, copy 0 where equal (R347). -/
def State.sourceCopy (s : State) : Nat :=
  if s.copyOut 0 then 1
  else if s.copyOut 1 then 0
  else if s.journal.copy0.seq < s.journal.copy1.seq then 1 else 0

/-- The committed items. -/
def State.items (s : State) : List Item := (s.copy s.sourceCopy).items

/-- The committed value of a system item. -/
def State.systemItem (s : State) (id : Nat) : Option (List Byte) := (findItem s.items 0x01 id).map (·.value)

/-- STATE of SLT_SET_STAT once recovery is over. -/
def State.settingsState (s : State) : Nat :=
  if s.copyLocked 0 && s.copyLocked 1 then 3 else if s.copyOut 0 || s.copyOut 1 then 2 else 1

/-- The SLT_SET registers follow the journal. -/
def State.showJournal (s : State) : State :=
  let owners := (s.journal.staged.map (·.owner)).eraseDups
  let bytes := (s.journal.staged.map Change.size).sum + 96 * owners.length
  let s := (s.put .SLT_SET_PEND_BYTES bytes).put .SLT_SET_PEND_CHANGES (min s.journal.staged.length 0xFFF)
  let s := (s.put .SLT_SET_STAT_FREE0 s.journal.copy0.free).put .SLT_SET_STAT_FREE1 s.journal.copy1.free
  s.put .SLT_SET_STAT_LIVE_KIB ((1023 + itemBytes s.items) / 1024)

def State.setStaged (s : State) (l : List Change) : State :=
  { s with journal := { s.journal with staged := l } }.showJournal

/-- A copy has become locked or unreadable (R345). -/
def State.showDegraded (s : State) : State :=
  if s.get .SLT_SET_STAT_STATE = 0 || s.get .SLT_SET_STAT_STATE = s.settingsState then s
  else
    let s := s.put .SLT_SET_STAT_STATE s.settingsState
    s.logEvent 0x0205 (if s.copyOut 0 then 0 else 1) (s.regValue .SLT_SET_STAT)

/-! ## Writing a transaction into a copy (R342, R345) -/

/-- Where the log stands before its next page: a fresh block when this one is full. -/
def Copy.normal (c : Copy) : Copy :=
  if c.page < 64 then c
  else { c with block := (c.block + 1) % 64, page := 0, ahead := c.ahead - 1, live := c.live + 1 }

/-- A page that the MGC programs within a commit or for the archive verifies, after pulses that nothing outside shows: a
free value (R331). -/
def State.programNow (s : State) (l page : Nat) (bs : List Byte) : State :=
  (s.spend.programPage l page (wordsOf bs 512)).notePulses l (Config.programPulses s.freeCount).toNat

/-- Programs the next page of a copy's log. -/
def State.programLog (s : State) (c : Nat) (bs : List Byte) : State :=
  let k := s.copy c
  (s.programNow ((Partition.settings c).base + k.block) k.page bs).setCopy c { k with page := k.page + 1 }

/-- The header page, when the log first enters a block. -/
def State.enterBlock (s : State) (c seq : Nat) : State :=
  let s := s.setCopy c (s.copy c).normal
  if (s.copy c).page = 0 then
    let s := s.setCopy c { s.copy c with live := max 1 (s.copy c).live }
    s.programLog c (headerPage c seq)
  else s

/-- The next `n` record pages of a log, as page numbers, from a copy's place. -/
def logPlaces (c : Nat) (k : Copy) : Nat → List Nat
  | 0 => []
  | n + 1 =>
    let k := k.normal
    let k := if k.page = 0 then { k with page := 1 } else k
    (64 * ((Partition.settings c).base + k.block) + k.page) :: logPlaces c { k with page := k.page + 1 } n

/-- BOOT_PTR after a transaction whose records stand from the pages `places` on. -/
def ptrAfter (places : List Nat) (cs : List Change) (ptr : List Nat) : List Nat :=
  (cs.foldl (fun (a : List Nat × Nat) ch =>
    let next := a.2 + ch.size
    if ch.owner = 0x01 && 1 ≤ ch.id && ch.id ≤ 12 then
      (a.1.set (ch.id - 1) (if ch.value.isSome then places.getD (a.2 / 4096) 0xFFFF_FFFF else 0xFFFF_FFFF), next)
    else (a.1, next)) (ptr, 0)).1

/-- The record pages of a transaction go into the log one after another. -/
def State.programRecords (s : State) (c seq : Nat) : List (List Byte) → State
  | [] => s
  | p :: ps => State.programRecords ((s.enterBlock c seq).programLog c p) c seq ps

/-- A run of bytes as pages. -/
def pagesOf (bs : List Byte) : Nat → List (List Byte)
  | 0 => []
  | n + 1 => bs.take 4096 :: pagesOf (bs.drop 4096) n

/-- A program of the log fails: the page is undefined and the rest of the block is abandoned (R321, R345). -/
def State.abandonBlock (s : State) (c seq : Nat) : State :=
  let s := s.enterBlock c seq
  let k := s.copy c
  let s := if k.page < 64 then s.failPage ((Partition.settings c).base + k.block) k.page else s
  s.setCopy c { k with page := 64 }

/-- One transaction in one copy: `fails` of its attempts end in a program failure first. Recovery takes no transaction
whose SEQ is not one above its predecessor's (R347), so a copy that lags keeps its state until a checkpoint. -/
def State.writeTxn (s : State) (c seq owner : Nat) (cs : List Change) (checkpoint : Bool) : Nat → State
  | 0 =>
    let k := s.copy c
    let follows := checkpoint || k.seq + 1 == seq
    let places := logPlaces c k (txnPages cs)
    let ptr := ptrAfter places cs k.ptr
    let s := s.programRecords c seq (pagesOf (txnBody seq cs ++ commitRecord seq owner checkpoint cs ptr) (txnPages cs))
    let k' := s.copy c
    let blocks := (k'.block + 64 - (places.headD 0 / 64 - (Partition.settings c).base)) % 64 + 1
    s.setCopy c { k' with items := if follows then applyChanges (if checkpoint then [] else k.items) cs else k.items
                          seq := if follows then seq else k.seq
                          ptr := if follows then ptr else k.ptr
                          live := if checkpoint then blocks else k'.live }
  | n + 1 => State.writeTxn (s.abandonBlock c seq) c seq owner cs checkpoint n

/-- Pages a copy can still program before it needs an erase. -/
def Copy.room (c : Copy) : Nat := (if c.page = 0 then 63 else 64 - c.page) + 63 * c.ahead

/-- Every copy in use has room for a transaction with `fails` failures. -/
def State.roomFor (s : State) (pages fails : Nat) : Bool :=
  (List.range 2).all fun c => s.copyOut c || decide (pages + 63 * fails ≤ (s.copy c).room)

/-- Flash banks of the blocks that copy c's next commit may enter: that of the write point and the next three (R346). -/
def State.copyBanks (s : State) (c : Nat) : List Nat :=
  ((List.range 4).map fun i => s.flashBank ((Partition.settings c).base + ((s.copy c).block + i) % 64)).eraseDups

/-- Programs may start in these flash banks: no stream reads them, and no read waits (R318, 05 Table 5-5). -/
def State.banksFree (s : State) (bs : List Nat) : Bool := bs.all fun b => !s.streaming b && !s.readWaits b

/-- A commit may start in every copy in use. -/
def State.logsFree (s : State) : Bool := (List.range 2).all fun c => s.copyOut c || s.banksFree (s.copyBanks c)

/-- A transaction goes to copy 0 and then to copy 1, under one SEQ; a copy that is locked or unreadable is left out (R345). -/
def State.writeBoth (s : State) (owner : Nat) (cs : List Change) (checkpoint : Bool) (fails0 fails1 : Nat) : State :=
  let seq := (s.copy s.sourceCopy).seq + 1
  let s := if s.copyOut 0 then s else s.writeTxn 0 seq owner cs checkpoint fails0
  let s := if s.copyOut 1 then s else s.writeTxn 1 seq owner cs checkpoint fails1
  (s.put .SLT_SET_SEQ_SEQ (s.copy s.sourceCopy).seq).showJournal

/-- The staged changes of one owner, in the order staged. -/
def State.stagedOf (s : State) (owner : Nat) : List Change := s.journal.staged.filter (·.owner == owner)

/-- A commit is refused with WORN: no copy in use, or no SEQ left (R344, R345). -/
def State.journalWorn (s : State) : Bool :=
  (s.copyOut 0 && s.copyOut 1) || s.get .SLT_SET_SEQ_SEQ == 0xFFFF_FFFF_FFFF

/-- The staged changes of `owner` are committed. -/
def State.commitOwner (s : State) (owner fails0 fails1 : Nat) : State :=
  let cs := s.stagedOf owner
  if cs.isEmpty then s
  else (s.setStaged (s.journal.staged.filter (·.owner ≠ owner))).writeBoth owner cs false fails0 fails1

/-- The owners with staged changes in the order of 12 R370. -/
def State.stagedOwners (s : State) : List Nat :=
  [0x01, 0x10, 0x11, 0x12, 0x13, 0x14].filter fun o => !(s.stagedOf o).isEmpty

/-! ## Staging (R340, 12 R363, R365) -/

/-- The staged changes with a change put in place of one of the same item. -/
def stageIn (l : List Change) (c : Change) : List Change :=
  if l.any fun d => d.owner == c.owner && d.id == c.id then
    l.map fun d => if d.owner = c.owner && d.id = c.id then c else d
  else l ++ [c]

def pendingOf (l : List Change) : Nat := (l.map Change.size).sum + 96 * ((l.map (·.owner)).eraseDups).length

/-- Staging a change: the status, and the state where it is OK. -/
def State.stage (s : State) (c : Change) : Nat × State :=
  let l := stageIn s.journal.staged c
  let p := pendingOf l
  let owners := (s.items.filter fun i => !(l.any fun d => d.owner == i.owner && d.id == i.id))
  let after := itemBytes owners + (l.map fun d => if d.value.isSome then d.size else 0).sum
  if 524288 < p || (c.value.isSome && decide (4194304 < after)) then (St.queueFull, s)
  else if s.pendingBytes < p &&
      (s.flag .NRG_STAT_RESERVE_SHORT || decide ((s.eAvail : Int) - reserve p - s.eEnc < 0)) then
    (St.energyRefused, s.refuseEnergy 7)
  else (St.ok, s.setStaged l)

/-- The journal is still recovering (R347). -/
def State.recovering (s : State) : Bool := s.get .SLT_SET_STAT_STATE == 0

/-- A command journals a system record: staged, then committed under class 6; where either part fails the record is
withdrawn (12 R365). In a failed boot the index is not rebuilt and the current settings are those recovered. -/
def State.journalRecord (s : State) (id : Nat) (value : List Byte) (fails0 fails1 : Nat) : Nat × State :=
  if s.recovering && s.mode == .run then (St.busy, s)
  else if s.journalWorn then (St.worn, s)
  else
    let before := s.journal.staged
    let (st, s') := s.stage { owner := 0x01, id, value := some value }
    if st ≠ St.ok then (st, s')
    else if !s'.admits 6 then (St.energyRefused, (s'.setStaged before).refuseEnergy 6)
    else (St.ok, s'.commitOwner 0x01 fails0 fails1)

/-- The whole of such a command: it waits while the journal has no erased room for its pages (R346) or its flash banks are
in use (R318, 05 Table 5-5), and replies. -/
def State.replyJournal (s : State) (m id : Nat) (value : List Byte) (fails0 fails1 : Nat) : State :=
  let pages := txnPages (s.stagedOf 0x01 ++ [{ owner := 0x01, id, value := some value }]) + 4
  if !s.journalWorn && !(s.roomFor pages (fails0 + fails1) && s.logsFree) then s
  else
    let (st, t) := s.journalRecord id value fails0 fails1
    t.reply m st

/-! ## Bank data of a command (R351, R353, 07 R200) -/

/-- Check 2 of 01 R39 for bank n and owner `o` (08 Table 8-2). -/
def State.mayUseBank (s : State) (o n : Nat) : Bool :=
  let h := s.bankOwner n
  if o == 0x01 || o == 0x03 || o == 0x04 then true
  else if h = 0 then false
  else if isTop h then o == h || (s.top o == h && h != 0)
  else o == h || (o == s.top h && o != 0)

/-- Status of a command's use of a range of one bank for owner `o`: it must be 8-byte-aligned and lie in one bank. -/
def State.bankUse (s : State) (o addr len : Nat) : Nat :=
  if addr % 8 ≠ 0 || 0x400_0000 ≤ addr || 0x8_0000 < addr % 0x8_0000 + len then St.badParam
  else if !s.mayUseBank o (addr / 0x8_0000) then St.notOwner
  else if s.bankDark (addr / 0x8_0000) then St.poweredDown
  else St.ok

/-- The same with what the first transaction of the command shows at the spine where the bank rejects it (07 R200, R222). -/
def State.useBank (s : State) (o addr len : Nat) : State × Nat :=
  let st := s.bankUse o addr len
  (if st = St.notOwner then s.countDirect 1 .notown else if st = St.poweredDown then s.countDirect 1 .dark else s, st)

/-- The beats of the transactions that carry `len` bytes from an address on: at most 16 beats of 32 bytes in each (07 R202). -/
def directRuns (addr len : Nat) : List Nat :=
  let first := addr / 32
  let last := (addr + len - 1) / 32
  if len = 0 then []
  else (List.range (last / 16 + 1 - first / 16)).map fun i =>
    min last (16 * (first / 16 + i) + 15) + 1 - max first (16 * (first / 16 + i))

def State.countRuns (s : State) (addr len : Nat) : State := (directRuns addr len).foldl (fun s n => s.countDirect n .ok) s

/-- Words read from a bank as an ordinary reader sees them; `none` where a word is poisoned. -/
def State.readBankWords (s : State) (n w : Nat) : Nat → State × Option (List DWord)
  | 0 => (s, some [])
  | k + 1 =>
    match s.bankRead n w with
    | (s', none) => (s', none)
    | (s', some d) => match State.readBankWords s' n (w + 1) k with
      | (t, some ds) => (t, some (d :: ds))
      | (t, none) => (t, none)

/-- The same as bytes, as the transactions of one command carry them (log entry 94). -/
def State.readBankBytes (s : State) (addr len : Nat) : State × Option (List Byte) :=
  match s.readBankWords (addr / 0x8_0000) (addr % 0x8_0000 / 8) ((len + 7) / 8) with
  | (s', some ws) => (s'.countRuns addr len, some ((ws.flatMap fun w => leBytes 8 w.toNat).take len))
  | (s', none) => (s'.countDirect 1 .poison, none)

/-- Bytes written to a bank in whole words, the last padded with zero bytes, four words to a beat. -/
def State.writeBankWords (s : State) (n : Nat) : List (Nat × DWord) → State
  | [] => s
  | w :: ws => State.writeBankWords (s.bankWrite n [w]) n ws

def State.writeBankBytes (s : State) (addr : Nat) (bs : List Byte) : State :=
  let k := (bs.length + 7) / 8
  (s.countRuns addr bs.length).writeBankWords (addr / 0x8_0000) ((List.range k).map fun i =>
    (addr % 0x8_0000 / 8 + i, BitVec.ofNat 64 (ofLe ((bs.drop (8 * i)).take 8))))

end Sys2Proof.Machine
end

