-- ==== Sys2Proof/Machine/TestOps.lean ====
section
/-! DEFINITION. The self-test engine: slice tests, program steps, signatures and result records (spec/18; 09 R275 to
R279). -/

namespace Sys2Proof.Machine

set_option Elab.async false

/-! ## Slice tests (R491, R492) -/

/-- Outcomes of BST_REC_HDR.OUTCOME. -/
def outcomePass : Nat := 1
def outcomeFail : Nat := 2
def outcomeIncomplete : Nat := 3

/-- BST_STAT.RUNNING follows the programs in progress. -/
def State.showTests (s : State) : State :=
  s.putFlag .BST_STAT_RUNNING (s.testing || (List.range 16).any fun g => (s.slice g).isSome)

/-- The end of a page is recorded (R492). -/
def State.recordSlice (s : State) (t : SliceTest) (outcome cause : Nat) : State :=
  let count := (t.found.map (·.2)).sum
  let s := ((s.put .BST_SLICE_LAST_BANK t.bank).put .BST_SLICE_LAST_PAGE t.page).put .BST_SLICE_LAST_OUTCOME outcome
  let s := ((s.put .BST_SLICE_LAST_MISMATCH (min count 0xFF)).put .BST_SLICE_LAST_CAUSE cause).stamp .BST_SLICE_TIME_TIME
  let s := s.bump .BST_SLICE_CNT_RUN
  if outcome = outcomeFail then
    let cell := (t.found.head?.map (·.1)).getD 0
    let s := ((s.bump .BST_SLICE_CNT_FAILED).put .BST_SLICE_FAIL_CELL cell).put .BST_SLICE_FAIL_BANK t.bank
    (s.putFlag .BST_SLICE_FAIL_VALID true).putFlag .BST_STAT_FAIL true
  else s

/-- The BST_SLICE of mailbox m ends: class 11 is released and the reply written. Its note holds bank, first page, pages,
pages tested and pages that failed. -/
def State.replySlice (s : State) (m : Nat) (status : Nat) : State :=
  match s.running m with
  | some p =>
    let s := s.releaseOp 11 m
    let tested := p.note.getD 3 0
    let failed := p.note.getD 4 0
    s.replyTo m p status (if status = St.ok then
      [BitVec.ofNat 32 (s.regValue .BST_SLICE_LAST), BitVec.ofNat 32 (tested + 65536 * failed)] else [])
  | none => s

/-- The slice test of group g ends with an outcome: the page is recorded, and its command goes on, ends or is answered
INCOMPLETE. -/
def State.endSlice (s : State) (g : Nat) (t : SliceTest) (outcome cause : Nat) : State :=
  let s := (((s.setSlice g none).showSlices).recordSlice t outcome cause).showTests
  match s.running t.mailbox with
  | some p =>
    if outcome = outcomeIncomplete then s.replySlice t.mailbox St.incomplete
    else
      let tested := p.note.getD 3 0 + 1
      let failed := p.note.getD 4 0 + (if outcome = outcomeFail then 1 else 0)
      let s := s.setRunning t.mailbox (some { p with note := (p.note.take 3) ++ [tested, failed] })
      if tested = p.note.getD 2 0 then s.replySlice t.mailbox St.ok else s
  | none => s

/-- The outcome of the march on a page. -/
def SliceTest.outcome (t : SliceTest) : Nat := if t.found.isEmpty then outcomePass else outcomeFail

/-- A handover with CLR of the tested bank: the parked copy is discarded (R494, 08 R246). -/
def State.abandonSlice (s : State) (g : Nat) : State :=
  match s.slice g with
  | none => s
  | some t => (s.zeroPage t.parkBank t.parkPage).endSlice g t outcomeIncomplete 2

/-- A slice test completes its restore and release at once, and ends INCOMPLETE (R279, R494, 09 R280). -/
def State.cutSlice (s : State) (g cause : Nat) : State :=
  match s.slice g with
  | none => s
  | some t => (s.finishSlice g).endSlice g t outcomeIncomplete cause

/-- HOLDUP: a slice test stops without restore (Table 9-5). -/
def State.dropSlices (s : State) : State :=
  s.forEach (List.range 16) fun s g =>
    match s.slice g with
    | none => s
    | some t => ((s.setSlice g none).recordSlice t outcomeIncomplete 4).showSlices.showTests

/-- The quadrants whose designation names bank n. -/
def State.parkedBy (s : State) (n : Nat) : List Nat :=
  (List.range 4).filter fun q =>
    (s.flag .BNK_PARK_VALID_A q && s.get .BNK_PARK_BANK_A q == n) ||
      (s.flag .BNK_PARK_VALID_B q && s.get .BNK_PARK_BANK_B q == n)

/-- A designated parking bank is handed to a non-zero owner (R279): tests parked in it finish their restore, the
designation becomes invalid, and the handover acts as CLR = 1. -/
def State.isParking (s : State) (n : Nat) : Bool := !(s.parkedBy n).isEmpty

def State.unpark (s : State) (n : Nat) : State :=
  let s := s.forEach (List.range 16) fun s g =>
    match s.slice g with
    | some t => if t.parkBank = n then s.cutSlice g 2 else s
    | none => s
  s.forEach (s.parkedBy n) fun s q =>
    let s := if s.get .BNK_PARK_BANK_A q == n then s.putFlag .BNK_PARK_VALID_A false q else s
    if s.get .BNK_PARK_BANK_B q == n then s.putFlag .BNK_PARK_VALID_B false q else s

/-- The mailboxes whose BST_SLICE waits for a page of group g, the one with the fewest pages tested first (R492). -/
def State.sliceWaiters (s : State) (g : Nat) : List Nat :=
  let ms := (List.range 5).filter fun m =>
    match s.running m with
    | some p => p.wait == .slice && p.opcode == 0x50 && groupOfBank (p.note.getD 0 0) == g
    | none => false
  let tested := fun m => ((s.running m).map fun p => p.note.getD 3 0).getD 0
  match ms.map tested with
  | [] => []
  | t :: ts => let low := ts.foldl min t; ms.filter fun m => tested m == low

/-- The next page of a BST_SLICE begins, or ends the command (R492). -/
def State.beginPage (s : State) (g m : Nat) : State :=
  match s.running m with
  | none => s
  | some p =>
    let n := p.note.getD 0 0
    let page := p.note.getD 1 0 + p.note.getD 3 0
    if s.flag .BNK_OWNER_CLEARING n || s.flag .BNK_STAT_PU_CLEAR n then s.replySlice m St.busy
    else if !s.groupOn g then s.replySlice m St.poweredDown
    else if (List.range 512).any fun i => s.poisoned n (512 * page + i) then s.replySlice m St.poisoned
    else match s.parkFor n with
      | none => s.replySlice m St.badParam
      | some (pb, pp) =>
        let t : SliceTest := { bank := n, page, parkBank := pb, parkPage := pp, step := 1, mailbox := m }
        (s.setSlice g (some t)).showSlices.showTests

/-- The next unit of the slice test of group g; `found` is what the march of step 2 finds (Table 9-4). -/
def State.sliceUnit (s : State) (g : Nat) (found : List (Nat × Nat)) : State :=
  match s.slice g with
  | none => match s.sliceWaiters g with
    | [] => s
    | m :: _ => s.beginPage g m
  | some t => match t.step with
    | 1 =>
      let r := s.saveBeat g t
      if r.2 then r.1 else (r.1.endSave t).endSlice g t outcomeIncomplete 1
    | 2 => s.setSlice g (some { t with step := 3, found })
    | 3 => (s.zeroPage t.bank t.page).setSlice g (some { t with step := 4, copied := [] })
    | 4 => s.restoreBeat g t
    | _ => (s.zeroPage t.parkBank t.parkPage).endSlice g t t.outcome 0

/-! ## Steps and signatures (R483 to R486) -/

def testStep (target op : Nat) (down : Bool) (pattern : Nat) : Word :=
  BitVec.ofNat 32 (target + 16 * op + 256 * down.toNat + 512 * pattern)

/-- The march of R485 on a target. -/
def march (target : Nat) : List Word :=
  [testStep target 0 false 1, testStep target 1 false 1, testStep target 2 false 1, testStep target 1 true 1,
    testStep target 2 true 1, testStep target 3 false 1]

/-- Steps 0 to 23 of both fixed programs (Table 18-4). -/
def commonSteps : List Word :=
  march 0 ++ [testStep 0 6 false 0] ++ march 1 ++ [testStep 1 6 false 0] ++
    [testStep 2 0 false 1, testStep 2 1 false 1, testStep 2 4 false 1, testStep 2 6 false 0] ++ march 3

/-- The programs of Table 18-1 that run as a whole. -/
def programSteps (program : Nat) (custom : List Word) : List Word :=
  match program with
  | 1 => commonSteps ++ [testStep 4 7 false 0, testStep 4 0 false 4, testStep 4 3 false 4, testStep 5 3 false 0]
  | 2 => commonSteps ++ [testStep 5 3 false 0]
  | _ => custom

/-- A step word breaks neither Table 18-2 nor Table 18-3. -/
def stepValid (w : Word) : Bool :=
  let v := w.toNat
  let target := bitsOf v 0 4
  let op := bitsOf v 4 4
  let pattern := bitsOf v 9 3
  let arg := bitsOf v 12 16
  let ops := match target with
    | 0 | 1 => [0, 1, 2, 3, 4, 5, 6]
    | 2 => [0, 1, 3, 4, 6]
    | 3 => [0, 1, 2, 3, 4, 5]
    | 4 => [0, 3, 7]
    | 5 => [3]
    | _ => []
  ops.contains op && pattern < 5 && bitsOf v 28 4 == 0 && (target != 5 || pattern == 0) &&
    (if op = 5 then arg ≠ 0 else arg = 0)

/-- The signature over steps with their mismatch counts; a step that did not complete has none (R486). -/
def signature (steps : List Word) (counts : List (Option Nat)) : Nat :=
  crc32 ((steps.zip counts).flatMap fun sc =>
    match sc.2 with
    | some n => leBytes 4 sc.1.toNat ++ leBytes 4 (min n 0xFFFFFFFF)
    | none => [])

/-- The result record of a run (R488): `counts` per step, `fails` the failing addresses in the order found. -/
def State.testRecord (s : State) (program : Nat) (steps : List Word) (counts : List (Option Nat))
    (fails : List (Nat × Nat)) : TestRecord :=
  let counts := counts.take steps.length
  let complete := (counts.filter (·.isSome)).length
  let sig := signature steps counts
  let expected := signature steps (steps.map fun _ => some 0)
  { program
    outcome := if complete < steps.length then outcomeIncomplete else if sig = expected then outcomePass else outcomeFail
    holdup := s.mode == .holdup
    steps := complete
    length := steps.length
    sig
    expected
    epoch := s.get .TMB_EPOCH_EPOCH
    time := s.now
    counts := (List.range 6).map fun t => ((steps.zip counts).filterMap fun sc =>
      if sc.1.toNat % 16 = t then sc.2 else none).sum
    fails := fails.take 16 }

/-- BST_REC_HDR as a word. -/
def TestRecord.header (r : TestRecord) : Nat :=
  r.program + 2 ^ 8 * r.outcome + 2 ^ 10 * r.holdup.toNat + 2 ^ 11 * r.consumed.toNat + 2 ^ 12 + 2 ^ 16 * r.fails.length +
    2 ^ 24 * (r.counts.zipIdx.foldl (fun v c => if c.1 = 0 then v else v + 2 ^ c.2) 0)

/-- A record shown as BST record i. -/
def State.showRecord (s : State) (i : Nat) (r : TestRecord) : State :=
  let s := ((s.put .BST_REC_HDR_PROGRAM r.program i).put .BST_REC_HDR_OUTCOME r.outcome i).putFlag .BST_REC_HDR_HOLDUP
    r.holdup i
  let s := ((s.putFlag .BST_REC_HDR_CONSUMED r.consumed i).putFlag .BST_REC_HDR_VALID true i).put .BST_REC_HDR_FAILS
    r.fails.length i
  let s := s.put .BST_REC_HDR_TARGET_FAIL (bitsOf r.header 24 6) i
  let s := ((s.put .BST_REC_STEPS_STEPS r.steps i).put .BST_REC_STEPS_LENGTH r.length i).put .BST_REC_SIG_SIG r.sig i
  let s := ((s.put .BST_REC_SIG_EXP_SIG_EXP r.expected i).put .BST_REC_EPOCH_EPOCH r.epoch i).put .BST_REC_TIME_TIME r.time i
  let s := r.fails.zipIdx.foldl (fun s f =>
    ((s.put .BST_REC_FAIL_TARGET f.1.1 (16 * i + f.2)).put .BST_REC_FAIL_ADDR f.1.2 (16 * i + f.2)).putFlag
      .BST_REC_FAIL_VALID true (16 * i + f.2)) s
  r.counts.zipIdx.foldl (fun s c => s.put .BST_REC_CNT_COUNT (min c.1 0xFFFFFFFF) (6 * i + c.2)) s

/-- The SELFTEST events of a run (R488). -/
def State.logTest (s : State) (r : TestRecord) : State :=
  let s := s.logEvent 0x0501 r.program r.header
  r.fails.zipIdx.foldl (fun s f =>
    s.logEvent 0x0501 (r.program + 256 * (f.2 + 1)) (f.1.1 + 16 * f.1.2 + 2 ^ 28)) s

/-- Word `i` of the pages of logical block `l` under a pattern of Table 18-2. -/
def patternWord (pattern l i : Nat) : DWord :=
  match pattern with
  | 0 => 0
  | 4 => BitVec.ofNat 64 (0x1_0000_0000 + 4096 * 64 * l + 8 * i)
  | _ => Config.testPattern pattern i

/-- What a complete step on the Slate test block leaves there: page 0 of a free block of copy 0, past the four erased
ahead, erased or written with the step's pattern (R484, R485). -/
def State.testBlockStep (s : State) (w : Word) : State :=
  let k := s.journal.copy0
  let l := (Partition.settings 0).base + (k.block + 5) % 64
  let op := bitsOf w.toNat 4 4
  if op = 7 then (s.erasePhys (s.physOf l)).setCopy 0 { k with ahead := min k.ahead 4 }
  else if op = 0 then
    (s.programPage l 0 ((List.range 512).map (patternWord (bitsOf w.toNat 9 3) l))).setCopy 0
      { k with ahead := min k.ahead 4 }
  else s

/-- The complete steps on the Slate test block, in program order. -/
def State.testBlockSteps (s : State) (steps : List Word) (counts : List (Option Nat)) : State :=
  (steps.zip counts).foldl (fun s sc => if sc.1.toNat % 16 = 4 && sc.2.isSome then s.testBlockStep sc.1 else s) s

end Sys2Proof.Machine
end

