-- ==== Sys2Proof/Machine/HandoverOps.lean ====
section
/-! DEFINITION. Handovers of banks, regions and ring groups, and the ownership record (spec/08). -/

namespace Sys2Proof.Machine

set_option Elab.async false

/-- The three kinds of resource that an owner register hands over (ATT_HO_LAST.KIND). -/
inductive Resource
  | bank (n : Nat)
  | region (k : Nat)
  | group (g : Nat)
  deriving DecidableEq, Repr

def Resource.kind : Resource → Nat
  | .bank _ => 0 | .region _ => 1 | .group _ => 2

def Resource.index : Resource → Nat
  | .bank n => n | .region k => k | .group g => g

/-- The value an owner register holds. -/
def State.holder (s : State) : Resource → Nat
  | .bank n => s.get .BNK_OWNER_OWNER n
  | .region k => s.get .ATT_REGION_PARENT_PARENT k
  | .group g => s.get .ATT_GROUP_PARENT_PARENT g

def State.putHolder (s : State) (x : Nat) : Resource → State
  | .bank n => s.put .BNK_OWNER_OWNER x n
  | .region k => s.put .ATT_REGION_PARENT_PARENT x k
  | .group g => s.put .ATT_GROUP_PARENT_PARENT x g

/-- CLEARING or WIPING. -/
def State.handoverBusy (s : State) : Resource → Bool
  | .bank n => s.flag .BNK_OWNER_CLEARING n
  | .region k => s.flag .ATT_REGION_PARENT_WIPING k
  | .group g => s.flag .ATT_GROUP_PARENT_CLEARING g

/-- Table 8-1. -/
def Resource.eligible (r : Resource) (x : Nat) : Bool :=
  x == 0 || isTop x || (match r with | .bank _ => isRegion x || isGroup x | _ => false)

/-- Table 8-3: requester `o` may replace holder `h` by `new`. -/
def State.mayHandOver (s : State) (r : Resource) (o h new : Nat) : Bool :=
  if h = 0 then
    isTop o && (match r with | .bank _ => new == 0 || s.top new == o | _ => true)
  else if isTop h then o == h || (s.isAdmin o && s.absent h)
  else o == h || o == s.top h || (s.isAdmin o && s.absent h)

/-- How a handover ends: at a step of R238, or done. -/
inductive Handed
  | notAuthorised
  | ineligible
  | busy
  | done (s : State)
  deriving DecidableEq, Repr

/-- A successful handover's accounting (R238). -/
def State.noteHandover (s : State) (r : Resource) (old new owner : Nat) : State :=
  let s := ((s.put .ATT_HO_LAST_KIND r.kind).put .ATT_HO_LAST_INDEX r.index).put .ATT_HO_LAST_OLD old
  let s := ((s.put .ATT_HO_LAST_NEW new).stamp .ATT_HO_TIME_TIME).bump .ATT_HO_CNT_DONE
  s.logEvent 0x0701 (s.regValue .ATT_HO_LAST) 0 owner

/-- A bank clear asked for by a handover (R241): a slice test of a page of the bank is abandoned, and the group's engine
has the clear in its queue. In a group that is off the bank's CLEARING falls at once, since power-up clears it (R246). -/
def State.clearOnHandover (s : State) (n : Nat) : State :=
  let s := s.putFlag .BNK_OWNER_CLEARING true n
  let s := match s.slice (groupOfBank n) with
    | some t => if t.bank = n then s.abandonSlice (groupOfBank n) else s
    | none => s
  if !s.groupOn (groupOfBank n) then s.clearOver n
  else (s.requestClear n).putFlag .BNK_SCRUB_RUNNING false n

/-- The flag's action (R241, R242). -/
def State.handoverFlag (s : State) : Resource → State
  | .bank n => s.clearOnHandover n
  | .region k =>
    let banks := (List.range 128).filter fun n => s.bankOwner n == 0x20 + k
    let s := (s.putFlag .ATT_REGION_PARENT_WIPING true k).startWipe k
    let s := s.putFence k { s.fence k with abort := false }
    let s := { s with banks := { s.banks with regionWait := SMap.put [] s.banks.regionWait k banks } }
    s.forEach banks State.clearOnHandover
  | .group g =>
    let banks := (List.range 128).filter fun n => s.bankOwner n == 0x40 + g
    let s := s.putFlag .ATT_GROUP_PARENT_CLEARING true g
    let s := { s with banks := { s.banks with groupWait := SMap.put [] s.banks.groupWait g banks } }
    (s.forEach banks State.clearOnHandover).settleHandovers

/-- What a change of holder does (R240, R243): a region's or a group's translations become stale, a group's rings halt,
channels close, and a parking bank that gains an owner is lost to its quadrant (09 R279). -/
def State.holderChanged (s : State) (r : Resource) (old new : Nat) : State :=
  match r with
  | .bank n => if old = 0 && new ≠ 0 then s.unpark n else s
  | .region k => (s.staleKeys (0x20 + k) old).closeChannels
  | .group g => (s.haltGroup g 3).staleKeys (0x40 + g) old

/-- Steps 5 to 7 of R238: the holder `h` is replaced by `new`, the change is noted, and the flag acts. A parking bank that
gains an owner is cleared in any case (09 R279). -/
def State.handedOver (s : State) (r : Resource) (o h new : Nat) (flag : Bool) : State :=
  let parking := match r with | .bank n => new != 0 && s.isParking n | _ => false
  let s := (s.putHolder new r).noteHandover r h new o
  let s := if new = h then s else s.holderChanged r h new
  if flag || parking then s.handoverFlag r else s

/-- A handover by requester `o` (R238). -/
def State.handOver (s : State) (r : Resource) (o expect new : Nat) (flag : Bool) : Handed :=
  let h := s.holder r
  let loadingRegion := match r with | .region k => flag && s.loading k | _ => false
  if expect ≠ h then .notAuthorised
  else if !s.mayHandOver r o h new then .notAuthorised
  else if !r.eligible new then .ineligible
  else if s.mode != .run || s.handoverBusy r || loadingRegion then .busy
  else
    .done (s.handedOver r o h new flag)

/-- A handover written to its register; each that ends at steps 1 to 4 counts as failed. -/
def State.writeHandover (s : State) (r : Resource) (o v : Nat) : Wrote :=
  match s.handOver r o (bitsOf v 8 8) (bitsOf v 16 8) (v.testBit 24) with
  | .notAuthorised => .notOwner (s.bump .ATT_HO_CNT_FAILED)
  | .ineligible => .rejected (s.bump .ATT_HO_CNT_FAILED)
  | .busy => .rejected (s.bump .ATT_HO_CNT_FAILED)
  | .done t => .took t

/-! ## The ownership layout (R248) -/

/-- 53 words from 209 bytes: bank owners, region parents, group parents, ADMIN. -/
def ownershipWords (bs : List Nat) (admin : Nat) : List Word :=
  ((List.range 52).map fun w => BitVec.ofNat 32 ((List.range 4).foldl (fun v i => v + bs.getD (4 * w + i) 0 * 2 ^ (8 * i)) 0))
    ++ [BitVec.ofNat 32 admin]

/-- The absent hosts, as a mask of four bits. -/
def State.absentMask (s : State) : Nat := (List.range 4).foldl (fun v k => v + (s.hostAbsent k).toNat * 2 ^ k) 0

/-- The owners as they stand. -/
def State.ownershipNow (s : State) : List Word :=
  ownershipWords ((List.range 128).map (s.get .BNK_OWNER_OWNER) ++ (List.range 16).map (s.get .ATT_REGION_PARENT_PARENT) ++
    (List.range 64).map (s.get .ATT_GROUP_PARENT_PARENT)) (s.admin + 256 * s.absentMask)

/-- Whether a record's words are values its resources may hold (R250). -/
def ownershipValid (ws : List Word) : Bool :=
  let byte := fun i => bitsOf (ws.getD (i / 4) 0).toNat (8 * (i % 4)) 8
  ws.length == 53 && (List.range 128).all (fun n => (Resource.bank n).eligible (byte n)) &&
    (List.range 80).all (fun i => (Resource.region 0).eligible (byte (128 + i))) &&
    isTop (byte 208) && (ws.getD 52 0).toNat < 256

/-- A record's words as the item's bytes, and back (11, system item 2). -/
def wordBytes (ws : List Word) : List Byte := ws.flatMap fun w => leBytes 4 w.toNat

def bytesWords (bs : List Byte) (n : Nat) : List Word :=
  (List.range n).map fun i => BitVec.ofNat 32 (ofLe ((bs.drop (4 * i)).take 4))

/-- The stored ownership record; the default of R235 where there is none that is valid. -/
def State.storedOwnership (s : State) : List Word :=
  let default := ownershipWords (List.replicate 208 0x10) 0x14
  match s.systemItem 2 with
  | none => default
  | some bs => let ws := bytesWords bs 53; if bs.length = 212 && ownershipValid ws then ws else default

/-- The owner registers are loaded in step 3 of the boot (R235). -/
def State.loadOwners (s : State) : State :=
  let ws := s.storedOwnership
  let byte := fun i => bitsOf (ws.getD (i / 4) 0).toNat (8 * (i % 4)) 8
  let s := s.forEach (List.range 128) fun s n => s.put .BNK_OWNER_OWNER (byte n) n
  let s := s.forEach (List.range 16) fun s k => s.put .ATT_REGION_PARENT_PARENT (byte (128 + k)) k
  let s := s.forEach (List.range 64) fun s g => s.put .ATT_GROUP_PARENT_PARENT (byte (144 + g)) g
  s.put .ATT_ADMIN_ADMIN (byte 208)

end Sys2Proof.Machine
end

