-- ==== Sys2Proof/Machine/LaneOps.lean ====
section
/-! DEFINITION. Transceiver lanes and quads as operations on the state (spec/15). -/

namespace Sys2Proof.Machine

set_option Elab.async false

/-! ## Rights (R430) -/

/-- A writer of lane l's registers: a requester of the family of the parent of the lane's region, or ADMIN while that
parent is absent. -/
def State.writesLane (s : State) (l o : Nat) : Bool :=
  let p := s.parent (laneRegion l)
  (s.top o == p && p != 0) || (s.isAdmin o && s.absent p)

/-- The two regions that quad q serves (R429). -/
def quadRegion (q : Nat) : Nat := 4 * (q / 2) + 2 * (q % 2)

/-- A writer of quad q's registers. -/
def State.writesQuad (s : State) (q o : Nat) : Bool :=
  s.isAdmin o || (o == s.parent (quadRegion q) && s.parent (quadRegion q) == s.parent (quadRegion q + 1))

/-! ## Lanes and quads -/

def State.heldByPcie (s : State) (l : Nat) : Bool := s.flag .XCV_LANE_STAT_HELD_PCIE l

/-- Quad q carries a lane of an enabled endpoint (R431, R433). -/
def State.quadPcie (s : State) (q : Nat) : Bool := (List.range 4).any fun i => s.heldByPcie (4 * q + i)

def State.quadOn (s : State) (q : Nat) : Bool := s.bit .PWR_DOMAINS_QUAD_ON q

/-- LC PLL p of quad q is locked. -/
def State.lcLocked (s : State) (q p : Nat) : Bool :=
  if p = 0 then s.flag .XCV_QUAD_STAT_LOCK_A q else s.flag .XCV_QUAD_STAT_LOCK_B q

def State.putLcLock (s : State) (q p : Nat) (b : Bool) : State :=
  if p = 0 then s.putFlag .XCV_QUAD_STAT_LOCK_A b q else s.putFlag .XCV_QUAD_STAT_LOCK_B b q

/-- Frequency of a reference source in kilohertz (Table 14-1): the oscillator's, or what was last measured of an outside
source. -/
def State.sourceKhz (s : State) (refsel : Nat) : Nat :=
  if refsel = 0 then 100000 else Nat.xor (SMap.look 0 s.clocks.source refsel) 100000

def State.putSource (s : State) (refsel khz : Nat) : State :=
  { s with clocks := { s.clocks with source := SMap.put 0 s.clocks.source refsel (Nat.xor khz 100000) } }

/-! ## Rates (R432, R433, R435) -/

/-- The setting of an LC PLL: reference frequency in kilohertz, M and N. -/
structure LcSetting where
  khz : Nat
  m : Nat
  n : Nat
  deriving DecidableEq, Repr

/-- The limits of R432 on the PLL itself. -/
def LcSetting.inRange (c : LcSetting) : Bool :=
  decide (1 ≤ c.m) && decide (c.m ≤ 4) && decide (32 ≤ c.n) && decide (c.n ≤ 256) &&
    decide (40000 * c.m ≤ c.khz) && decide (c.khz ≤ 400000 * c.m) &&
    decide (8000000 * c.m ≤ c.khz * c.n) && decide (c.khz * c.n ≤ 16000000 * c.m)

/-- The setting in force of PLL p of quad q; in a quad that carries a PCIe lane A runs at 16.0 GHz and B at 10.0 GHz. -/
def State.lcSetting (s : State) (q p : Nat) : LcSetting :=
  if s.quadPcie q then { khz := 100000, m := 1, n := if p = 0 then 160 else 100 }
  else
    { khz := s.sourceKhz (s.get .XCV_LCPLL_REFSEL (2 * q + p)), m := s.get .XCV_LCPLL_M (2 * q + p)
      n := s.get .XCV_LCPLL_N (2 * q + p) }

/-- A lane configuration, as the fields of XCV_LANE_CFG. -/
structure LaneSetting where
  en : Bool
  pll : Nat
  div : Nat
  mode : Nat
  width : Nat
  fec : Bool
  loop : Nat
  deriving DecidableEq, Repr

def laneSetting (v : Nat) : LaneSetting :=
  { en := v.testBit 0, pll := bitsOf v 1 1, div := bitsOf v 2 3, mode := bitsOf v 5 4, width := bitsOf v 9 2
    fec := v.testBit 11, loop := bitsOf v 14 2 }

/-- Line rate in kilobits per second as a fraction. -/
def lineRate (c : LcSetting) (div : Nat) : Nat × Nat := (2 * c.khz * c.n, c.m * 2 ^ div)

/-- Words per line bit as a fraction, for mode and word width (Table 15-1). -/
def wordsPerBit (mode w : Nat) : Nat × Nat :=
  match mode with
  | 0 => (1, w)
  | 1 => (8, 10 * w)
  | 3 => (128, 130 * w)
  | _ => (64, 66 * w)

/-- The modes, widths and options Table 15-1 has. -/
def LaneSetting.shaped (c : LaneSetting) : Bool :=
  decide (c.mode ≤ 5) && decide (c.width ≤ 2) && decide (c.div ≤ 4) && decide (c.loop ≠ 3) &&
    (c.mode != 3 || c.width == 2) && (!(c.mode == 4 || c.mode == 5) || c.width == 1) &&
    (!c.fec || c.mode == 4 || c.mode == 5)

/-- The line rate and the word clock are within their limits on an LC PLL setting. -/
def LaneSetting.fits (c : LaneSetting) (p : LcSetting) : Bool :=
  let r := lineRate p c.div
  let wb := wordsPerBit c.mode (32 * 2 ^ c.width)
  decide (1250000 * r.2 ≤ r.1) && decide (r.1 * wb.1 ≤ 500000 * (r.2 * wb.2))

/-! ## Losing and regaining lanes -/

/-- The lane's data stops: TX idle, no CDR lock, no alignment, any scan ended. -/
def State.dropLane (s : State) (l adapt : Nat) : State :=
  let s := ((s.putFlag .XCV_LANE_STAT_ACTIVE false l).putFlag .XCV_LANE_STAT_CDR_LOCK false l).putFlag
    .XCV_LANE_STAT_ALIGNED false l
  ((s.putFlag .XCV_LANE_STAT_TX_IDLE true l).put .XCV_LANE_STAT_ADAPT adapt l).abortScan l

/-- Stops the recovered-clock outputs of quad q that carry lane l (R439). -/
def State.stopRclk (s : State) (l : Nat) : State :=
  let q := l / 4
  let s := if s.get .XCV_RCLK_SEL0 q == l % 4 then s.putFlag .XCV_RCLK_RUN0 false q else s
  if s.get .XCV_RCLK_SEL1 q == l % 4 then s.putFlag .XCV_RCLK_RUN1 false q else s

/-- Every fabric lane of quad q on PLL p loses its data (R434): its coefficients stay, frozen. -/
def State.dropLanesOf (s : State) (q p : Nat) : State :=
  s.forEach ((List.range 4).map (4 * q + ·)) fun s l =>
    if s.fabricLane l && s.get .XCV_LANE_CFG_PLL l == p then (s.dropLane l 3).stopRclk l else s

/-- The lanes of quad q, with their coefficients kept or lost (Table 15-3). -/
def State.quadLanesOff (s : State) (q : Nat) (keep : Bool) : State :=
  s.forEach ((List.range 4).map (4 * q + ·)) fun s l =>
    let s := (s.dropLane l 0).stopRclk l
    s.putLane l { s.lane l with kept := keep && (s.lane l).kept, tx := [], rx := [], presented := none }

/-- Quad q powers down (R382, Table 15-3). -/
def State.quadPowerDown (s : State) (q : Nat) (keep : Bool) : State :=
  let s := s.quadLanesOff q keep
  let s := (s.putLcLock q 0 false).putLcLock q 1 false
  (s.putFlag .XCV_QUAD_STAT_POWERED false q).putBit .PWR_DOMAINS_QUAD_ON q false

/-- Quad q powers up. -/
def State.quadPowerUp (s : State) (q : Nat) : State :=
  (s.putFlag .XCV_QUAD_STAT_POWERED true q).putBit .PWR_DOMAINS_QUAD_ON q true

/-- Fabric lanes go to electrical idle in SAFE and HOLDUP (Table 15-3). -/
def State.idleAllLanes (s : State) : State := s.forEach (List.range 16) State.idleLanes

/-! ## Register writes -/

/-- A write to XCV_LCPLL[q][p] (R430 to R432, Table 15-3). -/
def State.writeLcPll (s : State) (q p o v : Nat) : Wrote :=
  let c : LcSetting := { khz := s.sourceKhz (bitsOf v 0 4), m := bitsOf v 4 3, n := bitsOf v 8 9 }
  let lanes := ((List.range 4).map (4 * q + ·)).filter fun l => s.fabricLane l && s.get .XCV_LANE_CFG_PLL l == p
  let fits := c.inRange && bitsOf v 0 4 < 9 &&
    lanes.all fun l => (laneSetting (s.regValue .XCV_LANE_CFG l)).fits c
  if !s.writesQuad q o then .notOwner s
  else if s.quadPcie q then .rejected s
  else if v.testBit 24 && !fits then .rejected s
  else
    let i := 2 * q + p
    let s := ((s.put .XCV_LCPLL_REFSEL (bitsOf v 0 4) i).put .XCV_LCPLL_M (bitsOf v 4 3) i).put .XCV_LCPLL_N
      (bitsOf v 8 9) i
    let s := (s.putFlag .XCV_LCPLL_EN (v.testBit 24) i).putLcLock q p false
    let s := s.dropLanesOf q p
    .took (s.forEach lanes fun s l =>
      s.put .XCV_LANE_STAT_LINE_MBPS (let r := lineRate c (s.get .XCV_LANE_CFG_RATE_DIV l); r.1 / r.2 / 1000) l)

/-- A write to XCV_LANE_CFG[l] (R430, R431, R435, Table 15-3). -/
def State.writeLaneCfg (s : State) (l o v : Nat) : Wrote :=
  let c := laneSetting v
  let p := s.lcSetting (l / 4) c.pll
  if !s.writesLane l o then .notOwner s
  else if s.heldByPcie l then .rejected s
  else if !c.shaped || (c.en && !c.fits p) then .rejected s
  else
    let s := ((s.putFlag .XCV_LANE_CFG_EN c.en l).put .XCV_LANE_CFG_PLL c.pll l).put .XCV_LANE_CFG_RATE_DIV c.div l
    let s := ((s.put .XCV_LANE_CFG_MODE c.mode l).put .XCV_LANE_CFG_WIDTH c.width l).putFlag .XCV_LANE_CFG_FEC c.fec l
    let s := (s.putFlag .XCV_LANE_CFG_POL_TX (v.testBit 12) l).putFlag .XCV_LANE_CFG_POL_RX (v.testBit 13) l
    let s := (s.put .XCV_LANE_CFG_LOOP c.loop l).put .XCV_LANE_CFG_TRACK (bitsOf v 16 4) l
    let s := (s.dropLane l 0).stopRclk l
    let s := s.putLane l { s.lane l with kept := false, tx := [], rx := [], presented := none }
    let r := lineRate p c.div
    .took (s.put .XCV_LANE_STAT_LINE_MBPS (if c.en then r.1 / r.2 / 1000 else 0) l)

/-- A write to XCV_RCLK[q] (R439): an output whose setting changes stops. -/
def State.writeRclk (s : State) (q o v : Nat) : Wrote :=
  if !s.writesQuad q o then .notOwner s
  else
    let same0 := s.get .XCV_RCLK_SEL0 q == bitsOf v 0 2 && s.get .XCV_RCLK_DIV0 q == bitsOf v 2 2 && v.testBit 4
    let same1 := s.get .XCV_RCLK_SEL1 q == bitsOf v 8 2 && s.get .XCV_RCLK_DIV1 q == bitsOf v 10 2 && v.testBit 12
    let s := ((s.put .XCV_RCLK_SEL0 (bitsOf v 0 2) q).put .XCV_RCLK_DIV0 (bitsOf v 2 2) q).putFlag .XCV_RCLK_EN0
      (v.testBit 4) q
    let s := ((s.put .XCV_RCLK_SEL1 (bitsOf v 8 2) q).put .XCV_RCLK_DIV1 (bitsOf v 10 2) q).putFlag .XCV_RCLK_EN1
      (v.testBit 12) q
    let s := if same0 then s else s.putFlag .XCV_RCLK_RUN0 false q
    .took (if same1 then s else s.putFlag .XCV_RCLK_RUN1 false q)

/-- A write to XCV_EYE_CTL[l] (R440); a lane held by PCIe is not configured by it, but its scan runs. -/
def State.writeEye (s : State) (l o v : Nat) : Wrote :=
  let bits := bitsOf v 16 6
  if !s.writesLane l o then .notOwner s
  else if v.testBit 31 && (s.flag .XCV_EYE_RES_BUSY l || bits < 16 || 40 < bits) then .rejected s
  else
    let s := ((s.put .XCV_EYE_CTL_PHASE (bitsOf v 0 6) l).put .XCV_EYE_CTL_VOFF (bitsOf v 6 7) l).put
      .XCV_EYE_CTL_LOG2_BITS bits l
    .took (if v.testBit 31 then
      let s := (s.put .XCV_EYE_RES_ERRORS 0 l).putFlag .XCV_EYE_RES_DONE false l
      (s.putFlag .XCV_EYE_RES_BUSY true l).putFlag .XCV_EYE_RES_ABORTED false l
    else s)

/-! ## Words (R437, R438) -/

/-- The word an empty TX FIFO sends (R438). The Idle character and K28.5 are those of the standards the modes name
(PRESUMED, log entry 21). -/
def fillWord (mode : Nat) : LaneWord :=
  match mode with
  | 1 => { data := BitVec.ofNat 128 0xBCBCBCBCBCBCBCBCBCBCBCBCBCBCBCBC, flags := 0xFFFF }
  | 2 | 3 => { data := 0, flags := 0b0101 }
  | 4 | 5 => { data := BitVec.ofNat 128 0x0707070707070707, flags := 0xFF }
  | _ => { data := 0, flags := 0 }

/-- The lane can send: an enabled fabric lane of a powered quad whose LC PLL is locked, not fenced. -/
def State.laneSends (s : State) (l : Nat) : Bool :=
  s.fabricLane l && s.quadOn (l / 4) && s.lcLocked (l / 4) (s.get .XCV_LANE_CFG_PLL l) && !(s.lane l).discard

/-- TX at an edge of the lane's track: a word the design offers crosses while its FIFO has room, and ends electrical idle. -/
def State.laneOffer (s : State) (l : Nat) (w : Option LaneWord) : State :=
  match w with
  | none => s
  | some w =>
    if s.laneSends l && decide ((s.lane l).tx.length < 16) then
      (s.putLane l { s.lane l with tx := (s.lane l).tx ++ [w] }).putFlag .XCV_LANE_STAT_TX_IDLE false l
    else s

/-- Words that have arrived on the line enter the RX FIFO while there is room (an overflow is RX_OVERFLOW's); a fenced
region's words are discarded. -/
def State.laneTake (s : State) (l : Nat) (ws : List LaneWord) : State :=
  let v := s.lane l
  if !s.fabricLane l || !s.flag .XCV_LANE_STAT_ACTIVE l then s
  else s.putLane l { v with rx := if v.discard then [] else (v.rx ++ ws).take 16 }

/-- RX at an edge of the lane's track: the oldest word is presented for one cycle. -/
def State.lanePresent (s : State) (l : Nat) : State :=
  let v := s.lane l
  if !s.fabricLane l || !s.flag .XCV_LANE_STAT_ACTIVE l then s
  else s.putLane l { v with rx := v.rx.tail, presented := v.rx.head? }

/-- The error counts of a lane (R435, R436). -/
def State.laneErrors (s : State) (e : LaneEdge) : State :=
  let l := e.lane.val
  if !s.fabricLane l || !s.flag .XCV_LANE_STAT_CDR_LOCK l then s
  else
    let s := s.bump .XCV_LANE_ERR_CODE_ERR l e.errors
    if s.flag .XCV_LANE_CFG_FEC l then (s.bump .XCV_LANE_FEC_CORR l e.corrected).bump .XCV_LANE_FEC_UNCORR l e.uncorrected
    else s

/-- What has come in on a lane's line. -/
def State.laneEdge (s : State) (e : LaneEdge) : State := (s.laneErrors e).laneTake e.lane.val e.arrived

/-- A word time on every lane that sends: the oldest TX word goes out (R437). -/
def State.laneTick (s : State) : State :=
  s.forEach (List.range 32) fun s l =>
    match (s.lane l).tx with
    | [] => s
    | w :: ws => if s.flag .XCV_LANE_STAT_TX_IDLE l then s else s.putLane l { s.lane l with tx := ws, sent := some w }

/-- What passes without a command: one tick of the timebase, and a word time on the lanes; in OFF nothing runs. -/
def State.idle (s : State) : State := if s.mode == .off then s else s.tick.laneTick

end Sys2Proof.Machine
end

