-- ==== Sys2Proof/Machine/SafetyOps.lean ====
section
/-! DEFINITION. The reaction to a dangerous fault (spec/17), contained faults, and the event log. -/

namespace Sys2Proof.Machine

set_option Elab.async false

/-! ## The event log (R470) -/

/-- The slot that an index occupies. -/
def logSlot (i : Nat) : Nat := i % 4096

/-- The oldest entry of the buffer is taken into the log. -/
def State.takeLogEntry (s : State) : State :=
  match s.safety.buffer with
  | [] => s
  | e :: rest =>
    let i := s.get .SAF_LOG_HEAD_NEXT
    let old := SMap.look none s.safety.slots (logSlot i)
    let lost := old.any fun o => decide (s.safety.archived ≤ o.index)
    let s := if old.isSome then s.bump .SAF_LOG_OVF_OVERWRITTEN else s
    let s := if lost then s.bump .SAF_LOG_LOSS_LOST else s
    { s with safety := { s.safety with
        buffer := rest
        slots := SMap.put none s.safety.slots (logSlot i) (some { e with index := i }) } }.put .SAF_LOG_HEAD_NEXT (i + 1)

/-- The whole buffer is taken, at most 64 entries of 20 ns each. -/
def State.drainLog (s : State) : State := s.forEach (List.range s.safety.buffer.length) fun s _ => s.takeLogEntry

/-- The bytes of an entry (Table 17-4). -/
def LogEntry.bytes (e : LogEntry) : List Byte :=
  leBytes 8 e.index ++ leBytes 8 e.time ++ leBytes 4 e.epoch ++ leBytes 2 e.code ++ leBytes 1 e.flags ++
    leBytes 1 e.owner ++ leBytes 4 e.arg0 ++ leBytes 4 e.arg1

/-- The entries not yet archived, oldest first: at most those of the 4,096 slots. -/
def State.unarchived (s : State) : List LogEntry :=
  let next := s.get .SAF_LOG_HEAD_NEXT
  let first := max s.safety.archived (next - 4096)
  (List.range (next - first)).filterMap fun i =>
    (SMap.look none s.safety.slots (logSlot (first + i))).filter (·.index == first + i)

/-! ## Contained and dangerous faults (R456, R463, R468) -/

/-- A contained detection. -/
def State.contained (s : State) (diag detail : Nat) (value : Option Nat) (owner : Nat) (injected : Bool) : State :=
  s.logDiag diag detail value owner (if injected then flagInjected else 0)

/-- The first dangerous fault of a boot is recorded (R468). -/
def State.recordFault (s : State) (diag detail : Nat) (injected : Bool) : State :=
  let s := ((s.put .SAF_LAST_DIAG diag).putFlag .SAF_LAST_VALID true).putFlag .SAF_LAST_INJECTED injected
  let s := ((s.putFlag .SAF_LAST_IN_HOLDUP (s.mode == .holdup)).putFlag .SAF_LAST_PREV false).put .SAF_LAST_DETAIL detail
  (s.stamp .SAF_LAST_TIME_TIME).put .SAF_LAST_EPOCH_EPOCH (s.get .TMB_EPOCH_EPOCH)

/-- A fault detected in the same instant as the recorded one, with a lower DIAG (R468). -/
def State.lowerAtOnce (s : State) (diag : Nat) : Bool :=
  s.flag .SAF_LAST_VALID && !s.flag .SAF_LAST_PREV && s.get .SAF_LAST_TIME_TIME == s.now &&
    decide (diag < s.get .SAF_LAST_DIAG)

/-- A DOZE entry that has passed its checks is aborted (13 R399). -/
def State.abortDoze (s : State) (reason : Nat) : State :=
  if s.get .DEV_MODE_PHASE ≠ 1 then s
  else
    let s := (s.recordRefusal 1 reason 0 0 true).bump .PWR_ABORT_CNT_COUNT
    (s.put .DEV_MODE_PHASE 0).putFlag .DEV_MODE_WAKE_PENDING false

/-- The scrub lanes stop (06 R192): their abandoned repairs and the queries on them end too. -/
def State.stopLanes (s : State) : State := s.forEach (List.range 16) fun s k => s.stopLane k

/-- The rows of every bank under test hold whatever its march had written when the engine stopped (18 R494 leaves it open). -/
def State.leaveRows (s : State) : State :=
  if s.test.steps.any fun w => w.toNat % 16 == 0 then
    { s with banks := { s.banks with
        row := [], injected := []
        left := (List.range 128).foldl (fun l n => SMap.put 0 l n (s.freeCount + 1)) s.banks.left } }.spend
  else s

/-- The self-test engine stops; SELFTEST_DONE writes the record (18 R494). -/
def State.cutProgram (s : State) : State :=
  if s.testing then ({ s with test := { s.test with cut := true } }.leaveRows).showTests else s

/-- The packets whose end SAFE prevents are answered SAFE_MODE: a reload not begun (05 Table 5-4), counted sweeps (06
R194), a clear, wipe or power-up that SAFE stops (08 Table 8-4), a capacitance measurement. The last three are DEDUCED
(log entry 34). -/
def State.safeReplies (s : State) : State :=
  s.forEach (List.range 5) fun s m =>
    match s.running m with
    | none => s
    | some p =>
      match p.wait with
      | .sweep | .load | .capacitance | .bankClear _ | .regionWipe _ | .groupClear _ | .groupPower _ =>
        s.replyTo m p St.safeMode []
      | _ => s

/-- Table 17-2: every output to its safe state, every clock stopped, every port fenced, DMA halted. Bank clears stop
where they stand (08 Table 8-4), and a pin-controlling JTAG instruction falls back to BYPASS (19 R510). From DOZE
the banks leave retention and their scrubbers start again (13 Table 13-9). -/
def State.enterSafe (s : State) (diag user : Nat) (injected : Bool) : State :=
  let s := (s.putFlag .SAF_STAT_SAFE true).putFlag .SAF_STAT_FAULT true
  let dozed := s.mode == .doze
  let s := (s.abortDoze 6).setMode .safe
  let s := if dozed then s.forEach ((List.range 128).filter fun n => s.groupOn (groupOfBank n)) State.scrubRestart else s
  let s := ((s.fenceAll fun f => { f with safe := true }).stopRings).idleAllLanes
  let s := if s.power.mgcHalted then s else s.safeReplies
  let s := (((s.setQueries []).stopLanes).cutLoads true).stopAllPlls
  let s := s.forEach (List.range 16) fun s g => s.cutSlice g 3
  let s := s.cutProgram.showAllPins
  let s := if s.get .DEV_JTAG_IR ≤ 6 && s.get .DEV_JTAG_IR ≠ 1 && s.get .DEV_JTAG_IR ≠ 2 then s.put .DEV_JTAG_IR 0xFF
    else s
  s.logEvent 0x0602 diag user 0 (flagDangerous + (if injected then flagInjected else 0))

/-- A dangerous fault (R463, R466, R469). In HOLDUP it is recorded and the commit goes on (12 Table 12-5); in SAFE it is
counted and logged and has no other effect. -/
def State.danger (s : State) (diag detail : Nat) (value : Option Nat) (owner : Nat) (injected : Bool) (user : Nat := 0) :
    State :=
  if s.mode == .off then s
  else
    let first := s.get .SAF_CNT_DANGEROUS == 0
    let s := s.bump .SAF_CNT_DANGEROUS
    let s := s.logDiag diag detail value owner
      (flagDangerous + (if injected then flagInjected else 0) + (if first then flagFirst else 0))
    let s := if first || s.lowerAtOnce diag then s.recordFault diag detail injected else s
    match s.mode with
    | .safe | .off => s
    | .holdup => (s.putFlag .NRG_HU_LAST_SAFE_DURING true).cutProgram
    | .boot | .run | .doze => s.enterSafe diag user injected

end Sys2Proof.Machine
end

