-- ==== Sys2Proof/Machine/RegView.lean ====
section
/-! DEFINITION. The value a register shows: its stored fields, with those that only report other state read from there. -/

namespace Sys2Proof.Machine

set_option Elab.async false

/-- A field's value put over what the stored fields give at its place (those fields stay 0). -/
def withField (v : Nat) (f : Fld) (x : Nat) : Nat := v + x % 2 ^ f.width * 2 ^ f.lo

/-- Rings of group g in one of the states of `st`. -/
def State.ringsOf (s : State) (g : Nat) (p : Nat → Bool) : Nat := (s.liveRings.filter fun r => groupOfRing r == g && p r).length

/-- DMA_GROUP_STAT[g]. -/
def State.groupStat (s : State) (g : Nat) : Nat :=
  s.groupInFlight g + 2 ^ 12 * s.ringsOf g (fun r => s.ringState r == 1 && decide (0 < s.ringOccupancy r)) +
    2 ^ 20 * s.ringsOf g (fun r => decide (2 ≤ s.ringState r))

/-- SPN_RP_STAT[p] (07 R206, R207). -/
def State.regionPortStat (s : State) (p : Nat) : Nat :=
  (128 - (s.spine.busyTags p).length) + 2 ^ 8 * (128 - s.spine.reserved p) +
    2 ^ 16 * (s.spine.ingress.filter fun t => portOf t.addr == p).length + 2 ^ 21 * (s.fenced (p / 4)).toNat

/-- Regions LOADING or WIPING, and whether checks of 05 R158 run (CFG_LOAD_ACTIVE). -/
def State.loadActive (s : State) : Nat :=
  ((List.range 16).filter s.loading).foldl (fun v k => v + 2 ^ k) 0 +
    2 ^ 16 * (s.loader.jobs.any (·.header.isNone) || !s.loader.reloads.isEmpty).toNat

/-- The margin as NRG_MARGIN shows it. -/
def State.marginWord (s : State) : Nat := (BitVec.ofInt 32 s.margin).toNat

/-- The value of instance `i` of a register as a reader sees it; in OFF, before BOOT has loaded anything, the Reset
column's (00 R15), which no requester reads. A capacitance measurement runs while an NRG_CAP_MEASURE waits for its results;
a measurement that no command asked for is at once (DESIGN CHOICE, log entry 103). -/
def State.shown (s : State) (r : Reg) (i : Nat) : Nat :=
  let v := s.regValue r i
  if s.mode == .off then v else
  match r with
  | .MBX_EP_STAT => withField v .MBX_EP_STAT_PRESENT (!s.hostAbsent i).toNat
  | .MBX_STAT =>
    withField (withField (withField v .MBX_STAT_ACTIVE (s.running i).isSome.toNat) .MBX_STAT_PARTIAL (s.partialPacket i).toNat)
      .MBX_STAT_RSP_WAIT (s.replyWait i).toNat
  | .CFG_LOAD_ACTIVE => s.loadActive
  | .CFG_SCRUB_STAT => withField v .CFG_SCRUB_STAT_RUNNING s.lanesRun.toNat
  | .SPN_RP_STAT => s.regionPortStat i
  | .BNK_OWNER => withField v .BNK_OWNER_ABSENT (s.absent (s.bankOwner i)).toNat
  | .ATT_REGION_PARENT => withField v .ATT_REGION_PARENT_ABSENT (s.absent (s.parent i)).toNat
  | .ATT_GROUP_PARENT => withField v .ATT_GROUP_PARENT_ABSENT (s.absent (s.get .ATT_GROUP_PARENT_PARENT i)).toNat
  | .ATT_ADMIN => withField v .ATT_ADMIN_ABSENT s.absentMask
  | .BNK_STAT => withField v .BNK_STAT_RETENTION (s.mode == .doze).toNat
  | .DMA_STAT =>
    withField (withField v .DMA_STAT_ENABLED s.liveRings.length) .DMA_STAT_HALTED
      (s.liveRings.filter fun r => decide (2 ≤ s.ringState r)).length
  | .DMA_PORT_STAT => 2048 - (s.spine.busyTags (69 + i)).length
  | .DMA_GROUP_STAT => s.groupStat i
  | .SLT_STAT => withField v .SLT_STAT_STANDBY (s.mode == .doze).toNat
  | .SLT_BLK_ERASES => s.blockErases (s.physOf i)
  | .SLT_BLK_WEAR => withField v .SLT_BLK_WEAR_OVER_RATED (s.overRated i).toNat
  | .SLT_BLK_MAP => withField (s.physOf i) .SLT_BLK_MAP_REMAPPED (SMap.look none s.slate.map i).isSome.toNat
  | .SLT_SPARE_ERASES => s.blockErases (spareBlock i)
  | .GIO_PAD => if s.get .GIO_BANK_STAT_VCCIO i = 0 then 0 else v
  | .NRG_STAT =>
    withField v .NRG_STAT_MEASURING
      ((List.range 5).any fun m => match s.running m with | some p => p.wait == .capacitance | none => false).toNat
  | .NRG_RESERVE => s.eRes
  | .NRG_ENCUMB => s.eEnc
  | .NRG_MARGIN => s.marginWord
  | .NRG_PEND => withField (withField v .NRG_PEND_BYTES s.pendingBytes) .NRG_PEND_ROUNDS (rounds s.pendingBytes)
  | .NRG_COST => classCost i
  | .PLL_STAT => s.pllStat i
  | .CAL_TEMP => if decide (i < 16) && !s.regionOn i then v % 2 ^ 28 else v
  | .XCV_QUAD_STAT => withField v .XCV_QUAD_STAT_PCIE (s.quadPcie i).toNat
  | .DEV_JTAG =>
    withField (withField v .DEV_JTAG_ACCESS (s.lc == lcProvisioned || s.lc == lcReturned).toNat) .DEV_JTAG_PINS
      s.failedBoot.toNat
  | _ => v

end Sys2Proof.Machine
end

