-- ==== Sys2Proof/Machine/EnergyOps.lean ====
section
/-! DEFINITION. The energy ledger's arithmetic, the state snapshot, the event-log archive, and the commits of HOLDUP and
of an orderly OFF (spec/12). -/

namespace Sys2Proof.Machine

set_option Elab.async false

/-! ## Available energy (R360) -/

/-- 10^10 times the energy in microjoules of a bank of `cap` tenths of a microfarad at `mv` millivolts:
½ × 0.97 C × ((V − 0.030)² − 9). -/
def bankEnergy (cap mv : Nat) : Nat :=
  let low := mv - 30
  if low ≤ 3000 then 0 else 485 * cap * (low * low - 9000000)

/-- E_avail in whole microjoules. -/
def availableEnergy (capInt mvInt capExt mvExt : Nat) : Nat :=
  (bankEnergy capInt mvInt + bankEnergy capExt mvExt) / 10 ^ 10

/-- The ledger recomputes E_avail from the measured capacitances and the last voltages; EXT_PRESENT and CHARGED follow
(R355, R356). -/
def State.recompute (s : State) : State :=
  let e := availableEnergy (s.get .NRG_CAP_INT_CAP) (s.get .NRG_BANK_INT_MV) (s.get .NRG_CAP_EXT_CAP)
    (s.get .NRG_BANK_EXT_MV)
  let s := s.put .NRG_AVAIL_UJ (min e 0xFFFFFFFF)
  (s.putFlag .NRG_STAT_CHARGED (decide (10450 ≤ s.get .NRG_BANK_INT_MV))).putFlag .NRG_STAT_EXT_PRESENT
    (decide (100 ≤ s.get .NRG_CAP_EXT_CAP))

/-! ## The state snapshot (R376) -/

/-- `n` bytes of each register value listed. -/
def regBytes (n : Nat) (vs : List Nat) : List Byte := vs.flatMap (leBytes n)

/-- The 16 NRG registers at offsets 0x0078_0000 to 0x0078_003C, in address order; NRG_REFUSE_TIME takes two words. -/
def State.energyWords (s : State) : List Nat :=
  [.NRG_VIN, .NRG_BANK, .NRG_CAP_INT, .NRG_CAP_EXT, .NRG_AVAIL, .NRG_RESERVE, .NRG_ENCUMB, .NRG_MARGIN, .NRG_STAT,
    .NRG_PEND, .NRG_REFUSE_LAST, .NRG_HU_TIME].map (fun r => s.shown r 0) ++
    [s.shown .NRG_REFUSE_TIME 0 % 2 ^ 32, s.shown .NRG_REFUSE_TIME 0 / 2 ^ 32, s.shown .NRG_HU_LAST 0,
      s.shown .NRG_HU_ENERGY 0]

/-- The owners as bytes 0x0760 to 0x085F hold them. -/
def State.ownerBytes (s : State) : List Byte :=
  regBytes 1 (((List.range 128).map s.bankOwner) ++ ((List.range 16).map s.parent) ++
    ((List.range 64).map fun g => s.get .ATT_GROUP_PARENT_PARENT g) ++ [s.admin]) ++ List.replicate 47 0

/-- Bytes 0x0000 to 0x3FFB of a snapshot captured with CAUSE `cause` in a mode with code `mode`. -/
def State.snapshotBody (s : State) (cause mode : Nat) : List Byte :=
  let head := [0x53, 0x5A, 0x53, 0x53, 0x00, 0x01] ++ regBytes 1 [cause, mode] ++
    leBytes 4 (s.get .TMB_EPOCH_EPOCH) ++ List.replicate 4 0 ++ leBytes 8 s.now ++ List.replicate 8 0
  let regions := (List.range 16).flatMap fun k => regBytes 4
    [s.shown .CFG_REGION_STAT k, s.shown .CFG_REGION_COUNT k, s.shown .CFG_SCRUB_CNT k, s.shown .CFG_SCRUB_SWEEPS k]
  let banks := (List.range 128).flatMap fun n => regBytes 4 [s.shown .BNK_CE n, s.shown .BNK_UE n]
  let spine := regBytes 4 ([.SPN_RATE, .SPN_RATE_MAX, .SPN_DARK_CNT, .SPN_TO_CNT, .SPN_STALL, .SPN_STALL_CNT].map
    fun r => s.shown r 0) ++ List.replicate 40 0
  head ++ regBytes 8 ((List.range 64).map (s.shown .NRG_CNT)) ++ regBytes 4 s.energyWords ++ regions ++ banks ++
    s.ownerBytes ++ spine ++ regBytes 4 ((List.range 64).map s.groupStat) ++ List.replicate 13916 0

/-- The 16,384 bytes of a snapshot. -/
def State.snapshot (s : State) (cause mode : Nat) : List Byte :=
  let b := s.snapshotBody cause mode
  b ++ leBytes 4 (crc32 b)

/-- The remap record: 128 × 16 words in the layout of BNK_REMAP_ENT, bank-major (11 Table 11-7). -/
def State.remapRecord (s : State) : List Byte := regBytes 4 ((List.range 2048).map (s.shown .BNK_REMAP_ENT))

/-! ## The event-log archive (11 R349) -/

/-- First logical block of the archive and the page at position `i` of its circle. -/
def archivePlace (i : Nat) : Nat × Nat := (Partition.archive.base + i / 64 % 64, i % 64)

/-- A page of the archive. -/
def archiveBytes (epoch : Nat) (es : List LogEntry) : List Byte :=
  let head : List Byte := [0x53, 0x45] ++ leBytes 2 es.length ++ leBytes 4 epoch ++
    leBytes 8 ((es.head?.map (·.index)).getD 0) ++ List.replicate 44 0
  let body := es.flatMap LogEntry.bytes
  head ++ leBytes 4 (crc32 (head ++ body)) ++ body

/-- The next archive page can be programmed: its block has been erased ahead. -/
def State.archiveReady (s : State) : Bool :=
  let (l, p) := archivePlace s.journal.archivePage
  s.pageKind l p == .erased && !s.bit .SLT_PART_LOG_LOCK 0 && !s.erasing l

/-- The oldest entries not yet archived, at most 126, go to the next archive page. -/
def State.writeArchivePage (s : State) : State :=
  let es := s.unarchived.take 126
  match es.getLast? with
  | none => s
  | some e =>
    if !s.archiveReady then s
    else
      let (l, p) := archivePlace s.journal.archivePage
      let s := s.programNow l p (archiveBytes (s.get .TMB_EPOCH_EPOCH) es)
      { s with
        journal := { s.journal with archivePage := (s.journal.archivePage + 1) % 4096 }
        safety := { s.safety with archived := e.index + 1 } }

/-- Programs may start in the flash bank of the next archive page (R318, 05 Table 5-5). -/
def State.archiveFree (s : State) : Bool := s.banksFree [s.flashBank (archivePlace s.journal.archivePage).1]

/-- `n` archive pages. -/
def State.writeArchive (s : State) (n : Nat) : State := s.forEach (List.range n) fun s _ => s.writeArchivePage

/-- Entries that a HOLDUP too full of events leaves out: the newest 4,032 are archived (R370). -/
def State.skipOld (s : State) : State :=
  let n := s.unarchived.length
  if 4032 < n then { s with safety := { s.safety with archived := s.get .SAF_LOG_HEAD_NEXT - 4032 } } else s

/-- Epoch and last index of an archive page, where its header is valid. -/
def archiveHeader (b : List Byte) : Option (Nat × Nat) :=
  let n := field b 2 2
  if b.take 2 = [0x53, 0x45] && 1 ≤ n && n ≤ 126 && field b 60 4 = crc32 (b.take 60 ++ (b.drop 64).take (32 * n)) then
    some (field b 4 4, field b 8 8 + n - 1)
  else none

/-- The newest valid archive page: the one with the highest index. -/
def State.newestArchive (s : State) : Option (Nat × Nat) :=
  ((List.range 4096).filter fun i => s.pageKind (archivePlace i).1 (archivePlace i).2 == .programmed).foldl
    (fun best i =>
      match archiveHeader (s.pageBytes (archivePlace i).1 (archivePlace i).2), best with
      | some h, some b => if b.2 < h.2 then some h else best
      | some h, none => some h
      | none, _ => best) none

/-! ## What the commit holds (R370) -/

/-- The records that a commit adds to the transaction of owner 0x01: the remap record and the snapshot; of a HOLDUP
detected in BOOT, the remap record only where it has changed, and no snapshot (Table 12-5). -/
def State.addedRecords (s : State) (fromBoot : Bool) (cause mode : Nat) : List Change :=
  (if !fromBoot || s.banks.remapChanged then [{ owner := 0x01, id := 4, value := some s.remapRecord }] else []) ++
    (if fromBoot then [] else [{ owner := 0x01, id := 6, value := some (s.snapshot cause mode) }])

/-- The transactions in the order of R370, with their owners. -/
def State.commitList (s : State) (added : List Change) : List (Nat × List Change) :=
  (0x01, s.stagedOf 0x01 ++ added) :: ([0x10, 0x11, 0x12, 0x13, 0x14].map fun o => (o, s.stagedOf o)) |>.filter
    fun t => !t.2.isEmpty

/-- Transactions written on VIN power, one after another; `fails` are the attempts that fail in each copy first. The staged
changes of an owner whose transaction cannot be written stay staged (R341). -/
def State.commitTxns (s : State) : List (Nat × List Change) → List (Nat × Nat) → State
  | [], _ => s
  | t :: ts, fails =>
    let f := fails.headD (0, 0)
    let s := if s.journalWorn || !s.roomFor (txnPages t.2 + 4) (f.1 + f.2) then s
      else (s.setStaged (s.journal.staged.filter (·.owner ≠ t.1))).writeBoth t.1 t.2 false f.1 f.2
    State.commitTxns s ts fails.tail

/-- The commit of R370 on VIN power, as SHUTDOWN and reboot make it: every entry not yet archived goes to the archive. -/
def State.commitOnVin (s : State) (cause : Nat) (fails : List (Nat × Nat)) : State :=
  (s.commitTxns (s.commitList (s.addedRecords false cause s.mode.code)) fails).writeArchive 33

/-- R367: every staged change is committed, in the order of R370, without admission; the erases in the flash banks of the
copies are suspended for it (R322). -/
def State.commitStaged (s : State) (fails : List (Nat × Nat)) : State :=
  let banks := (((List.range 2).filter (!s.copyOut ·)).flatMap s.copyBanks).eraseDups
  let l := s.commitList []
  if l.isEmpty then s else (s.forEach banks fun s b => s.suspendBank b false).commitTxns l fails

/-! ## The commit of HOLDUP, round by round (R369 to R374) -/

/-- The transactions that a copy needs, with their SEQs. -/
def pendingTxns (seq : Nat) (l : List (Nat × List Change)) : List PendingTxn :=
  l.zipIdx.map fun ti => { owner := ti.1.1, seq := seq + 1 + ti.2, changes := ti.1.2 }

def State.huCopy (s : State) (c : Nat) : List PendingTxn := if c = 0 then s.holdup.copy0 else s.holdup.copy1

def State.setHuCopy (s : State) (c : Nat) (l : List PendingTxn) : State :=
  { s with holdup := if c = 0 then { s.holdup with copy0 := l } else { s.holdup with copy1 := l } }

/-- The copy that the next round programs. -/
def State.huNext (s : State) : Option Nat :=
  let order := if s.holdup.swapped then [1, 0] else [0, 1]
  order.find? fun c => !(s.huCopy c).isEmpty

/-- A transaction as a copy takes it from where it stands: its BOOT_PTR, and its pages. -/
def State.beginTxn (s : State) (c : Nat) (t : PendingTxn) : PendingTxn :=
  let k := s.copy c
  let ptr := ptrAfter (logPlaces c k (txnPages t.changes)) t.changes k.ptr
  let bytes := txnBody t.seq t.changes ++ commitRecord t.seq t.owner false t.changes ptr
  { t with begun := true, ptr, left := pagesOf bytes (txnPages t.changes) }

/-- A transaction whose last page is programmed is committed in that copy. -/
def State.settleTxn (s : State) (c : Nat) (t : PendingTxn) : State :=
  let k := s.copy c
  if k.seq + 1 = t.seq then
    (s.setCopy c { k with items := applyChanges k.items t.changes, seq := t.seq, ptr := t.ptr }).showJournal
  else s

/-- Pages programmed in a copy (NRG_HU_LAST). -/
def huPages (c : Nat) : Fld := if c = 0 then .NRG_HU_LAST_PAGES0 else .NRG_HU_LAST_PAGES1

/-- Programs the next page of copy c: the header page of a block it enters, or a record page. -/
def State.huPage (s : State) (c : Nat) : State :=
  match s.huCopy c with
  | [] => s
  | t :: rest =>
    let s := s.setCopy c (s.copy c).normal
    if (s.copy c).page = 0 then (s.enterBlock c t.seq).bump (huPages c)
    else
      let t := if t.begun then t else s.beginTxn c t
      match t.left with
      | [] => s.setHuCopy c rest
      | p :: ps =>
        let s := (s.programLog c p).bump (huPages c)
        if ps.isEmpty then (s.settleTxn c t).setHuCopy c rest
        else s.setHuCopy c ({ t with left := ps } :: rest)

/-- A page of copy c fails (R373): its block is abandoned, and the transaction starts again from the next erased block,
after copy 1 where the failure was in copy 0. -/
def State.huFail (s : State) (c : Nat) : State :=
  match s.huCopy c with
  | [] => s
  | t :: rest =>
    let s := s.setCopy c (s.copy c).normal
    let page := 64 * ((Partition.settings c).base + (s.copy c).block) + (s.copy c).page
    let s := ((s.abandonBlock c t.seq).setHuCopy c ({ t with begun := false, left := [] } :: rest)).put
      .NRG_HU_LAST_OUTCOME 2
    let s := if c = 0 then { s with holdup := { s.holdup with swapped := true } } else s
    s.logEvent 0x0403 c page

/-- A program round: up to 16 pages of one copy, of which the page `fail` fails. -/
def State.huRound (s : State) (c : Nat) (fail : Option (Fin 16)) : State :=
  match fail with
  | none => s.forEach (List.range 16) fun s _ => s.huPage c
  | some f => (s.forEach (List.range f.val) fun s _ => s.huPage c).huFail c

/-- The hops and the ingress without which the commit cannot go on (Table 12-5). -/
def commitPath : StallUnit → Bool
  | .hop n i plane => n.val == 20 && i.val == (if plane then 12 else 14)
  | .ingress p => p.val == 95

/-- The commit stops: nothing more is programmed (R372, Table 12-5). -/
def State.huStop (s : State) (outcome : Nat) : State :=
  { s with holdup := { s.holdup with copy0 := [], copy1 := [], stopped := true } }.put .NRG_HU_LAST_OUTCOME outcome

/-- What a stall isolates may stop a commit that still goes on (Table 12-5). -/
def State.huStall (s : State) (u : StallUnit) : State :=
  if s.mode == .holdup && commitPath u && !s.holdup.closed && !s.holdup.stopped then s.huStop 4 else s

end Sys2Proof.Machine
end

