-- ==== Sys2Proof/Machine/RecoveryOps.lean ====
section
/-! DEFINITION. Recovery of the settings journal at boot: what each copy's log holds, the committed transactions taken from
it, and the current settings (11 R347). -/

namespace Sys2Proof.Machine

set_option Elab.async false

/-! ## Records (Tables 11-8 and R344) -/

/-- A record as it stands in the log. -/
structure LogRecord where
  type : Nat
  checkpoint : Bool
  seq : Nat
  owner : Nat
  id : Nat
  payload : List Byte
  /-- Bytes of the record with its padding. -/
  size : Nat
  deriving DecidableEq, Repr

/-- The record at the front of a run of bytes, where its header and its payload have the right CRCs. -/
def parseRecord (bs : List Byte) : Option LogRecord :=
  let len := field bs 0x10 4
  let payload := (bs.drop 32).take len
  let flags := field bs 3 1
  if bs.take 2 = [0x53, 0x4A] && field bs 0x1C 4 = crc32 (bs.take 28) && payload.length = len &&
      field bs 0x14 4 = crc32 payload && 1 ≤ field bs 2 1 && field bs 2 1 ≤ 3 && flags ≤ 1 then
    some { type := field bs 2 1, checkpoint := flags == 1, seq := field bs 4 6, owner := field bs 0x0A 1
           id := field bs 0x0C 2, payload, size := 32 + roundUp16 len }
  else none

def LogRecord.change (r : LogRecord) : Change :=
  { owner := r.owner, id := r.id, value := if r.type = 1 then some r.payload else none }

/-- A committed transaction read from the log. -/
structure LogTxn where
  seq : Nat
  checkpoint : Bool
  changes : List Change
  /-- BOOT_PTR of its commit record. -/
  ptr : List Nat
  /-- Pages it takes. -/
  pages : Nat
  deriving DecidableEq, Repr

/-- The fields of a commit record that follow the records `done`, of which the first `size` bytes of `all` consist. -/
def closeTxn (all : List Byte) (done : List LogRecord) (size : Nat) (c : LogRecord) : Option LogTxn :=
  if c.payload.length = 64 && field c.payload 0 4 = done.length && field c.payload 4 4 = size &&
      field c.payload 8 4 = crc32 (all.take size) && done.all (·.seq == c.seq) then
    some { seq := c.seq, checkpoint := c.checkpoint, changes := done.map LogRecord.change
           ptr := (List.range 12).map fun i => field c.payload (16 + 4 * i) 4, pages := (4095 + (size + c.size)) / 4096 }
  else none

/-- The transaction at the front of the bytes `all`, after its records `done` of `size` bytes; `n` bounds the records. -/
def parseTxn (all : List Byte) (done : List LogRecord) (size : Nat) : Nat → Option LogTxn
  | 0 => none
  | n + 1 => match parseRecord (all.drop size) with
    | none => none
    | some r => if r.type = 3 then closeTxn all done size r else parseTxn all (done ++ [r]) (size + r.size) n

/-! ## The log of a copy -/

/-- A record page of the log: its page number, whether it lies in the newest block or after it, and its bytes where it is
stable and could be read. -/
structure LogPage where
  page : Nat
  newest : Bool
  bytes : Option (List Byte)
  deriving DecidableEq, Repr

/-- The bytes of a page as one read finds them; none of a page that is erased or uncorrectable. -/
def State.logBytes (s : State) (l page : Nat) : State × Option (List Byte) :=
  if s.pageKind l page = .erased then (s, none)
  else
    let (s, r, ws) := s.readPage l page []
    (s.noteRead l page r, match r with
      | .good _ => some (ws.flatMap fun w => leBytes 8 w.toNat)
      | _ => none)

/-- FIRST_SEQ of a valid header page of copy c (R342). -/
def headerSeq (c : Nat) (b : List Byte) : Option Nat :=
  if b.take 32 = (headerPage c (field b 4 6)) then some (field b 4 6) else none

/-- Step 1: FIRST_SEQ of every block of copy c with a valid header page. -/
def State.logHeaders (s : State) (c : Nat) : State × List (Nat × Nat) :=
  (List.range 64).foldl (fun a b =>
    let (s, bs) := a.1.logBytes ((Partition.settings c).base + b) 0
    (s, match bs.bind (headerSeq c) with
      | some q => a.2 ++ [(b, q)]
      | none => a.2)) (s, [])

/-- The newest block: the one with the highest FIRST_SEQ, and of several with the same, which one transaction has entered,
the last in the circle (DEDUCED, log entry 73). -/
def newestBlock (hs : List (Nat × Nat)) : Option Nat :=
  let top := (hs.map (·.2)).foldl max 0
  let held := fun b => hs.any fun h => h.1 == b && h.2 == top
  ((hs.filter fun h => h.2 == top && !held ((h.1 + 1) % 64)).head?).map (·.1)

/-- The blocks of the log from the oldest to the newest: those that precede it in the circle without a gap. -/
def logBlocks (hs : List (Nat × Nat)) (newest : Nat) : List Nat :=
  let back := (List.range 63).map fun i => (newest + 63 - i) % 64
  (back.takeWhile fun b => hs.any fun h => h.1 == b).reverse ++ [newest]

/-- Pages of a block that the log has programmed. -/
def State.logLength (s : State) (l : Nat) : Nat := s.nextPage l

/-- The stability check of a page of the log; UNSTABLE shows what it finds (R328). -/
def State.stableLog (s : State) (l page : Nat) : State × Bool :=
  if s.pageKind l page = .erased then (s, true)
  else
    let (s, a) := s.stability l page
    if a.programmed || a.erased then (s, true) else (s.putFlag .SLT_BLK_WEAR_UNSTABLE true l, false)

/-- The record pages of one block. -/
def State.blockPages (s : State) (l : Nat) (newest : Bool) : State × List LogPage :=
  ((List.range (s.logLength l)).drop 1).foldl (fun a p =>
    let (s, b) := a.1.logBytes l p
    (s, a.2 ++ [{ page := 64 * l + p, newest, bytes := b }])) (s, [])

/-- What recovery takes from a log: the items, the SEQ, BOOT_PTR, where the newest checkpoint begins, and BOOT_PTR as the
transactions taken give it. -/
structure Taken where
  items : List Item := []
  seq : Nat := 0
  ptr : List Nat := List.replicate 12 0xFFFF_FFFF
  found : List Nat := List.replicate 12 0xFFFF_FFFF
  checkpoint : Option Nat := none
  /-- Step 3 met something after which everything is ignored. -/
  stopped : Bool := false
  deriving DecidableEq, Repr

/-- A transaction that begins at the first of `pages` is taken. -/
def Taken.take (a : Taken) (t : LogTxn) (pages : List LogPage) : Taken :=
  { a with
    items := applyChanges (if t.checkpoint then [] else a.items) t.changes, seq := t.seq, ptr := t.ptr
    found := ptrAfter (pages.map (·.page)) t.changes a.found
    checkpoint := if t.checkpoint then (pages.head?).map (·.page) else a.checkpoint }

/-- SEQ follows what is taken: in the newest block by 1, unless the transaction is a checkpoint, which also reconciles a
copy that lags, or the first of the block; earlier it only rises (DEDUCED, log entry 73). -/
def Taken.follows (a : Taken) (t : LogTxn) (first strict : Bool) : Bool :=
  if strict && !first && !t.checkpoint then t.seq == a.seq + 1 else decide (a.seq < t.seq)

/-- Step 3 over the pages of the log; `first`: no transaction that begins in the newest block has been taken. A page of an
older block at which no transaction begins is passed over; in the newest block it stops the recovery. -/
def takeLog (a : Taken) (first : Bool) (skip : Nat) : List LogPage → Taken
  | [] => a
  | p :: ps =>
    if skip ≠ 0 then takeLog a first (skip - 1) ps
    else
      let whole := (p :: ps).takeWhile (·.bytes.isSome)
      match parseTxn (whole.flatMap fun q => q.bytes.getD []) [] 0 (128 * whole.length) with
      | some t =>
        if a.follows t first p.newest then takeLog (a.take t (p :: ps)) (first && !p.newest) (t.pages - 1) ps
        else if p.newest then { a with stopped := true }
        else takeLog a first 0 ps
      | none => if p.newest then { a with stopped := true } else takeLog a first 0 ps

/-- Erased blocks after block b: those whose pages are all erased; the first that is not is checked for a stable erased
state, since it may have been under erase (step 2). `n` bounds them. -/
def State.erasedAhead (s : State) (c b : Nat) : Nat → State × Nat
  | 0 => (s, 0)
  | n + 1 =>
    let l := (Partition.settings c).base + (b + 1) % 64
    if (List.range 64).all fun p => s.pageKind l p == .erased then
      let (s, k) := State.erasedAhead s c (b + 1) n
      (s, k + 1)
    else
      let (s, good) := (List.range 64).foldl (fun a p => if a.1.pageKind l p = .undefined then
          let (s, st) := a.1.stability l p
          if st.erased then (s, a.2) else (s.putFlag .SLT_BLK_WEAR_UNSTABLE true l, false)
        else (a.1, a.2 && a.1.pageKind l p == .erased)) (s, true)
      (s, good.toNat)

/-- Steps 2 to 4 for a copy whose newest block is `b`: its state, with the write point behind the last page that is not
erased. A block in which the recovery stops, or which holds an unstable page, takes no further programs. -/
def State.followLog (s : State) (c b : Nat) (hs : List (Nat × Nat)) : State × Copy :=
  let base := (Partition.settings c).base
  let blocks := logBlocks hs b
  let (s, pages) := blocks.foldl (fun a i =>
    let (s, ps) := a.1.blockPages (base + i) (i == b)
    (s, a.2 ++ ps)) (s, [])
  let last := s.logLength (base + b) - 1
  let (s, stable) := s.stableLog (base + b) last
  let (s, next) := if last = 63 then s.stableLog (base + (b + 1) % 64) 0 else s.stableLog (base + b) (last + 1)
  let pages := if stable then pages else pages.dropLast
  let got := takeLog {} true 0 pages
  let (s, ahead) := s.erasedAhead c b 63
  let from0 := match got.checkpoint with
    | some p => p / 64 - base
    | none => blocks.headD b
  (s, { items := got.items.filter fun i => !(i.owner == 0x01 && (List.range 12).any fun k =>
          i.id == k + 1 && got.ptr.getD k 0 != got.found.getD k 0)
        seq := got.seq, block := b, ptr := got.ptr, ahead, live := (b + 64 - from0) % 64 + 1
        page := if stable && (next || last = 63) && !got.stopped then last + 1 else 64 })

/-- Steps 1 to 4 for copy c. A copy without a valid header page is empty where its blocks are erased, and unreadable where
they are not (DEDUCED, log entry 73). -/
def State.recoverCopy (s : State) (c : Nat) : State × Copy :=
  let (s, hs) := s.logHeaders c
  match newestBlock hs with
  | some b => s.followLog c b hs
  | none =>
    let clean := (List.range 4096).all fun i => s.pageKind ((Partition.settings c).base + i / 64) (i % 64) == .erased
    (s, { unreadable := !clean })

/-- Step 5: a system item that one copy's BOOT_PTR names and that cannot be read there comes from the other copy at the same
SEQ. -/
def mendItems (k other : Copy) : Copy :=
  if k.seq ≠ other.seq then k
  else
    { k with items := ((List.range 12).map (· + 1)).foldl (fun l id =>
        match findItem l 0x01 id, findItem other.items 0x01 id with
        | none, some i => if k.ptr.getD (id - 1) 0xFFFF_FFFF ≠ 0xFFFF_FFFF then
            applyChange l { owner := 0x01, id, value := some i.value } else l
        | _, _ => l) k.items }

/-- Recovery of both copies (R347). -/
def State.recoverJournal (s : State) : State :=
  let (s, k0) := s.recoverCopy 0
  let (s, k1) := s.recoverCopy 1
  (s.setCopy 0 (mendItems k0 k1)).setCopy 1 (mendItems k1 k0)

end Sys2Proof.Machine
end

