-- ==== Sys2Proof/Machine/PowerOps.lean ====
section
/-! DEFINITION. OFF and the BOOT sequence up to its loads (spec/05, Table 5-2), DOZE, and orderly OFF (spec/13). -/

namespace Sys2Proof.Machine

set_option Elab.async false

/-! ## OFF -/

/-- The fields that the Umber island retains (12 R379, 17 R468). -/
def retainedFields : List Fld :=
  [.SAF_LAST_DIAG, .SAF_LAST_VALID, .SAF_LAST_INJECTED, .SAF_LAST_IN_HOLDUP, .SAF_LAST_DETAIL, .SAF_LAST_TIME_TIME,
    .SAF_LAST_EPOCH_EPOCH, .NRG_HU_TIME_DURATION_US, .NRG_HU_TIME_OFF_MV, .NRG_HU_LAST_OUTCOME,
    .NRG_HU_LAST_VIN_RETURNED, .NRG_HU_LAST_SELFTEST, .NRG_HU_LAST_SAFE_DURING, .NRG_HU_LAST_FROM_BOOT,
    .NRG_HU_LAST_PAGES0, .NRG_HU_LAST_PAGES1, .NRG_HU_ENERGY_UJ]

/-- A field of SLT_BLK_WEAR: the wear measures of a block are cleared by its erases alone (11 R331; DEDUCED, log entry 102). -/
def isWear (key : Nat) : Bool :=
  decide (0x51_0000 ≤ key / 64) && decide (key / 64 < 0x52_0000) && key / 64 % 16 == 4

/-- Every domain but the Umber island is unpowered: what remains is the die with its blocks' wear, the fuses, the retained
data, and what the outside world presents (11 R331, 12 R358, 19 R504). -/
def State.enterOff (s : State) : State :=
  let s := (s.setMode .off).drainLog
  { pending := s.pending
    freeCount := s.freeCount
    regs := s.regs.filter fun e => isWear e.1 || retainedFields.any fun f => f.key 0 == e.1
    mode := .off
    hosts := { endpoint := s.hosts.endpoint.filterMap fun e => if e.2.perstHigh then some (e.1, { perstHigh := true }) else none }
    clocks := { source := s.clocks.source }
    safety := { slots := s.safety.slots, archived := s.safety.archived }
    power := { vinPresent := s.power.vinPresent, held := s.power.held, restart := s.power.restart,
               retained := s.power.retained, lastEpoch := s.power.lastEpoch }
    slate := { s.slate with units := [] }
    journal := { s.journal with staged := [], indexed := false }
    test := { record := s.test.record }
    fuses := s.fuses }

/-- The retained data are written to zero or lost (12 R358, 19 R502 step 4). -/
def State.eraseRetained (s : State) : State :=
  { s with
    regs := s.regs.filter fun e => !(retainedFields.any fun f => f.key 0 == e.1)
    safety := { s.safety with slots := [] }
    test := { s.test with record := none }
    power := { s.power with lastEpoch := 0 } }

/-! ## Boot, steps 2 and 3 of Table 5-2 -/

/-- Every missing copy of a flag that reads set is blown (19 R499); a state bit below one that reads set counts as set. -/
def State.repairFlags (s : State) : State :=
  let top := ((List.range 4).filter s.fuse).foldl max 0
  let flags := (s.fuses.flag.map fun e => if s.fuse e.1 then (e.1, 7) else e).filter fun e => decide (top < e.1 || 4 ≤ e.1)
  { s with fuses := { s.fuses with flag := ((List.range (top + 1)).map fun b => (b, 7)) ++ flags } }

/-- The fields that show the fuses (19 R516, 01 DEV_STEP, 09 R272). -/
def State.showFuses (s : State) : State :=
  let bits := fun (p : Nat → Bool) => ((List.range 4).filter p).foldl (fun v i => v + 2 ^ i) 0
  let s := (s.put .DEV_LC_STATE (bits s.fuse)).putFlag .DEV_LC_RET_DONE (s.fuse 4)
  let s := (s.putFlag .DEV_LC_KEY_PRESENT (s.fuse 16)).putFlag .DEV_LC_KEY_DESTROYED (s.fuse 17)
  let s := (s.put .DEV_KEY_SLOT_PROGRAMMED (bits fun i => s.fuse (8 + i))).put .DEV_KEY_SLOT_REVOKED
    (bits fun i => s.fuse (12 + i))
  let s := (s.put .DEV_KEY_SLOT_PARTIAL (bits fun i => SMap.look false s.fuses.slotTouched i && !s.fuse (8 + i))).putFlag
    .DEV_KEY_SLOT_KEY_PARTIAL (s.fuses.keyTouched && !s.fuse 16)
  let s := s.forEach (List.range 4) fun s i =>
    let h := if s.fuse (8 + i) then SMap.look [] s.fuses.slotHash i else []
    s.forEach (List.range 12) fun s w => s.put .DEV_KEY_HASH_HASH (ofLe ((h.drop (4 * w)).take 4)) (12 * i + w)
  let s := s.put .DEV_UID_UID ((Config.uid 0).toNat + 2 ^ 32 * (Config.uid 1).toNat)
  let s := (s.put .DEV_STEP_SPEED (1 + Config.fastGrade.toNat)).put .DEV_STEP_TGRADE 1
  s.forEach (List.range 128) fun s n => s.put .BNK_STAT_FUSE_USED (Config.fuseColumns n).val n

/-- The remap tables from the remap record (09 R271). -/
def State.loadRemap (s : State) : State :=
  match s.systemItem 4 with
  | none => s
  | some b =>
    if b.length ≠ 8192 then s
    else
      let s := s.forEach (List.range 2048) fun s i =>
        let w := ofLe ((b.drop (4 * i)).take 4)
        (s.put .BNK_REMAP_ENT_CELL w i).putFlag .BNK_REMAP_ENT_VALID (w.testBit 17) i
      s.forEach (List.range 128) fun s n =>
        let used := ((List.range 16).filter fun e => s.flag .BNK_REMAP_ENT_VALID (16 * n + e)).length
        (s.put .BNK_STAT_REMAP_USED used n).putFlag .BNK_STAT_REMAP_FULL (used == 16) n

/-- The four words of the host attachment record, stored or by default (02 R47, R73). -/
def State.storedAttachment (s : State) : List Nat :=
  match s.systemItem 1 with
  | some b => if b.length = 16 then (bytesWords b 4).map (·.toNat) else [0x57, 0, 0, 0]
  | none => [0x57, 0, 0, 0]

/-- The endpoints and the lanes they hold (02 R47 to R49). -/
def State.loadAttachment (s : State) : State :=
  s.storedAttachment.zipIdx.foldl (fun s wk =>
    let (w, k) := wk
    let s := (s.putFlag .MBX_EP_STAT_ENABLED (w.testBit 0) k).put .MBX_EP_STAT_CFG_WIDTH (bitsOf w 1 2) k
    let s := s.put .MBX_EP_STAT_CFG_GEN (bitsOf w 4 3) k
    if w.testBit 0 then
      s.forEach (List.range (2 ^ bitsOf w 1 2)) fun s i => s.putFlag .XCV_LANE_STAT_HELD_PCIE true (8 * k + i)
    else s) s

/-- The user extents as this boot uses them (11 R348): one whose family has changed is to be erased. -/
def State.loadExtents (s : State) : State :=
  let families := (s.systemItem 5).getD []
  s.forEach (List.range 64) fun s x =>
    let f := (families.getD x 0x10).toNat
    let f := if families.length = 64 then f else 0x10
    if f = SMap.look 0x10 s.journal.extentFamily x then s
    else { s with journal := { s.journal with
      extentFamily := SMap.put 0x10 s.journal.extentFamily x f
      extentLeft := SMap.put 0 s.journal.extentLeft x 32 } }

/-- The image key is destroyed, and the first boot in RETURNED is marked done (19 R503, Table 19-2). -/
def State.returnFuses (s : State) : State :=
  { s with fuses := { s.fuses with
    flag := SMap.put 0 (SMap.put 0 s.fuses.flag 17 7) 4 7, imageKey := [], keyTouched := true } }

/-- The blocks of the settings copies and of the user area. -/
def returnedBlocks : List Nat :=
  ((List.range 2).flatMap fun c => (List.range 64).map ((Partition.settings c).base + ·)) ++
    (List.range 2048).filterMap fun i =>
      match partitionOf (2048 + i) with
      | .user _ => some (2048 + i)
      | _ => none

/-- Blocks erased, but for those that no spare replaces. -/
def State.eraseBlocks (s : State) (ls : List Nat) : State :=
  s.forEach ls fun s l => if s.unreplaced l then s else s.eraseEnds l 1 0

/-- The settings copies and the user area erased, each block as an erase that verifies at its first pulse; a block that no
spare replaces is left (log entry 100). -/
def State.eraseReturned (s : State) : State :=
  let s := s.eraseBlocks returnedBlocks
  { s with journal := { s.journal with copy0 := {}, copy1 := {} } }

/-- The first boot in RETURNED (19 R503): the image key is destroyed, and the settings copies and the user area erased. -/
def State.completeReturn (s : State) : State :=
  if s.lc ≠ lcReturned || s.fuse 4 then s else s.returnFuses.eraseReturned.showFuses

/-- The event index continues (17 R470). -/
def State.continueLog (s : State) : State :=
  let kept := s.safety.slots.filterMap fun e => e.2.map (·.index)
  let archive := (s.newestArchive.map fun a => a.2 + 1).getD 0
  if s.power.retained && !kept.isEmpty then s.put .SAF_LOG_HEAD_NEXT (kept.foldl max 0 + 1)
  else
    let s := { s with safety := { s.safety with archived := archive } }
    s.put .SAF_LOG_HEAD_NEXT archive

/-- The epoch of the committed snapshot (Table 12-6). -/
def State.snapshotEpoch (s : State) : Option Nat :=
  match s.systemItem 6 with
  | some b => if b.length = 16384 then some (field b 8 4) else none
  | none => none

/-- The record of the boot that ended is shown, and whether STARTUP is skipped is decided (18 R488, R489). -/
def State.readRecord (s : State) : State × Bool :=
  match s.test.record with
  | none => (s, false)
  | some r =>
    let skip := s.power.retained && r.program == 1 && (r.outcome == outcomePass || r.outcome == outcomeFail) &&
      r.epoch == s.power.lastEpoch && !r.consumed
    let s := s.showRecord 0 r
    let s := if r.outcome = outcomeFail then s.putFlag .BST_STAT_FAIL true else s
    if skip then
      ({ s.putFlag .BST_REC_HDR_CONSUMED true with test := { s.test with record := some { r with consumed := true } } }.putFlag
        .BST_STAT_SKIPPED true, true)
    else (s, false)

/-! ## The images of a boot (05 R150 to R152) -/

/-- The regions whose REGION_ENTRY names entry `e`. -/
def Directory.regionsNaming (d : Directory) (e : Nat) : List Nat :=
  (List.range 16).filter fun k => d.regionEntry.getD k 0xFF == e

/-- The images that REGION_ENTRY names, each once. -/
def Directory.overlays (d : Directory) : List LoadJob :=
  ((d.regionEntry.filter (· ≠ 0xFF)).eraseDups).map fun e =>
    { kind := .boot, entry := e, regions := d.regionsNaming e }

/-- The Gold image's entry: that of the directory, or the implied one. -/
def State.goldEntry (s : State) : Nat := (s.loader.dir.map (·.goldEntry)).getD 0xFE

/-- Table 5-1: whether the selection is the Gold image, and the images to load. -/
def State.bootJobs (s : State) : Bool × List LoadJob :=
  let gold : Bool × List LoadJob := (true, [{ kind := .gold, entry := s.goldEntry, regions := List.range 16 }])
  match s.loader.dir with
  | none => gold
  | some d =>
    if d.bootStyle = 0 then
      if d.bootEntry = 0xFF then gold
      else (false, { kind := .boot, entry := d.bootEntry, regions := d.regionsNaming 0xFF } :: d.overlays)
    else if d.overlays.isEmpty then gold
    else (false, d.overlays)

/-- The loads of the boot begin: steps 5 and 6 of Table 5-2. -/
def State.startLoads (s : State) : State :=
  let jobs := s.bootJobs.2
  let s := s.forEach (jobs.flatMap (·.regions)) fun s k => s.setRegion k 1
  (s.setLoader { s.loader with jobs }).put .CFG_BOOT_STAT_STATE 2

/-- The selection is recorded, and the PLLs start from their set of the boot record (14 R411). -/
def State.selectImages (s : State) : State :=
  let (s, found) := s.findDirectory
  let s := s.setLoader { s.loader with dir := found.map fun f => f.1.dropWriting, dirPage := (found.map (·.2)).getD 511 }
  let (gold, _) := s.bootJobs
  let perRegion := !gold && s.loader.dir.any (·.bootStyle == 1)
  let entry := match s.loader.dir with
    | none => 0xFF
    | some d => if gold then d.goldEntry else if perRegion then 0xFF else d.bootEntry
  let s := ((s.putFlag .CFG_BOOT_STAT_NO_DIR found.isNone).put .CFG_BOOT_STAT_ENTRY entry).putFlag
    .CFG_BOOT_STAT_STYLE perRegion
  let sets := (s.systemItem 3).getD []
  s.startPlls (if gold then (sets.drop 512).take 512 else sets.take 512)

/-- The start-up test begins, where it is due (18 R489, R493), or the loads do. -/
def State.startBoot (s : State) (skip : Bool) : State :=
  if s.lc = lcBlank then s.put .CFG_BOOT_STAT_STATE 6
  else if skip then s.startLoads
  else
    let s := { s with test := { s.test with program := some 2, steps := programSteps 2 [], cut := false } }
    ((s.put .CFG_BOOT_STAT_STATE 1).putFlag .CFG_BOOT_STAT_SELFTEST true).showTests

/-- The start of a boot: the retained state as the chapters keep it, the mode, and the calibration sensors. -/
def State.bootStart (s : State) : State :=
  let s := { s with power := { s.power with restart := false, held := false } }
  let s := s.putFlag .NRG_HU_LAST_RETAINED s.power.retained
  let s := s.putFlag .SAF_LAST_PREV (s.flag .SAF_LAST_VALID)
  (s.continueLog.setMode .boot).put .CAL_STAT_RUN 0x3F

/-- Fuses and block map, and what the first boot in RETURNED does. -/
def State.bootFuses (s : State) : State := ((s.repairFlags.showFuses).loadBlockMap).completeReturn

/-- The settings journal is recovered, and what its records fix is loaded. -/
def State.loadStores (s : State) : State :=
  let s := ((s.forEach (List.range 16) State.groupPowerUp).recoverJournal).loadAttachment
  let s := ((s.put .SLT_SET_SEQ_SEQ (s.copy s.sourceCopy).seq).put .SLT_SET_STAT_SOURCE s.sourceCopy).showJournal
  (s.loadOwners.loadRemap).loadExtents

/-- The epoch of this power cycle, which the next one finds retained. -/
def State.settleEpoch (s : State) : State :=
  let s := s.setEpoch (if s.power.retained then some s.power.lastEpoch else none) s.snapshotEpoch (s.newestArchive.map (·.1))
  { s with power := { s.power with retained := true, lastEpoch := s.get .TMB_EPOCH_EPOCH } }

/-- The records of the settings journal, the epoch, the band tables, and the first load. -/
def State.bootRecords (s : State) : State :=
  let r := s.loadStores.readRecord
  ((r.1.settleEpoch.forEach (List.range 16) State.loadBands).selectImages).startBoot r.2

/-- Steps 1 to 3 of Table 5-2 from OFF. -/
def State.boot (s : State) : State := s.bootStart.bootFuses.bootRecords

/-! ## DOZE (13 R387 to R391) -/

/-- The first refuser of Table 13-5 that applies: reason and refuser. -/
def State.dozeRefusal (s : State) : Option (Nat × Nat) :=
  let regions := (List.range 16).filter fun k => s.bit .SAF_CFG_CRIT_REGIONS k || s.bit .SAF_PLL_CRIT_PLLS k
  let loading := (List.range 16).filter s.loading
  let vetoes := (List.range 5).filter fun i => s.flag .PWR_VETO_DOZE i && (i == 4 || !s.hostAbsent i)
  match regions, loading with
  | k :: _, _ => some (6, 0x20 + k)
  | [], k :: _ => some (5, 0x20 + k)
  | [], [] =>
    if s.loadActive ≠ 0 then some (5, 0x02)
    else if !s.slate.units.isEmpty || s.ledger.admitted.any (fun a => a.1 < 7) then some (3, 0x01)
    else if (List.range 16).any fun g => (s.slice g).isSome then some (4, 0x03)
    else match s.busyRing with
      | some r => some (2, ringOwner r)
      | none => (vetoes.head?).map fun i => (7, 0x10 + i)

/-- Steps 1 to 3 of Table 13-6: ports treated as fenced, channels closed, lanes and PLLs stopped, and the count handed
over to the Umber oscillator. -/
def State.beginDoze (s : State) : State :=
  let s := s.put .DEV_MODE_PHASE 1
  let s := { s with power := { s.power with woken := false, wakeHeld := false } }
  let s := (s.forEach (List.range 16) fun s k => (s.fenceEffects k).dozeLane k)
  let s := ((s.dozePlls).enterDozeTime).put .CAL_STAT_RUN 0x30
  let s := { s with calib := { s.calib with seen := SMap.put false s.calib.seen 1 false } }
  s.bump .CAL_REF_DISCARDS

/-- The quads that carry no lane of an enabled endpoint and are on, as bits. -/
def State.idleQuads (s : State) : List Nat := (List.range 8).filter fun q => s.quadOn q && !s.quadPcie q

/-- Steps 4 to 6 of Table 13-6. -/
def State.completeDoze (s : State) : State :=
  let quads := s.idleQuads
  let s := s.forEach quads fun s q => s.quadPowerDown q true
  let s := { s with power := { s.power with dozedQuads := quads.foldl (fun v q => v + 2 ^ q) 0 } }
  let s := s.forEach (List.range 128) fun s n => s.putFlag .BNK_SCRUB_RUNNING false n
  let s := (s.setMode .doze).put .DEV_MODE_PHASE 0
  let s := s.bump .DEV_MODE_CNT_DOZES
  if s.flag .DEV_MODE_WAKE_PENDING then s.bump .DEV_MODE_CNT_ROUND_TRIPS else s

/-- The steps of Table 13-7. -/
def State.exitDoze (s : State) : State :=
  let s := s.exitDozeTime
  let s := s.forEach ((List.range 8).filter s.power.dozedQuads.testBit) State.quadPowerUp
  let s := ((s.putFlag .DEV_MODE_WAKE_PENDING false).setMode .run).wakePlls
  let s := s.forEach (List.range 16) fun s k =>
    let s := if s.scrubbed k then s.startSweep k else s
    (s.resyncPorts k).resumeLanes k
  let s := s.forEach ((List.range 128).filter fun n => s.groupOn (groupOfBank n)) State.scrubRestart
  { s with power := { s.power with woken := false, wakeHeld := false, dozedQuads := 0 } }.put .CAL_STAT_RUN 0x3F

/-! ## Orderly OFF (13 R392 to R397) -/

/-- The refusal of a request without FORCE: reason and refuser (R392). -/
def State.offRefusal (s : State) : Option (Nat × Nat) :=
  let vetoes := (List.range 5).filter fun i => s.flag .PWR_VETO_SHUTDOWN i && (i == 4 || !s.hostAbsent i)
  match vetoes with
  | i :: _ => some (7, 0x10 + i)
  | [] => s.busyRing.map fun r => (2, ringOwner r)

/-- FORCE is implied in SAFE and in a failed boot. -/
def State.impliedForce (s : State) : Bool := s.mode == .safe || s.failedBoot

/-- An orderly OFF is accepted; with FORCE the rings halt at descriptor boundaries. -/
def State.acceptOff (s : State) (o : Orderly) (force : Bool) : State :=
  let s := if force then s.forEach (List.range 64) fun s g => s.haltGroup g 4 else s
  { s with power := { s.power with orderly := some o } }.put .DEV_MODE_PHASE (if o.cause == PowerCause.shutdown then 3 else 4)

/-- No work that cannot be cut is left (R393). -/
def State.uncuttable (s : State) : Bool :=
  !s.loader.jobs.isEmpty && (s.loader.jobs.any (·.header.isSome)) || !s.slate.units.isEmpty ||
    (List.range 16).any fun g => (s.slice g).isSome

/-- The fabric stops as in HOLDUP, and every output takes its safe state. -/
def State.stopFabric (s : State) : State :=
  let s := (((s.fenceAll fun f => { f with holdup := true }).dropJobs).stopLanes).closeChannels
  s.showAllPins

/-- The committed SEQ as results 0 and 1. -/
def State.seqWords (s : State) : List Word := twoWords (s.get .SLT_SET_SEQ_SEQ)

/-- Queued reloads that have not begun end with the fabric. -/
def State.dropWaiting (s : State) : State := s.setLoader { s.loader with jobs := [], reloads := [], fallback := false }

/-- The life-cycle state bits up to state `n` are blown (19 R499). -/
def State.blowState (s : State) (n : Nat) : State :=
  let bits := (List.range 4).filter n.testBit
  { s with fuses := { s.fuses with flag := bits.foldl (fun m b => SMap.put 0 m b 7) s.fuses.flag } }.showFuses

end Sys2Proof.Machine
end

