-- ==== Sys2Proof/Machine/CalCmds.lean ====
section
/-! DEFINITION. Calibration on live traffic (spec/16): the loops' windows, probes and samples. What the sensors and
counters measured in a window is the command's operand. -/

namespace Sys2Proof.Machine

set_option Elab.async false

/-- Loop `i` runs (R452). -/
def State.loopRuns (s : State) (i : Nat) : Bool := s.bit .CAL_STAT_RUN i && s.mode != .off && s.mode != .holdup

/-- First cause code of each loop (R455). -/
def firstCause : Nat → Nat
  | 1 => 1
  | 2 => 4
  | 3 => 6
  | 4 => 7
  | _ => 10

/-- A result outside its bound (R444): recorded if it is the first, or the lower loop of one instant (Table 16-2), and
a dangerous fault. -/
def State.outOfBounds (s : State) (loop cause detail : Nat) (injected : Bool) : State :=
  let s := s.putBit .CAL_STAT_OOB loop true
  let records := !s.flag .CAL_OOB_VALID || (s.get .CAL_OOB_TIME_TIME == s.now && decide (loop < s.get .CAL_OOB_LOOP))
  let s := if records then
      let s := ((s.put .CAL_OOB_LOOP loop).put .CAL_OOB_CAUSE cause).put .CAL_OOB_DETAIL detail
      ((s.putFlag .CAL_OOB_VALID true).putFlag .CAL_OOB_INJECTED injected).stamp .CAL_OOB_TIME_TIME
    else s
  s.danger 12 loop none 0 injected

/-- A loop's bounds are evaluated: what the window found, each with its cause and detail, after the armed injection. -/
def State.evaluate (s : State) (loop : Nat) (found : List (Nat × Nat)) : State :=
  let s := if SMap.look false s.calib.armed loop then
      { s with calib := { s.calib with armed := SMap.put false s.calib.armed loop false } }.outOfBounds loop
        (firstCause loop) 0 true
    else s
  found.foldl (fun s c => s.outOfBounds loop c.1 c.2 false) s

def State.setSeen (s : State) (loop : Nat) (b : Bool) : State :=
  { s with calib := { s.calib with seen := SMap.put false s.calib.seen loop b } }

/-! ## Loop 1: reference oscillator (R446, R447) -/

/-- One host reference as a window saw it: endpoint, deviation from 100 MHz of the compensated oscillator, and span of
its sub-windows, both in parts per 10^9. -/
abbrev RefSeen := Fin 4 × Int × Nat

def RefSeen.spread (r : RefSeen) : Bool := decide (1000000 < r.2.2)

def RefSeen.eligible (r : RefSeen) : Bool := !RefSeen.spread r && decide (r.2.1.natAbs ≤ 600000)

def maskOf (rs : List RefSeen) (p : RefSeen → Bool) : Nat :=
  (List.range 4).foldl (fun m k => if rs.any fun r => r.1.val == k && p r then m + 2 ^ k else m) 0

/-- Two references that are not spread agree within 50 ppm, and their mean lies beyond 600 ppm. -/
def referencesDisagree (rs : List RefSeen) : Bool :=
  rs.any fun a => rs.any fun b =>
    decide (a.1 < b.1) && !RefSeen.spread a && !RefSeen.spread b && decide ((a.2.1 - b.2.1).natAbs ≤ 50000) &&
      decide (1200000 < (a.2.1 + b.2.1).natAbs)

/-- TMB_CORR moved toward `target` by at most 2,000 parts per 10^9. -/
def State.moveCorrection (s : State) (target : Int) : State :=
  let d := target - s.correction
  let d := if d < -2000 then -2000 else if 2000 < d then 2000 else d
  (s.put .TMB_CORR_PPB (BitVec.ofInt 32 (s.correction + d)).toNat).stamp .CAL_REF_TIME_TIME

/-- The disciplining source is lost: the accuracy falls at once and the 60 s hold begins. -/
def State.loseSource (s : State) : State :=
  if s.calib.source.isSome then
    let s := (s.put .TMB_STAT_ACCURACY 1).putFlag .CAL_REF_HOLDING true
    { s with calib := { s.calib with source := none, expired := false } }
  else s

/-- A window of loop 1 is discarded. -/
def State.discardWindow (s : State) : State := (s.bump .CAL_REF_DISCARDS).setSeen 1 false

/-- Endpoint k's link has gone down: its window and, if it was the source, the source are lost (Table 16-2). -/
def State.sourceDown (s : State) (k : Nat) : State :=
  if s.calib.source = some k then (s.loseSource).discardWindow else s

/-- The source of this window: the present one while it stays eligible, else the lowest-numbered eligible endpoint. -/
def State.chooseSource (s : State) (rs : List RefSeen) : Option RefSeen :=
  match rs.find? fun r => s.calib.source == some r.1.val && RefSeen.eligible r with
  | some r => some r
  | none => ((List.range 4).filterMap fun k => rs.find? fun r => r.1.val == k && RefSeen.eligible r).head?

/-- The correction of one window. -/
def State.discipline (s : State) (rs : List RefSeen) : State :=
  match s.chooseSource rs with
  | some r =>
    let s := { s with calib := { s.calib with source := some r.1.val, expired := false } }
    let s := ((s.putFlag .CAL_REF_HOLDING false).put .TMB_STAT_DISC_EP r.1.val).moveCorrection r.2.1
    s.put .TMB_STAT_ACCURACY (if (r.2.1 - s.correction).natAbs ≤ 20000 then 2 else 1)
  | none =>
    let s := s.loseSource
    if s.calib.expired && s.correction ≠ 0 then s.moveCorrection 0 else s

/-- What the Umber oscillator's period does outside its bounds. -/
def State.umberFound (s : State) (period : Nat) : List (Nat × Nat) :=
  let before := s.get .TMB_UMBER_PER_PERIOD_PS
  (if period < 970000 || 1030000 < period then [(2, 0)] else []) ++
    (if SMap.look false s.calib.seen 1 && decide (5 * before < 1000 * ((period : Int) - before).natAbs) then [(3, 0)] else [])

/-- A window of loop 1 ends: the references counted, and the Umber period; a window that is not complete is discarded. -/
def execReferenceOscillatorWindow (complete : Bool) (refs : List (Fin 4 × Int × Nat)) (umber : BitVec 21) (s : State) : Out :=
  if !s.loopRuns 1 then .next s
  else if !complete then .next s.discardWindow
  else
    let refs := refs.filter fun r => s.flag .MBX_EP_STAT_LINK_UP r.1.val
    let found := (if referencesDisagree refs then [(1, 0)] else []) ++ s.umberFound umber.toNat
    let s := (s.put .CAL_REF_ELIGIBLE (maskOf refs RefSeen.eligible)).put .CAL_REF_SPREAD (maskOf refs RefSeen.spread)
    let s := (s.put .TMB_UMBER_PER_PERIOD_PS umber.toNat).discipline refs
    .next ((s.setSeen 1 true).evaluate 1 found)

/-- 60 s have passed without a source. -/
def execCorrectionHoldExpiry (s : State) : Out :=
  if s.flag .CAL_REF_HOLDING && s.mode != .off then
    .next ({ s with calib := { s.calib with expired := true } }.putFlag .CAL_REF_HOLDING false)
  else .next s

/-! ## Loop 2: the spine (R448, 07 R221) -/

/-- The rate of the last 100 µs, in M transfers/s. -/
def execSpineRateMeasure (mtps : BitVec 16) (s : State) : Out :=
  if !s.loopRuns 2 then .next s
  else
    let v := mtps.toNat
    let first := s.get .SPN_RATE_MAX_MAX_MTPS == 0
    let s := s.put .SPN_RATE_CUR_MTPS v
    let s := if first || v < s.get .SPN_RATE_MIN_MTPS then s.put .SPN_RATE_MIN_MTPS v else s
    let s := s.put .SPN_RATE_MAX_MAX_MTPS (max v (s.get .SPN_RATE_MAX_MAX_MTPS))
    .next (s.evaluate 2 (if v < 1000 then [(5, 0)] else []))

/-- The next link of the rotation is probed; its margin in percent. -/
def execMarginProbe (percent : Fin 101) (s : State) : Out :=
  if !s.loopRuns 2 then .next s
  else
    let link := s.calib.nextLink
    let v := percent.val
    let s := { s with calib := { s.calib with nextLink := (link + 1) % 96 } }
    let s := ((s.put .CAL_SPN_LAST_LINK link).put .CAL_SPN_LAST_PCT v).stamp .CAL_SPN_TIME_TIME
    let s := if v < s.get .CAL_SPN_MIN_PCT then (s.put .CAL_SPN_MIN_PCT v).put .CAL_SPN_MIN_LINK link else s
    .next (s.evaluate 2 (if v < 12 then [(4, link)] else []))

/-! ## Loop 3: Slate read references (R449) -/

/-- A window of one read reference of flash bank `b` ends, with the corrected bits of each direction. A surplus of ones
read as 0 raises the reference. -/
def execSlateReadReferenceWindow (b : Fin 8) (image : Bool) (onesAsZero zerosAsOne : Nat) (s : State) : Out :=
  if !s.loopRuns 3 then .next s
  else
    let f : Fld := if image then .CAL_SLT_REF_IMG else .CAL_SLT_REF_STD
    let total := onesAsZero + zerosAsOne
    let steps : Int := if total < 64 then 0
      else if 3 * total < 4 * onesAsZero then 1
      else if 3 * total < 4 * zerosAsOne then -1 else 0
    let next := (BitVec.ofNat 6 (s.get f b)).toInt + steps
    if 31 < next.natAbs then .next (s.evaluate 3 [(6, b.val)])
    else if steps = 0 then .next (s.evaluate 3 [])
    else
      let s := (s.put f (BitVec.ofInt 6 next).toNat b).bump .CAL_SLT_STEPS b
      .next ((s.stamp .CAL_SLT_TIME_TIME).evaluate 3 [])

/-! ## Loop 4: the energy meter (R450) -/

/-- A window of loop 4 ends with new corrections, in millivolts and tenths of a percent. -/
def execEnergyMeterWindow (complete : Bool) (vin int ext gain : BitVec 8) (s : State) : Out :=
  if !s.loopRuns 4 then .next s
  else if !complete then .next (s.setSeen 4 false)
  else
    let moved := fun (f : Fld) (v : BitVec 8) => decide (5 < (v.toInt - (BitVec.ofNat 8 (s.get f)).toInt).natAbs)
    let jump := SMap.look false s.calib.seen 4 &&
      (moved .CAL_NRG_VIN_MV vin || moved .CAL_NRG_INT_MV int || moved .CAL_NRG_EXT_MV ext)
    let found := (if jump then [(7, 0)] else []) ++
      (if [vin, int, ext].any fun v => decide (100 < v.toInt.natAbs) then [(8, 0)] else []) ++
      (if 20 < gain.toInt.natAbs then [(9, 0)] else [])
    let s := ((s.put .CAL_NRG_VIN_MV vin.toNat).put .CAL_NRG_INT_MV int.toNat).put .CAL_NRG_EXT_MV ext.toNat
    let s := ((s.put .CAL_NRG_I_GAIN gain.toNat).stamp .CAL_NRG_TIME_TIME).setSeen 4 true
    .next (s.evaluate 4 found)

/-! ## Loop 5: thermal sensors (R451, 17 R461) -/

/-- Zone z produces readings: its region is powered, and in DOZE only the Umber island's does. -/
def State.zoneReads (s : State) (z : Nat) : Bool :=
  if s.mode == .doze then z == 18 else decide (16 ≤ z) || s.regionOn z

/-- The correction of one zone's sensor, the main and the check sensor in turn. -/
def State.correctZone (s : State) (z : Nat) (c : BitVec 8) : State :=
  let check := SMap.look false s.calib.check z
  let s := { s with calib := { s.calib with check := SMap.put false s.calib.check z (!check) } }
  if check then { s with calib := { s.calib with offset := SMap.put 0 s.calib.offset z c.toNat } }
  else s.put .CAL_TEMP_CORR c.toNat z

/-- A window of loop 5 ends, with the correction measured in each zone that produced readings throughout. -/
def execThermalWindow (complete : Bool) (zones : List (Fin 19 × BitVec 8)) (s : State) : Out :=
  if !s.loopRuns 5 || !complete then .next s
  else
    let zones := zones.filter fun z => s.zoneReads z.1.val
    let found := zones.flatMap fun z =>
      (if 40 < s.get .CAL_TEMP_DIFF z.1 then [(10, z.1.val)] else []) ++
        (if 80 < z.2.toInt.natAbs then [(11, z.1.val)] else [])
    let s := zones.foldl (fun s z => s.correctZone z.1 z.2) s
    .next ((s.stamp .CAL_TEMP_TIME_TIME).evaluate 5 found)

/-- One zone's sample in eighths of a degree: the reading shown, and the limits of R461. -/
def State.sampleZone (s : State) (z : Nat) (main check : BitVec 12) : State :=
  let hot := SMap.look false s.calib.hot z
  let s := { s with calib := { s.calib with hot := SMap.put false s.calib.hot z false } }
  let t : Int := if hot then 1080 else main.toInt
  let s := ((s.put .CAL_TEMP_TEMP (BitVec.ofInt 12 t).toNat z).putFlag .CAL_TEMP_VALID true z).put .CAL_TEMP_DIFF
    (min (main.toInt - check.toInt).natAbs 0xFF) z
  let s := if z == 18 && s.mode == .doze then
      { s with clocks := { s.clocks with
          dozeDelta := max s.clocks.dozeDelta (t - (BitVec.ofNat 12 s.clocks.dozeTemp).toInt).natAbs } }
    else s
  let warned := SMap.look false s.safety.warned z
  let warn := fun (s : State) (b : Bool) =>
    { s with safety := { s.safety with warned := SMap.put false s.safety.warned z b } }
  let s := if t < 960 then warn s false
    else if decide (1000 ≤ t) && !warned then (warn s true).logEvent 0x0603 z (s.shown .CAL_TEMP z)
    else s
  if 1080 ≤ t then s.danger 11 z none 0 hot else s

/-- A 1 ms sample of the thermal loop: main and check reading of each zone. -/
def execThermalSample (zones : List (Fin 19 × BitVec 12 × BitVec 12)) (s : State) : Out :=
  if !s.loopRuns 5 then .next s
  else
    let zones := zones.filter fun z => s.zoneReads z.1.val
    .next (zones.foldl (fun s z => s.sampleZone z.1 z.2.1 z.2.2) s)

/-! ## Injection (R455) -/

/-- A write to CAL_INJECT. -/
def State.writeCalInject (s : State) (o v : Nat) : Wrote :=
  let loop := bitsOf v 0 3
  if !s.maintains o then .notOwner s
  else if v.testBit 31 && (loop == 0 || decide (5 < loop)) then .rejected s
  else
    let s := s.put .CAL_INJECT_LOOP loop
    .took (if v.testBit 31 then { s with calib := { s.calib with armed := SMap.put false s.calib.armed loop true } } else s)

end Sys2Proof.Machine
end

