-- ==== Sys2Proof/Machine/DiagOps.lean ====
section
/-! DEFINITION. Detections of the diagnostics that can be injected (17 Table 17-1, R481): scrubber fault, PLL loss, output
shorts, field overcurrents and the lockstep compare, each as the real detection and its injection share it. -/

namespace Sys2Proof.Machine

set_option Elab.async false

/-- A detection that a safety marking makes dangerous (R456, R458). -/
def State.classify (s : State) (marked : Bool) (diag detail : Nat) (value : Option Nat) (owner : Nat) (injected : Bool) :
    State :=
  if marked then s.danger diag detail value owner injected else s.contained diag detail value owner injected

/-! ## DIAG 4: scrubber fault (09 R268) -/

/-- Bank n's pass has not ended in time. -/
def State.passOverdue (s : State) (n : Nat) (injected : Bool) : State := s.danger 4 n none (s.bankOwner n) injected

/-! ## DIAG 5: loss at a PLL (14 R412 to R414) -/

/-- Two consecutive failing PFD cycles at PLL k. Before it has qualified they only restart the phase it is in; in SAFE and HOLDUP,
and while DOZE stops the PLL, the loss is counted without further effect (Table 14-5). -/
def State.pllLoss (s : State) (k : Nat) (reference injected : Bool) : State :=
  if !s.flag .PLL_STAT_POWERED k then s
  else if !(s.pll k).counted then s
  else
    let s := (s.bump (if reference then .PLL_EVT_LOR else .PLL_EVT_LOL) k).stamp .PLL_EVT_TIME_TIME k
    let s := s.logEvent 0x0801 k reference.toNat (0x20 + k) (if injected then flagInjected else 0)
    if s.mode == .safe || s.mode == .holdup then s
    else
      let s := (s.fenceByPll k).acquirePll k reference
      let s := s.putPll k { s.pll k with counted := false }
      s.classify (s.bit .SAF_PLL_CRIT_PLLS k) 5 k none (0x20 + k) injected

/-! ## DIAG 6: short at a general output (20 R523, R524) -/

/-- The comparator of pin n counts samples: SHORT_CHK is set, it is no LVDS output, the driver is enabled, and an open drain drives low. -/
def State.gioChecked (s : State) (n : Nat) : Bool :=
  let p := s.gioPin n
  p.settings.testBit 7 && !(s.gioPin (s.pairHead n)).lvds && !(s.failedBoot && p.jtag.isSome) && s.mode != .holdup &&
    (s.gioLevel n == .low || (s.gioLevel n == .high && !p.settings.testBit 8))

/-- A short on pin n: `pad` is the pad value of the third mismatching sample. -/
def State.gioShort (s : State) (n : Nat) (driven pad injected : Bool) : State :=
  let b := n / 32
  let s := (s.putBit .GIO_SHORT_DISABLED (n % 32) true b).bump .GIO_SHORT_CNT_SHORTS b
  let s := ((s.put .GIO_SHORT_LAST_BANK b).put .GIO_SHORT_LAST_PIN (n % 32)).putFlag .GIO_SHORT_LAST_VALID true
  let s := (s.putFlag .GIO_SHORT_LAST_INJECTED injected).stamp .GIO_SHORT_TIME_TIME
  s.classify (s.bit .SAF_IO_CRIT_REGIONS (regionOfGio n)) 6 n (some (driven.toNat + 2 * pad.toNat))
    (0x20 + regionOfGio n) injected

/-! ## DIAG 7: field overcurrent (20 R527) -/

/-- FIO_LAST and its time. -/
def State.noteFio (s : State) (n kind : Nat) (injected : Bool) : State :=
  let s := ((s.put .FIO_LAST_GROUP (n / 16)).put .FIO_LAST_PIN (n % 16)).put .FIO_LAST_KIND kind
  ((s.putFlag .FIO_LAST_VALID true).putFlag .FIO_LAST_INJECTED injected).stamp .FIO_LAST_TIME_TIME

/-- The trip of output n, with the pin current at detection. -/
def State.fioTrip (s : State) (n mA : Nat) (injected : Bool) : State :=
  let g := n / 16
  let s := (s.putBit .FIO_OUT_STAT_SHORT (n % 16) true g).bump .FIO_CNT_SHORTS g
  let s := (s.noteFio n 1 injected).showFio n
  s.classify (s.bit .SAF_IO_CRIT_REGIONS (regionOfFio n)) 7 n (some mA) (0x20 + regionOfFio n) injected

/-- A configured field output. -/
def State.isFieldOutput (s : State) (n : Nat) : Bool := (s.fioPin n).settings.testBit 8 && (s.fioPin n).settings.testBit 1

/-- A group's total current above the group trip: every output of the group is switched off and disabled. -/
def State.groupTrip (s : State) (g mA : Nat) : State :=
  let pins := (List.range 16).map (16 * g + ·)
  let first := (pins.find? s.fioOn).getD (16 * g)
  let outs := pins.filter s.isFieldOutput
  let s := s.forEach outs fun s n =>
    let s := if s.fioDisabled n then s else s.putFio n { s.fioPin n with overload := true }
    (s.putBit .FIO_OUT_STAT_SHORT (n % 16) true g).showFio n
  let s := ((s.putFlag .FIO_GRP_STAT_OVERLOAD true g).bump .FIO_CNT_SHORTS g).noteFio first 2 false
  s.classify (s.bit .SAF_IO_CRIT_REGIONS (12 + g)) 7 first (some (2 ^ 31 + mA)) (0x20 + 12 + g) false

/-! ## DIAG 10: lockstep compare (01 R28) -/

/-- The MGC's two cores disagree: it halts, and the device enters SAFE. -/
def State.lockstepMismatch (s : State) (injected : Bool) : State :=
  { s with power := { s.power with mgcHalted := true } }.danger 10 0 none 0x01 injected

/-! ## SAF_INJECT (R481) -/

/-- DIAG and INDEX name a diagnostic that can be injected, at a place that exists and, where R481 asks it, in a LOADED
region. -/
def State.injectable (s : State) (diag index : Nat) : Bool :=
  match diag with
  | 4 => decide (index < 128)
  | 5 => decide (index < 16) && s.loaded index
  | 6 => decide (index < 448) && s.loaded (regionOfGio index)
  | 7 => decide (index < 64) && s.loaded (regionOfFio index)
  | 10 => true
  | 11 => decide (index < 19)
  | _ => false

/-- The injected fault is detected. -/
def State.inject (s : State) (diag index : Nat) : State :=
  match diag with
  | 4 => s.passOverdue index true
  | 5 => s.pllLoss index false true
  | 6 =>
    let driven := s.gioLevel index == .high
    if s.gioChecked index then s.gioShort index driven (!driven) true else s
  | 7 => if s.isFieldOutput index then (s.fioTrip index (Config.pinCurrent s.freeCount).toNat true).spend else s
  | 10 => s.lockstepMismatch true
  | 11 => { s with calib := { s.calib with hot := SMap.put false s.calib.hot index true } }
  | _ => s

/-- A write to SAF_INJECT. -/
def State.writeSafInject (s : State) (o v : Nat) : Wrote :=
  let diag := bitsOf v 0 4
  let index := bitsOf v 4 9
  if !s.maintains o then .notOwner s
  else if v.testBit 31 && !s.injectable diag index then .rejected s
  else
    let s := (s.put .SAF_INJECT_DIAG diag).put .SAF_INJECT_INDEX index
    .took (if v.testBit 31 then s.inject diag index else s)

/-! ## SAF_REQ and the markings (R458, R462) -/

/-- Who may write SAF_REQ: the MGC and every requester of some host's or the SPI port's family. -/
def State.mayRequestSafe (s : State) (o : Nat) : Bool := o == 0x01 || isTop (s.top o)

/-- A write to SAF_REQ. -/
def State.writeSafReq (s : State) (o v : Nat) : Wrote :=
  if !s.mayRequestSafe o then .notOwner s
  else .took (if v.testBit 0 then s.danger 13 o none o false else s)

/-- A write to a marking register: `value` is the field, `fixed` its bit of SAF_STAT, and `allowed` says which bits may be
set. -/
def State.writeMarking (s : State) (value fixed : Fld) (allowed : Nat → Bool) (o v : Nat) : Wrote :=
  let m := bitsOf v 0 16
  if !s.isAdmin o then .notOwner s
  else if s.mode != .run then .rejected s
  else if s.flag fixed then .took s
  else if (regionsOf m).any fun i => !allowed i then .rejected s
  else .took ((s.put value m).putFlag fixed true)

def State.writeCfgCrit (s : State) (o v : Nat) : Wrote := s.writeMarking .SAF_CFG_CRIT_REGIONS .SAF_STAT_CFG_SET s.loaded o v

def State.writePllCrit (s : State) (o v : Nat) : Wrote := s.writeMarking .SAF_PLL_CRIT_PLLS .SAF_STAT_PLL_SET s.pllQualified o v

def State.writeIoCrit (s : State) (o v : Nat) : Wrote := s.writeMarking .SAF_IO_CRIT_REGIONS .SAF_STAT_IO_SET s.loaded o v

end Sys2Proof.Machine
end

