-- ==== Sys2Proof/Machine/RegOps.lean ====
section
/-! DEFINITION. What a write to each control register does: who may write it, which values it rejects, and its effect
(the register descriptions of spec/01 to spec/20). -/

namespace Sys2Proof.Machine

set_option Elab.async false

/-! ## Mailboxes (02 R62 to R65, Table 2-9) -/

/-- Mailbox m's registers and rings are its owner's and the MGC's. -/
def mayUseMail (m o : Nat) : Bool := o == mailOwner m || o == 0x01

/-- Clearing of mailbox m begins: pointers 0, entries 0, queued packets gone, and the reply of a packet in execution will
be discarded (Table 2-9). -/
def State.clearMail (s : State) (m : Nat) : State :=
  let s := { s with mail := { s.mail with
      request := s.mail.request.clearRange (4096 * m) 4096
      reply := s.mail.reply.clearRange (4096 * m) 4096
      clearing := SMap.put false s.mail.clearing m true } }
  let s := ((s.put .MBX_REQ_TAIL_TAIL 0 m).put .MBX_REQ_HEAD_HEAD 0 m).put .MBX_RSP_TAIL_TAIL 0 m
  let s := s.put .MBX_RSP_HEAD_HEAD 0 m
  match s.running m with
  | some p => s.setRunning m (some { p with discard := true })
  | none => s

/-- The doorbell. -/
def State.writeReqTail (s : State) (m o v : Nat) : Wrote :=
  let t := bitsOf v 0 16
  let occ := (t + 65536 - s.get .MBX_REQ_HEAD_HEAD m) % 65536
  if !mayUseMail m o then .notOwner s
  else if s.clearingMail m then .dark
  else if 256 < occ || occ < s.occupancy m then .rejected s
  else .took ((s.put .MBX_REQ_TAIL_TAIL t m).wake 1 m)

def State.writeRspHead (s : State) (m o v : Nat) : Wrote :=
  let h := s.get .MBX_RSP_HEAD_HEAD m
  let t := bitsOf v 0 16
  if !mayUseMail m o then .notOwner s
  else if s.clearingMail m then .dark
  else if (s.get .MBX_RSP_TAIL_TAIL m + 65536 - h) % 65536 < (t + 65536 - h) % 65536 then .rejected s
  else .took (s.put .MBX_RSP_HEAD_HEAD t m)

def State.writeMailCtl (s : State) (m o v : Nat) : Wrote :=
  if !mayUseMail m o then .notOwner s
  else if s.clearingMail m then .dark
  else
    let s := if m < 4 then s.putFlag .MBX_CTL_IRQ_EN (v.testBit 0) m else s
    .took (if v.testBit 1 then s.clearMail m else s)

/-- A write to a mailbox register that only reads. -/
def State.writeMailRo (s : State) (m o : Nat) : Wrote :=
  if !mayUseMail m o then .notOwner s else if s.clearingMail m then .dark else .took s

/-- A write to word `w` of mailbox m's request ring: entries between HEAD and TAIL are the MGC's (R64). -/
def State.writeRequest (s : State) (m w o v : Nat) : Wrote :=
  let e := (w / 16 + 65536 - s.get .MBX_REQ_HEAD_HEAD m) % 256
  if !mayUseMail m o then .notOwner s
  else if s.clearingMail m then .dark
  else if e < s.occupancy m then .notOwner s
  else .took { s with mail := { s.mail with
    request := SMap.put (0 : Word) s.mail.request (4096 * m + w) (BitVec.ofNat 32 v) } }

/-- A write to the reply ring (R64). -/
def State.writeReplyRing (s : State) (m o : Nat) : Wrote :=
  if !mayUseMail m o then .notOwner s else if s.clearingMail m then .dark else .rejected s

/-! ## Counts that a write sets (01 R46, 02 MBX_EP_ERR_INFO) -/

def State.writeDecerrCount (s : State) (o v : Nat) : Wrote :=
  if !s.maintains o then .notOwner s else .took (s.put .DEV_DECERR_INFO_COUNT (bitsOf v 16 16))

def State.writeEpErrCount (s : State) (k o v : Nat) : Wrote :=
  if !(o == 0x10 + k || s.isAdmin o) then .notOwner s else .took (s.put .MBX_EP_ERR_INFO_COUNT (bitsOf v 16 16) k)

/-! ## Configuration scrub injection (06 R196) -/

def State.writeScrubInject (s : State) (o v : Nat) : Wrote :=
  let f := bitsOf v 0 16
  let bad := decide (64000 ≤ f) || ((s.liveEntry f).map (·.2)).getD false || !s.scrubbed (f / 4000)
  if !s.maintains o then .notOwner s
  else if v.testBit 16 && bad then .rejected s
  else .took ((s.put .CFG_SCRUB_INJECT_FRAME f).putFlag .CFG_SCRUB_INJECT_ARM (v.testBit 16))

/-! ## The spine (07 R229 to R231) -/

def State.writeFair (s : State) (o v : Nat) : Wrote :=
  if !v.testBit 31 then .took s
  else if !s.maintains o then .notOwner s
  else .took ((s.put .SPN_FAIR_LINK_WAIT_MAX 0).put .SPN_FAIR_CREDIT_WAIT_MAX 0)

/-- A node input of Table 7-2. -/
def nodeInput (node input : Nat) (response : Bool) : Bool :=
  if node < 16 then input ≤ 4
  else if node < 20 then (if response then input ≤ 7 || input == 10 || input == 11 else input ≤ 11)
  else node == 20 && input ≤ (if response then 13 else 14)

def State.writeStallInject (s : State) (o v : Nat) : Wrote :=
  if !s.maintains o then .notOwner s
  else if v.testBit 16 && !nodeInput (bitsOf v 0 5) (bitsOf v 5 4) (v.testBit 9) then .rejected s
  else
    let s := (s.put .SPN_STALL_INJECT_NODE (bitsOf v 0 5)).put .SPN_STALL_INJECT_INPUT (bitsOf v 5 4)
    .took ((s.putFlag .SPN_STALL_INJECT_PLANE (v.testBit 9)).putFlag .SPN_STALL_INJECT_ARM (v.testBit 16))

def State.writePortTimer (s : State) (p o v : Nat) : Wrote :=
  let t := bitsOf v 0 14
  if !(o == s.parent (p / 4) || s.isAdmin o) then .notOwner s
  else if t < 10 || 10000 < t then .rejected s
  else .took (s.put .SPN_RP_CFG_TIMEOUT_US t p)

/-! ## The banks (09 R275, R281, R282) -/

/-- Inverts bits of the stored row of word `w`, and marks it as injected. -/
def State.flipRow (s : State) (n w : Nat) (mask : BitVec 72) : State :=
  let s := s.putRow n w (s.rowAt n w ^^^ mask)
  { s with banks := { s.banks with injected := SMap.put false s.banks.injected (s.rowKey n w) true } }

/-- Last row of Table 9-5: the word is poisoned, remapped, under slice test or in a bank being cleared. -/
def State.shieldedWord (s : State) (n w : Nat) : Bool :=
  s.poisoned n w || (s.spareOf n w).isSome || (s.sliceOver n w).isSome || (s.clears (groupOfBank n)).contains n ||
    s.flag .BNK_OWNER_CLEARING n || s.flag .BNK_STAT_PU_CLEAR n

def State.writeBankInject (s : State) (n o v : Nat) : Wrote :=
  let w := bitsOf v 0 16
  let a := bitsOf v 16 7
  let b := bitsOf v 23 7
  let double := v.testBit 30
  let owner := s.bankOwner n
  if !(s.maintains o || (o == s.top owner && s.top owner != 0)) then .notOwner s
  else if v.testBit 31 && (decide (71 < a) || (double && (decide (71 < b) || a == b)) || s.shieldedWord n w) then
    .rejected s
  else
    let s := ((s.put .BNK_INJECT_WORD w n).put .BNK_INJECT_BIT_A a n).put .BNK_INJECT_BIT_B b n
    let s := s.putFlag .BNK_INJECT_DOUBLE double n
    let mask : BitVec 72 := BitVec.ofNat 72 (2 ^ a + (if double then 2 ^ b else 0))
    .took (if v.testBit 31 then s.flipRow n w mask else s)

/-- Bank x may be designated in quadrant q. -/
def State.mayPark (s : State) (q x : Nat) : Bool :=
  quadrantOfBank x == q && s.bankOwner x == 0 && s.groupOn (groupOfBank x)

def State.writePark (s : State) (q o v : Nat) : Wrote :=
  let a := bitsOf v 0 7
  let b := bitsOf v 8 7
  let ok := (!v.testBit 7 || s.mayPark q a) && (!v.testBit 15 || s.mayPark q b) &&
    !(v.testBit 7 && v.testBit 15 && groupOfBank a == groupOfBank b)
  if !s.maintains o then .notOwner s
  else if s.get .BNK_PARK_IN_USE q ≠ 0 || !ok then .rejected s
  else
    let s := (s.put .BNK_PARK_BANK_A a q).putFlag .BNK_PARK_VALID_A (v.testBit 7) q
    .took ((s.put .BNK_PARK_BANK_B b q).putFlag .BNK_PARK_VALID_B (v.testBit 15) q)

/-! ## Rings (10 R286, R302) -/

/-- A ring register without further conditions: HOPMAX, IRQ and those that only read. -/
def State.writeRingPlain (s : State) (f : Fld) (r o v : Nat) : Wrote :=
  if !s.writesRing r o then .notOwner s else .took (s.put f (bitsOf v f.lo f.width) r)

def State.writeRingRo (s : State) (r o : Nat) : Wrote := if !s.writesRing r o then .notOwner s else .took s

/-! ## Power (13 R403, R404) -/

def State.writeVeto (s : State) (i o v : Nat) : Wrote :=
  if o ≠ 0x10 + i then .notOwner s
  else .took ((s.putFlag .PWR_VETO_DOZE (v.testBit 0) i).putFlag .PWR_VETO_SHUTDOWN (v.testBit 1) i)

def State.writeWakeEn (s : State) (o v : Nat) : Wrote :=
  if !s.maintains o then .notOwner s
  else
    let s := (s.put .PWR_WAKE_EN_LINK (bitsOf v 0 4)).put .PWR_WAKE_EN_FIO (bitsOf v 4 4)
    .took (s.putFlag .PWR_WAKE_EN_ALARM (v.testBit 8))

/-! ## PLLs and the timebase (14 R424, R428) -/

def State.writePllRef (s : State) (k o v : Nat) : Wrote :=
  if !s.controlsRegion k o then .notOwner s
  else .took ((s.put .PLL_REF_REFSEL (bitsOf v 0 4) k).put .PLL_REF_FREQ_KHZ (bitsOf v 4 19) k)

/-- Output `i % 5` of PLL `i / 5`. -/
def State.writePllOut (s : State) (i o v : Nat) : Wrote :=
  if !s.controlsRegion (i / 5) o then .notOwner s
  else .took ((s.put .PLL_OUT_DIV (bitsOf v 0 10) i).putFlag .PLL_OUT_EN (v.testBit 16) i)

/-- Entry `i % 32` of PLL `i / 32`'s band table. -/
def State.writePllBand (s : State) (i o v : Nat) : Wrote :=
  if !s.controlsRegion (i / 32) o then .notOwner s
  else
    let s := (s.put .PLL_BAND_FMIN_MHZ (bitsOf v 0 13) i).put .PLL_BAND_FMAX_MHZ (bitsOf v 13 13) i
    .took (s.put .PLL_BAND_CODE (bitsOf v 26 6) i)

def State.writeTmbCtl (s : State) (o v : Nat) : Wrote :=
  if !v.testBit 0 then .took s
  else if !s.maintains o then .notOwner s
  else .took (s.put .TMB_UNCERT_UNCERT_NS 0)

/-- TMB_ALARM_TIME[a] and TMB_ALARM_PER[a]: staged. -/
def State.writeAlarmStage (s : State) (f : Fld) (a o v : Nat) : Wrote :=
  if o ≠ 0x10 + a then .notOwner s else .took (s.put f v a)

/-! ## Self-test (18 BST_STAT) -/

def State.writeTestStat (s : State) (o v : Nat) : Wrote :=
  if !s.maintains o then .notOwner s
  else .took (if v.testBit 9 then s.putFlag .BST_STAT_FAIL false else s)

/-! ## Pins (20 R524, R527, R534) -/

/-- A writer of the pins of region k: its parent's family, or ADMIN while the parent is absent. -/
def State.writesPins (s : State) (k o : Nat) : Bool :=
  let p := s.parent k
  (s.top o == p && p != 0) || (s.isAdmin o && s.absent p)

/-- Pins of bank b re-enabled. -/
def State.writeGioRearm (s : State) (b o v : Nat) : Wrote :=
  if !s.writesPins b o then .notOwner s
  else .took ((s.put .GIO_SHORT_DISABLED (s.get .GIO_SHORT_DISABLED b &&& (0xFFFF_FFFF - bitsOf v 0 32)) b).showPins b)

/-- Outputs of group g re-enabled; OVERLOAD falls with the last output it disabled. -/
def State.rearmField (s : State) (g mask : Nat) : State :=
  let pins := (List.range 16).filter mask.testBit
  let s := s.forEach pins fun s n =>
    (s.putBit .FIO_OUT_STAT_SHORT n false g).putFio (16 * g + n) { s.fioPin (16 * g + n) with overload := false }
  let s := if (List.range 16).any fun n => (s.fioPin (16 * g + n)).overload then s else s.putFlag .FIO_GRP_STAT_OVERLOAD false g
  s.showPins (12 + g)

def State.writeFioRearm (s : State) (g o v : Nat) : Wrote :=
  if !s.writesPins (12 + g) o then .notOwner s else .took (s.rearmField g (bitsOf v 0 16))

def State.writeFioWake (s : State) (g o v : Nat) : Wrote :=
  if !s.writesPins (12 + g) o then .notOwner s
  else .took ((s.put .FIO_WAKE_RISE (bitsOf v 0 16) g).put .FIO_WAKE_FALL (bitsOf v 16 16) g)

/-! ## Lanes and quads that only read (15 R430) -/

def State.writeLaneRo (s : State) (l o : Nat) : Wrote := if !s.writesLane l o then .notOwner s else .took s

def State.writeQuadRo (s : State) (q o : Nat) : Wrote := if !s.writesQuad q o then .notOwner s else .took s

/-! ## Every register (00 R12, R16) -/

/-- The 64-bit value that a write of one half, or of both, leaves in a field that spans the register. -/
def State.merged (s : State) (f : Fld) (i : Nat) (high wide : Bool) (v : Nat) : Nat :=
  let old := s.get f i
  if wide then v % 2 ^ 64
  else if high then old % 2 ^ 32 + v % 2 ^ 32 * 2 ^ 32
  else old / 2 ^ 32 * 2 ^ 32 + v % 2 ^ 32

/-- A write of owner `o` to instance `i` of a register: of its high half, its low half or, where `wide`, both. A register
without a writable field ignores it (R16). -/
def State.writeReg (s : State) (r : Reg) (i : Nat) (high wide : Bool) (o v : Nat) : Wrote :=
  match r with
  | .DEV_DECERR_INFO => s.writeDecerrCount o v
  | .MBX_REQ_TAIL => s.writeReqTail i o v
  | .MBX_RSP_HEAD => s.writeRspHead i o v
  | .MBX_CTL => s.writeMailCtl i o v
  | .MBX_REQ_HEAD | .MBX_RSP_TAIL | .MBX_STAT => s.writeMailRo i o
  | .MBX_EP_ERR_INFO => s.writeEpErrCount i o v
  | .CFG_SCRUB_INJECT => s.writeScrubInject o v
  | .SPN_FAIR => s.writeFair o v
  | .SPN_STALL_INJECT => s.writeStallInject o v
  | .SPN_RP_CFG => s.writePortTimer i o v
  | .BNK_OWNER => s.writeHandover (.bank i) o v
  | .ATT_REGION_PARENT => s.writeHandover (.region i) o v
  | .ATT_GROUP_PARENT => s.writeHandover (.group i) o v
  | .BNK_INJECT => s.writeBankInject i o v
  | .BNK_PARK => s.writePark i o v
  | .DMA_TIMEOUT => s.writeDmaTimeout o v
  | .DMA_GROUP_CFG => s.writeGroupCfg i o v
  | .DMA_RING_TAIL => s.writeRingTail i o v
  | .DMA_RING_CTL => s.writeRingCtl i o v
  | .DMA_RING_BASE => s.writeRingBase .DMA_RING_BASE_BASE i o (s.merged .DMA_RING_BASE_BASE i high wide v)
  | .DMA_RING_CQ => s.writeRingBase .DMA_RING_CQ_CQ i o (s.merged .DMA_RING_CQ_CQ i high wide v)
  | .DMA_RING_HOPMAX => s.writeRingPlain .DMA_RING_HOPMAX_HOPMAX i o v
  | .DMA_RING_IRQ => s.writeRingPlain .DMA_RING_IRQ_HOLDOFF_US i o v
  | .DMA_RING_HEAD | .DMA_RING_STAT | .DMA_RING_ERR | .DMA_RING_DONE | .DMA_RING_ERR_IDX => s.writeRingRo i o
  | .ATT_ENT_MAP => s.writeAttMap i o v wide
  | .ATT_ENT_KEY => s.writeAttKey i o v
  | .ATT_QUOTA => s.writeQuota i o v
  | .PWR_VETO => s.writeVeto i o v
  | .PWR_WAKE_EN => s.writeWakeEn o v
  | .PLL_REF => s.writePllRef i o v
  | .PLL_CFG => s.writePllCfg i o v
  | .PLL_OUT => s.writePllOut i o v
  | .PLL_BAND => s.writePllBand i o v
  | .TMB_CTL => s.writeTmbCtl o v
  | .TMB_ALARM_TIME => s.writeAlarmStage .TMB_ALARM_TIME_TIME i o (s.merged .TMB_ALARM_TIME_TIME i high wide v)
  | .TMB_ALARM_PER => s.writeAlarmStage .TMB_ALARM_PER_PERIOD_NS i o v
  | .TMB_ALARM_CTL => s.writeAlarm i o v
  | .XCV_LCPLL => s.writeLcPll (i / 2) (i % 2) o v
  | .XCV_RCLK => s.writeRclk i o v
  | .XCV_QUAD_STAT => s.writeQuadRo i o
  | .XCV_LANE_CFG => s.writeLaneCfg i o v
  | .XCV_EYE_CTL => s.writeEye i o v
  | .XCV_LANE_STAT | .XCV_LANE_ERR | .XCV_LANE_FEC | .XCV_EYE_RES => s.writeLaneRo i o
  | .CAL_INJECT => s.writeCalInject o v
  | .SAF_CFG_CRIT => s.writeCfgCrit o v
  | .SAF_PLL_CRIT => s.writePllCrit o v
  | .SAF_IO_CRIT => s.writeIoCrit o v
  | .SAF_REQ => s.writeSafReq o v
  | .SAF_INJECT => s.writeSafInject o v
  | .BST_STAT => s.writeTestStat o v
  | .GIO_REARM => s.writeGioRearm i o v
  | .FIO_REARM => s.writeFioRearm i o v
  | .FIO_WAKE => s.writeFioWake i o v
  | _ => .took s

/-- Registers whose right to write depends on the value written: the compare-and-set ones. -/
def Reg.compareAndSet : Reg → Bool
  | .BNK_OWNER | .ATT_REGION_PARENT | .ATT_GROUP_PARENT | .ATT_ENT_KEY => true
  | _ => false

/-- Registers that act as in RUN while the device is in SAFE (17 R467). -/
def Reg.writableInSafe : Reg → Bool
  | .DEV_DECERR_INFO | .MBX_REQ_TAIL | .MBX_REQ_HEAD | .MBX_RSP_TAIL | .MBX_RSP_HEAD | .MBX_CTL | .MBX_STAT
  | .MBX_EP_ERR_ADDR | .MBX_EP_ERR_INFO | .MBX_EP_STAT | .MBX_EP_RESETS | .SPN_FAIR | .DMA_RING_TAIL | .TMB_CTL
  | .TMB_ALARM_TIME | .TMB_ALARM_PER | .TMB_ALARM_CTL | .SAF_REQ | .BST_STAT => true
  | _ => false

end Sys2Proof.Machine
end

