-- ==== Sys2Proof/Machine/RegAccess.lean ====
section
/-! DEFINITION. Accesses to the control register space: decode of an offset, rights, widths, the latching reads, SAFE, and
the answer (00 R12 to R16; 01 R36, R39, R44 to R46; 02 R55, R62; 17 R467, R473). -/

namespace Sys2Proof.Machine

set_option Elab.async false

/-! ## Decode (01 R36) -/

/-- What a 4-byte-aligned offset selects: the low or the high word of a register's instance, a word of an event log slot,
or a word of a mailbox ring. -/
inductive Located
  | reg (r : Reg) (i : Nat) (high : Bool)
  | log (slot word : Nat)
  | request (m w : Nat)
  | reply (m w : Nat)
  deriving DecidableEq, Repr

/-- The instance of a register at an offset, and whether its high word is there. -/
def Reg.instanceAt (r : Reg) (off : Nat) : Option (Nat × Bool) :=
  let p := r.place
  let d := off - p.base
  let i := if p.stride = 0 then 0 else d / p.stride
  let d := if p.stride = 0 then d else d % p.stride
  let j := if p.stride2 = 0 then 0 else d / p.stride2
  let d := if p.stride2 = 0 then d else d % p.stride2
  if off < p.base || p.count ≤ i || p.count2 ≤ j then none
  else if d = 0 then some (i * p.count2 + j, false)
  else if d = 4 && p.wide then some (i * p.count2 + j, true)
  else none

/-- A word of mailbox m's data at byte `d` of its extent (02 R62). -/
def locateMail (m d : Nat) : Option Located :=
  if d < 0x4000 then some (.request m (d / 4))
  else if 0x8000 ≤ d ∧ d < 0xC000 then some (.reply m (d % 0x4000 / 4))
  else none

/-- What an offset of the control register space selects; `none` is undefined. -/
def locate (off : Nat) : Option Located :=
  let off := off / 4 * 4
  if 0x2_0000 ≤ off ∧ off < 0x7_0000 then locateMail (off / 0x1_0000 - 2) (off % 0x1_0000)
  else if 0x92_0000 ≤ off ∧ off < 0x94_0000 then some (.log (off % 0x2_0000 / 32) (off % 32 / 4))
  else Reg.all.findSome? fun r => (r.instanceAt off).map fun p => .reg r p.1 p.2

/-- A 64-bit access may be made at this place: the low word of a 64-bit register, or of a word pair of a log slot (R12). -/
def Located.pair : Located → Bool
  | .reg r _ high => r.place.wide && !high
  | .log _ w => w % 2 == 0
  | _ => false

/-! ## Rights to read (02 R62, 20 R534) -/

/-- The mailbox that a place belongs to. -/
def Located.mailbox : Located → Option Nat
  | .request m _ | .reply m _ => some m
  | .reg .MBX_REQ_TAIL m _ | .reg .MBX_REQ_HEAD m _ | .reg .MBX_RSP_TAIL m _ | .reg .MBX_RSP_HEAD m _
  | .reg .MBX_CTL m _ | .reg .MBX_STAT m _ => some m
  | _ => none

def State.readsPins (s : State) (k o : Nat) : Bool :=
  o == 0x01 || s.isAdmin o || (s.top o == s.parent k && s.parent k != 0)

def State.mayRead (s : State) (p : Located) (o : Nat) : Bool :=
  match p with
  | .reg .GIO_PAD b _ => s.readsPins b o
  | .reg .FIO_IN g _ => s.readsPins (12 + g) o
  | _ => match p.mailbox with
    | some m => mayUseMail m o
    | none => true

/-- The place is dark while its mailbox is being cleared (02 Table 2-9). -/
def State.darkPlace (s : State) (p : Located) : Bool :=
  match p.mailbox with
  | some m => s.clearingMail m
  | none => false

/-! ## Reads with their latches -/

/-- Latches belong to a requester port (one reading of "requester", log entry 1). -/
def latchKey (port off : Nat) : Nat := 2 ^ 24 * port + off

def State.latched (s : State) (port off : Nat) : Option Nat := SMap.look none s.latch (latchKey port off)

def State.setLatch (s : State) (port off : Nat) (v : Option Nat) : State :=
  { s with latch := SMap.put none s.latch (latchKey port off) v }

/-- The value of a register as owner `o` reads it live. -/
def State.liveFor (s : State) (r : Reg) (i o : Nat) : Nat :=
  match r with
  | .DEV_REQ_ID => o
  | .TMB_ALARM_TIME =>
    if s.flag .TMB_ALARM_CTL_ARM i then SMap.look 0 s.clocks.alarmTime i else s.shown .TMB_ALARM_TIME i
  | _ => s.shown r i

/-- The register whose fields are latched along with this address pair (01 R45, 02 R55, 10 R306). -/
def Reg.details : Reg → Option Reg
  | .DEV_DECERR_ADDR => some .DEV_DECERR_INFO
  | .MBX_EP_ERR_ADDR => some .MBX_EP_ERR_INFO
  | .ATT_FAULT_ADDR => some .ATT_FAULT_INFO
  | _ => none

/-- The address pair of a details register. -/
def Reg.detailsOf : Reg → Option Reg
  | .DEV_DECERR_INFO => some .DEV_DECERR_ADDR
  | .MBX_EP_ERR_INFO => some .MBX_EP_ERR_ADDR
  | .ATT_FAULT_INFO => some .ATT_FAULT_ADDR
  | _ => none

/-- The latched fields of a details register: those below COUNT, which stays live; ATT_FAULT_INFO has no COUNT and ends at
bit 16. -/
def detailBits : Reg → Nat
  | .ATT_FAULT_INFO => 17
  | _ => 16

/-- A read of an address pair latches its high word and the details without their count. -/
def State.latchDetails (s : State) (port : Nat) (r : Reg) (i v : Nat) : State :=
  match r.details with
  | none => s
  | some d => (s.setLatch port (r.addr i + 4) (some (v / 2 ^ 32))).setLatch port (d.addr i)
      (some (s.shown d i % 2 ^ detailBits d))

/-- A read of a register by owner `o` through `port`: its low or high word, or both. -/
def State.readReg (s : State) (port o : Nat) (r : Reg) (i : Nat) (high wide : Bool) : State × Nat :=
  let v := s.liveFor r i o
  let off := r.addr i
  if wide then (s.latchDetails port r i v, v)
  else if high then
    match s.latched port (off + 4) with
    | some h => (s.setLatch port (off + 4) none, h)
    | none => (s, v / 2 ^ 32)
  else if r.place.wide then
    ((s.setLatch port (off + 4) (some (v / 2 ^ 32))).latchDetails port r i v, v % 2 ^ 32)
  else match r.detailsOf, s.latched port off with
    | some a, some d =>
      ((s.setLatch port off none).setLatch port (a.addr i + 4) none, v / 2 ^ detailBits r * 2 ^ detailBits r + d)
    | _, _ => (s, v)

/-- The entry a slot holds; a slot that holds none reads 0. -/
def State.logEntry (s : State) (slot : Nat) : LogEntry :=
  (SMap.look none s.safety.slots slot).getD
    { time := 0, epoch := 0, code := 0, flags := 0, owner := 0, arg0 := 0, arg1 := 0 }

/-- Word `w` of an entry. -/
def LogEntry.word (e : LogEntry) (w : Nat) : Nat := ofLe ((e.bytes.drop (4 * w)).take 4)

/-- The entry that the reader through `port` has latched of a slot (R473). -/
def State.latchedEntry (s : State) (port slot : Nat) : Option LogEntry :=
  match SMap.look none s.safety.latch port with
  | some (t, e) => if t = slot then some e else none
  | none => none

/-- A read of word `w` of a log slot. Of the INDEX pair it latches the slot, of a latched slot it is the latched entry's
(R473); of another slot's pair the low word latches the high one, which the next read of it returns (00 R12). -/
def State.readLog (s : State) (port slot w : Nat) (wide : Bool) : State × Nat :=
  let s := if w = 0 then { s with safety := { s.safety with
      latch := SMap.put none s.safety.latch port (some (slot, s.logEntry slot)) } } else s
  let key := 0x92_0000 + 32 * slot + 4 * (w + 1 - w % 2)
  match s.latchedEntry port slot with
  | some e => (s, e.word w + (if wide then 2 ^ 32 * e.word (w + 1) else 0))
  | none =>
    let e := s.logEntry slot
    if wide then (s, e.word w + 2 ^ 32 * e.word (w + 1))
    else if w % 2 = 0 then (s.setLatch port key (some (e.word (w + 1))), e.word w)
    else match s.latched port key with
      | some h => (s.setLatch port key none, h)
      | none => (s, e.word w)

/-- A read of a place that passed its checks. -/
def State.readAt (s : State) (port o : Nat) (wide : Bool) : Located → State × Nat
  | .reg r i high => s.readReg port o r i high wide
  | .log slot w => s.readLog port slot w wide
  | .request m w => (s, (SMap.look 0 s.mail.request (4096 * m + w)).toNat)
  | .reply m w => (s, (SMap.look 0 s.mail.reply (4096 * m + w)).toNat)

/-- A write to a place. -/
def State.writeAt (s : State) (o : Nat) (wide : Bool) (v : Nat) : Located → Wrote
  | .reg r i high => s.writeReg r i high wide o v
  | .log _ _ => .took s
  | .request m w => s.writeRequest m w o v
  | .reply m _ => s.writeReplyRing m o

/-! ## Accesses (01 R39, 17 R467) -/

/-- The width of an access: 32 bits, 64 bits, or one that R13 does not have. -/
inductive Width | w32 | w64 | bad
  deriving DecidableEq, Repr

def Width.fits (w : Width) (p : Located) : Bool :=
  match w with
  | .w32 => true
  | .w64 => p.pair
  | .bad => false

/-- What an access asks for. -/
inductive Ask
  | read
  | flush
  | write (v : Nat)
  deriving DecidableEq, Repr

/-- SAFE rejects a write here. -/
def State.safeBars (s : State) (p : Located) : Bool :=
  s.mode == .safe && (match p with
    | .reg r _ _ => !r.writableInSafe && !r.compareAndSet
    | .log _ _ => true
    | _ => false)

/-- A write that decodes: ownership, DARK, width, SAFE and the register's own rejections, in the order of R39. A handover
in SAFE is rejected by R238 itself. The right to write a compare-and-set register depends on the value, which of a write of
the wrong width is that of the bytes it carries (DEDUCED, log entry 98). -/
def State.writeChecked (s : State) (o off : Nat) (w : Width) (v : Nat) (p : Located) : State × Resp :=
  let narrow := !w.fits p
  match s.writeAt o (w == .w64) v p with
  | .notOwner t => (if narrow then s else t, .notown)
  | .dark => s.finishWrite o off .dark
  | out =>
    if narrow then (s, .narrow)
    else if s.safeBars p then s.finishWrite o off (.rejected s)
    else s.finishWrite o off out

/-- An access of owner `o` through `port` at an offset that selects `p`: the state after it, the response, and what a
read returns. -/
def State.controlAt (s : State) (port o off : Nat) (p : Option Located) (w : Width) (ask : Ask) : State × Resp × Nat :=
  match p with
  | none => (s.captureDecerr o (0x3_0000_0000 + off) (match ask with | .write _ => true | _ => false) false, .decerr, 0)
  | some p =>
    match ask with
    | .write v => let r := s.writeChecked o off w v p; (r.1, r.2, 0)
    | _ =>
      if !s.mayRead p o then (s, .notown, 0)
      else if s.darkPlace p then (s.countDark, .dark, 0)
      else if ask == .flush then (s, .ok, 0)
      else if !w.fits p then (s, .narrow, 0)
      else let r := s.readAt port o (w == .w64) p; (r.1, .ok, r.2)

/-- An access of owner `o` through `port` at an offset of the control register space. -/
def State.control (s : State) (port o off : Nat) (w : Width) (ask : Ask) : State × Resp × Nat :=
  s.controlAt port o off (locate off) w ask

/-- The mailbox whose clearing an access to `p` with response `r` has begun: CLEAR of MBX_CTL (02 R75). -/
def clearAsked (p : Option Located) (ask : Ask) (r : Resp) : Option Nat :=
  match p, ask with
  | some (.reg .MBX_CTL m _), .write v => if v.testBit 1 && r == .ok then some m else none
  | _, _ => none

/-! ## Accesses as spine transactions (07 R201 to R203) -/

/-- Width and byte position of the bytes a beat enables, as an access to control registers. -/
def beatShape (be : BitVec 32) : Width × Nat :=
  match (List.range 8).find? fun j => be.toNat == 0xF * 2 ^ (4 * j) with
  | some j => (.w32, 4 * j)
  | none => match (List.range 4).find? fun j => be.toNat == 0xFF * 2 ^ (8 * j) with
    | some j => (.w64, 8 * j)
    | none => (.bad, ((List.range 32).find? be.getLsbD).getD 0)

/-- The only beat of a control-space transaction. -/
def Txn.one (t : Txn) : BeatIn := t.beats.headD { be := 0, data := 0 }

/-- The access width of a control-space transaction and the place of its bytes in the beat. -/
def Txn.width (t : Txn) : Width := if t.beats.length = 1 then (beatShape t.one.be).1 else .bad
def Txn.byteAt (t : Txn) : Nat := (beatShape t.one.be).2

/-- The register access a control-space transaction asks for. -/
def Txn.ask (t : Txn) : Ask :=
  match t.kind with
  | .write => .write (bitsOf t.one.data.toNat (8 * t.byteAt) 64 % (if t.width = .w64 then 2 ^ 64 else 2 ^ 32))
  | .read => .read
  | _ => .flush

/-- A transaction at the control register space: the state after it and its response. -/
def State.controlTxn (s : State) (t : Txn) : State × List BeatOut :=
  let (s, r, v) := s.control t.src t.owner (t.addr % 0x100_0000 + t.byteAt) t.width t.ask
  (s, if r ≠ .ok then t.reject r
    else match t.kind with
      | .read => t.okRead [BitVec.ofNat 256 (v * 2 ^ (8 * t.byteAt))]
      | _ => t.okWrite)

/-! ## Accesses that commands make directly -/

/-- JTAG_REG issues accesses in PROVISIONED and RETURNED alone (19 Table 19-6a). -/
def State.jtagIssues (s : State) : Bool := s.lc == lcProvisioned || s.lc == lcReturned

/-- An access of requester `who`; a write of the JTAG port is rejected in RETURNED (19 R511). -/
def State.controlBy (s : State) (who : Requester) (off : Nat) (p : Option Located) (w : Width) (ask : Ask) :
    State × Resp × Nat :=
  match who, ask with
  | .jtag, .write _ =>
    if s.lc == lcReturned then (s.captureDecerr 0x15 (0x3_0000_0000 + off) true true, .decerr, 0)
    else s.controlAt who.port who.owner off p w ask
  | _, _ => s.controlAt who.port who.owner off p w ask

/-- An access by requester `who` at an offset that selects `p`; its response and what it read stand in `answer`. Nothing
answers in OFF. The acknowledgement of a CLEAR waits for the clearing (02 R75). -/
def State.accessAt (s : State) (who : Requester) (off : Nat) (p : Option Located) (w : Width) (ask : Ask) : State :=
  if s.mode == .off || (who == .jtag && !s.jtagIssues) then s
  else
    let r := s.controlBy who off p w ask
    match clearAsked p ask r.2.1 with
    | some m => { r.1 with answer := none, mail := { r.1.mail with clearAck := SMap.put 0 r.1.mail.clearAck m 1 } }
    | none =>
      let words := match ask with
        | .read => if r.2.1 = .ok then (if w = .w64 then twoWords r.2.2 else [BitVec.ofNat 32 r.2.2])
            else List.replicate (if w = .w64 then 2 else 1) (BitVec.allOnes 32)
        | _ => []
      { r.1 with answer := some { codes := [r.2.1], words } }

/-- An access by requester `who` at an offset. -/
def State.access (s : State) (who : Requester) (off : Nat) (w : Width) (ask : Ask) : State :=
  s.accessAt who off (locate off) w ask

/-- A 32-bit write of requester `who` to instance `i` of a register, at the register's address. -/
def State.writeAs (s : State) (who : Requester) (r : Reg) (i : Nat) (v : Word) : State :=
  s.accessAt who (r.addr i) (some (.reg r i false)) .w32 (.write v.toNat)

end Sys2Proof.Machine
end

