-- ==== Sys2Proof/Machine/OwnCmds.lean ====
section
/-! DEFINITION. The commands of spec/08: handovers by register and by command, the clear that a handover asks for, and the
ownership record. -/

namespace Sys2Proof.Machine

set_option Elab.async false

/-- EXPECT, NEW and the flag of an owner register. -/
def handoverWord (expect new : BitVec 8) (flag : Bool) : Word :=
  BitVec.ofNat 32 (2 ^ 8 * expect.toNat + 2 ^ 16 * new.toNat + 2 ^ 24 * flag.toNat)

/-- A compare-and-set write to BNK_OWNER[n] (R238 to R241). -/
def execBnkOwnerHandover (who : Requester) (n : Fin 128) (expect new : BitVec 8) (clr : Bool) (s : State) : Out :=
  .next (s.writeAs who .BNK_OWNER n (handoverWord expect new clr))

/-- A compare-and-set write to ATT_REGION_PARENT[k] (R242). -/
def execAttRegionParentHandover (who : Requester) (k : Fin 16) (expect new : BitVec 8) (wipe : Bool) (s : State) : Out :=
  .next (s.writeAs who .ATT_REGION_PARENT k (handoverWord expect new wipe))

/-- A compare-and-set write to ATT_GROUP_PARENT[g] (R242, R243). -/
def execAttGroupParentHandover (who : Requester) (g : Fin 64) (expect new : BitVec 8) (clr : Bool) (s : State) : Out :=
  .next (s.writeAs who .ATT_GROUP_PARENT g (handoverWord expect new clr))

/-- The clear engines run: in BOOT, RUN and DOZE (R246: SAFE and HOLDUP stop them). -/
def State.enginesRun (s : State) : Bool := s.mode == .boot || s.mode == .run || s.mode == .doze

/-- The clear of bank n that a handover asked for, once it is first in its group's queue: every transaction of the old owner
has completed (R241). -/
def execClearOnHandover (n : Fin 128) (s : State) : Out :=
  let g := groupOfBank n
  if s.enginesRun && s.groupOn g && s.flag .BNK_OWNER_CLEARING n && (s.clears g).head? == some n.val then
    .next ((s.startClear g).endClear g)
  else .next s

/-- OWN_READ (R248). -/
def execOwnRead (m : Fin 5) (s : State) : Out := .next <| s.command m 0x70 fun _ => s.reply m St.ok s.ownershipNow

/-- KIND and INDEX of OWN_HANDOVER as a resource. -/
def resourceOf (kind index : Nat) : Option Resource :=
  if kind = 0 then some (.bank index)
  else if kind = 1 && decide (index < 16) then some (.region index)
  else if kind = 2 && decide (index < 64) then some (.group index)
  else none

/-- What the reply of OWN_HANDOVER waits for. -/
def Resource.wait : Resource → Wait
  | .bank n => .bankClear n
  | .region k => .regionWipe k
  | .group g => .groupClear g

/-- OWN_HANDOVER (R249): the reply is written after any clear or wipe. -/
def execOwnHandover (m : Fin 5) (s : State) : Out :=
  .next <| s.command m 0x71 fun p =>
    let p0 := p.p 0
    let p1 := p.p 1
    match resourceOf (bitsOf p0 0 2) (bitsOf p0 8 7) with
    | none => s.reply m St.badParam
    | some r =>
      if bitsOf p0 2 6 ≠ 0 || p0 / 2 ^ 15 ≠ 0 || p1 / 2 ^ 17 ≠ 0 || p.target ≠ 0 then s.reply m St.badParam
      else match s.handOver r (mailOwner m) (bitsOf p1 0 8) (bitsOf p1 8 8) (p1.testBit 16) with
        | .notAuthorised => (s.bump .ATT_HO_CNT_FAILED).reply m St.notOwner
        | .ineligible => (s.bump .ATT_HO_CNT_FAILED).reply m St.badParam
        | .busy => (s.bump .ATT_HO_CNT_FAILED).reply m St.busy
        | .done t =>
          if t.handoverBusy r then t.await m p r.wait else t.reply m St.ok [BitVec.ofNat 32 (t.holder r)]

/-- OWN_RECORD_GET (R248). -/
def execOwnRecordGet (m : Fin 5) (s : State) : Out :=
  .next <| s.command m 0x72 fun _ => s.reply m St.ok s.storedOwnership

/-- OWN_RECORD_SET (R250). -/
def execOwnRecordSet (m : Fin 5) (fails0 fails1 : Nat) (s : State) : Out :=
  .next <| s.command m 0x73 fun p =>
    if !ownershipValid p.params then s.reply m St.badParam
    else s.replyJournal m 2 (wordBytes p.params) fails0 fails1

end Sys2Proof.Machine
end

