-- ==== Sys2Proof/Machine/HostOps.lean ====
section
/-! DEFINITION. Endpoints: presence, host resets, the splitting of BAR TLPs and what their parts bring back; the SPI port
(spec/02). -/

namespace Sys2Proof.Machine

set_option Elab.async false

/-! ## Links and host resets (R57, R74, Table 2-9) -/

def State.endpoint (s : State) (k : Nat) : Endpoint := SMap.look {} s.hosts.endpoint k

def State.putEndpoint (s : State) (k : Nat) (e : Endpoint) : State :=
  { s with hosts := { s.hosts with endpoint := SMap.put {} s.hosts.endpoint k e } }

def State.linkUp (s : State) (k : Nat) : Bool := s.flag .MBX_EP_STAT_LINK_UP k

/-- PCIe link activity wakes where PWR_WAKE_EN allows it (13 R389). -/
def State.linkActivity (s : State) (k : Nat) : State := if s.bit .PWR_WAKE_EN_LINK k then s.wake 2 k else s

/-! ### Configuration space (R50, R52, R57)

Table 2-1 names what the configuration space says; where the words lie, and which bits a host can write, is PCIe Base 5.0
(PRESUMED, log entry 97). The capabilities lie at 0x40 (power management), 0x50 (MSI-X), 0x70 (PCI Express) and 0x100
(AER). -/

/-- Value after a reset of doubleword `w` of endpoint k's configuration space. -/
def State.configReset (s : State) (k w : Nat) : Nat :=
  let gen := s.get .MBX_EP_STAT_CFG_GEN k
  let width := 2 ^ s.get .MBX_EP_STAT_CFG_WIDTH k
  match w with
  | 0 => 0x5313_1F7E | 1 => 0x0010_0000 | 2 => 0x1200_0001
  -- 64-bit BARs; BAR2 alone is prefetchable.
  | 4 => 0x4 | 6 => 0xC | 8 => 0x4
  | 11 => 0x5313_1F7E | 13 => 0x40
  | 16 => 0x0003_5001
  | 20 => 0x07FF_7011 | 21 => 0x0180_0000 | 22 => 0x0180_8000
  -- 512 bytes of payload, FLR; ASPM L1 alone; 10-bit tags both ways.
  | 28 => 0x0002_0010 | 29 => 0x1000_8022 | 30 => 0x0000_2810 | 31 => gen + 2 ^ 4 * width + 2 ^ 11
  | 37 => 0x0003_0000
  | 64 => 0x0002_0001
  | _ => 0

/-- The bits of it that a host can write. The BARs' sizes are 32 MiB, 64 MiB and 4 GiB. -/
def configMask (w : Nat) : Nat :=
  match w with
  | 1 => 0x0146 | 3 => 0xFF
  | 4 => 0xFE00_0000 | 5 => 0xFFFF_FFFF | 6 => 0xFC00_0000 | 7 => 0xFFFF_FFFF | 9 => 0xFFFF_FFFF
  | 15 => 0xFF | 20 => 0xC000_0000 | 30 => 0x7FFF | 32 => 0x3 | 38 => 0x100F
  | 66 | 67 | 69 => 0xFFFF_FFFF
  | _ => 0

/-- A doubleword as a host reads it. -/
def State.configWord (s : State) (k w : Nat) : Word :=
  let v := SMap.look 0 (s.endpoint k).config w ^^^ BitVec.ofNat 32 (s.configReset k w)
  if w = 17 then (if (s.endpoint k).d3hot then 3 else 0)
  else if w = 32 then v + BitVec.ofNat 32 (2 ^ 16 * s.get .MBX_EP_STAT_GEN k + 2 ^ 20 * s.get .MBX_EP_STAT_WIDTH k)
  else v

/-- A doubleword set to `v`. -/
def State.putConfig (s : State) (k w : Nat) (v : Word) : State :=
  s.putEndpoint k { s.endpoint k with
    config := SMap.put 0 (s.endpoint k).config w (v ^^^ BitVec.ofNat 32 (s.configReset k w)) }

/-- The byte enables of a doubleword as a mask of its bits. -/
def laneMask (be : BitVec 4) : Nat :=
  (List.range 4).foldl (fun v i => if be.getLsbD i then v + 0xFF * 2 ^ (8 * i) else v) 0

/-- Maximum Payload Size and Maximum Read Request Size that the host has set, in beats of 32 bytes: 128 bytes at code 0,
at most 512 and 4,096. -/
def State.mpsBeats (s : State) (k : Nat) : Nat := 4 * 2 ^ min (bitsOf (s.configWord k 30).toNat 5 3) 2
def State.mrrsBeats (s : State) (k : Nat) : Nat := 4 * 2 ^ min (bitsOf (s.configWord k 30).toNat 12 3) 5

/-- Device-issued reads that may be outstanding (Table 2-1). -/
def State.readTags (s : State) (k : Nat) : Nat := if (s.configWord k 38).getLsbD 12 then 768 else 256

/-- The link leaves the up state. -/
def State.dropLink (s : State) (k : Nat) : State :=
  if s.linkUp k then
    let s := ((s.putFlag .MBX_EP_STAT_LINK_UP false k).put .MBX_EP_STAT_GEN 0 k).put .MBX_EP_STAT_WIDTH 0 k
    let e := s.endpoint k
    s.putEndpoint k { e with d3hot := false, aspmL1 := false }
  else s

/-- Requests to host k memory that are under way end with DARK (Table 2-9). -/
def State.darkHost (s : State) (k : Nat) : State :=
  ((s.spine.ingress ++ s.spine.taken).filter fun t => portOf t.addr == 64 + k && !t.lost).foldl State.answerDark s

/-- BAR transactions of endpoint k: those not issued are gone, the others' responses will be discarded (Table 7-10). -/
def State.discardBar (s : State) (k : Nat) : State :=
  let mine := fun t : Txn => t.src == 64 + k
  let sp := { s.spine with waiting := s.spine.waiting.filter fun t => !mine t }
  { s with spine := sp.mark mine, hosts := { s.hosts with tlps := s.hosts.tlps.filter (·.k != k) } }

/-- A host reset of endpoint k (R74, Table 2-9; 13 R403; 14 Table 14-7; 10 Table 10-10). -/
def State.hostReset (s : State) (k cause : Nat) : State :=
  let s := (s.bump .MBX_EP_RESETS_COUNT k).put .MBX_EP_RESETS_LAST cause k
  let s := s.clearMail k
  let s := { s with hosts := { s.hosts with
      msixTable := s.hosts.msixTable.clearRange (8192 * k) 8192, pba := s.hosts.pba.clearRange (2048 * k) 2048 } }
  let s := ((s.putFlag .PWR_VETO_DOZE false k).putFlag .PWR_VETO_SHUTDOWN false k).putEndpoint k
    { s.endpoint k with d3hot := false, config := [] }
  let s := (s.putFlag .TMB_ALARM_CTL_ARM false k).putFlag .TMB_ALARM_CTL_PENDING false k
  let s := s.forEach ((List.range 64).filter fun g => s.get .ATT_GROUP_PARENT_PARENT g == 0x10 + k) fun s g =>
    s.haltGroup g 4
  (s.discardBar k).darkHost k

/-! ## BAR accesses (R52, R53) -/

/-- Where a BAR access of endpoint k goes: the spine address of its offset, or a place in the endpoint's MSI-X words. -/
inductive BarPlace
  | spine (addr : Nat)
  | msix (word : Nat)
  | pba (word : Nat)
  | config (word : Nat)
  | reserved
  deriving DecidableEq, Repr

/-- Table 2-2, for an access of `n` doublewords at an offset. -/
def barPlace (k : Nat) (b : Bar) (off n : Nat) : BarPlace :=
  let e := off + 4 * n
  match b with
  | .bar0 =>
    if e ≤ 0x100_0000 then .spine (0x3_0000_0000 + off)
    else if 0x100_0000 ≤ off ∧ e ≤ 0x101_0000 then .spine (0x3_0000_0000 + 0x2_0000 + 0x1_0000 * k + off % 0x1_0000)
    else if 0x180_0000 ≤ off ∧ e ≤ 0x180_8000 then .msix (off % 0x8000 / 4)
    else if 0x180_8000 ≤ off ∧ e ≤ 0x180_8100 then .pba (off % 0x100 / 4)
    else .reserved
  | .bar2 => if e ≤ 0x400_0000 then .spine off else .reserved
  | .bar4 => if e ≤ 0x1_0000_0000 then .spine (0x2_0000_0000 + off) else .reserved
  | .config => if n = 1 ∧ off < 0x1000 then .config (off / 4) else .reserved

/-- A doubleword of a TLP: its byte enables and its data. -/
abbrev Dw := BitVec 4 × BitVec 32

/-- A part of a TLP: index of its first doubleword, and the beat of its transaction at a 32-byte-aligned address. -/
abbrev BarPart := Nat × Nat × BeatIn

/-- The beat that holds the doublewords `ds`, which begin at address `a` and lie in one beat. -/
def dwBeat (a : Nat) (ds : List Dw) : BeatIn :=
  let lane := a % 32 / 4
  { be := BitVec.ofNat 32 (ds.zipIdx.foldl (fun v d => v + d.1.1.toNat * 2 ^ (4 * (lane + d.2))) 0)
    data := BitVec.ofNat 256 (ds.zipIdx.foldl (fun v d => v + d.1.2.toNat * 2 ^ (32 * (lane + d.2))) 0) }

/-- Two doublewords of the control register space that go as one 64-bit access: all enabled, at a 64-bit register. -/
def controlPair (a : Nat) (x y : Dw) : Bool :=
  a % 8 == 0 && x.1 == 15 && y.1 == 15 && ((locate (a % 0x100_0000)).map Located.pair).getD false

/-- Register accesses of 32 or 64 bits; a doubleword without an enable asks for nothing. -/
def controlParts (a i : Nat) : List Dw → List BarPart
  | [] => []
  | [x] => if x.1 = 0 then [] else [(i, a / 32 * 32, dwBeat a [x])]
  | x :: y :: rest =>
    if controlPair a x y then (i, a / 32 * 32, dwBeat a [x, y]) :: controlParts (a + 8) (i + 2) rest
    else if x.1 = 0 then controlParts (a + 4) (i + 1) (y :: rest)
    else (i, a / 32 * 32, dwBeat a [x]) :: controlParts (a + 4) (i + 1) (y :: rest)

/-- One transaction per 32-byte beat with an enabled byte. -/
def beatParts (a i : Nat) (ds : List Dw) : Nat → List BarPart
  | 0 => []
  | fuel + 1 =>
    if ds.isEmpty then []
    else
      let n := 8 - a % 32 / 4
      let b := dwBeat a (ds.take n)
      let rest := beatParts (a + 4 * n) (i + n) (ds.drop n) fuel
      if b.be = 0 then rest else (i, a / 32 * 32, b) :: rest

def barParts (a : Nat) (ds : List Dw) : List BarPart :=
  if inControl a then controlParts a 0 ds else beatParts a 0 ds (ds.length + 1)

/-! ## What comes back (R55, Table 2-3) -/

/-- The lowest byte of a beat that is enabled, in whole words at a bank. -/
def Txn.start (t : Txn) : Nat :=
  let be := (t.beats.headD { be := 0, data := 0 }).be
  let b := ((List.range 32).find? be.getLsbD).getD 0
  t.addr + (if inBank t.addr then b / 8 * 8 else b)

/-- A response other than OK is captured. -/
def State.captureEndpoint (s : State) (k addr : Nat) (c : Resp) (write : Bool) : State :=
  if c = .ok then s
  else
    let s := (s.put .MBX_EP_ERR_ADDR_ADDR addr k).put .MBX_EP_ERR_INFO_RESP c.code k
    (s.putFlag .MBX_EP_ERR_INFO_WRITE write k).bump .MBX_EP_ERR_INFO_COUNT k

/-- The AER Unsupported Request of a posted write: bit 20 of the uncorrectable error status. -/
def State.reportAer (s : State) (k : Nat) : State :=
  let s := s.putConfig k 65 (s.configWord k 65 ||| BitVec.ofNat 32 (2 ^ 20))
  { s with hosts := { s.hosts with aer := SMap.put 0 s.hosts.aer k (SMap.look 0 s.hosts.aer k + 1) } }

def State.completeTo (s : State) (k : Nat) (a : Answer) : State :=
  { s with hosts := { s.hosts with completion := SMap.put { codes := [], words := [] } s.hosts.completion k a } }

/-- The completion of a TLP all of whose parts have been answered. -/
def State.finishTlp (s : State) (t : BarTlp) : State :=
  let codes := (t.codes.map (·.2)).filterMap id
  let s := { s with hosts := { s.hosts with tlps := s.hosts.tlps.filter (·.id != t.id) } }
  let lost := codes.contains .decerr
  if t.write then (if lost then s.reportAer t.k else s)
  else if lost then s.completeTo t.k { codes, words := [], unsupported := true }
  else s.completeTo t.k { codes, words := SMap.lookList 0 t.words 0 t.count, poisoned := codes.contains .poison }

/-- The response of a part: each doubleword of a word that is not OK reads all ones. -/
def BarTlp.take (t : BarTlp) (part : Nat) (x : Txn) (bs : List BeatOut) : BarTlp :=
  let b := bs.headD { code := .timeout, wok := 0, data := BitVec.allOnes 256 }
  let lane := (t.base + 4 * part) % 32 / 4
  let be := (x.beats.headD { be := 0, data := 0 }).be
  let words := (List.range (8 - lane)).foldl (fun m j =>
    let l := lane + j
    if bitsOf be.toNat (4 * l) 4 = 0 then m
    else
      let v : Word := if b.wok.getLsbD (l / 2) then (b.data >>> (32 * l)).setWidth 32 else BitVec.allOnes 32
      SMap.put 0 m (part + j) v) t.words
  { t with words := if t.write then t.words else words, codes := SMap.put none t.codes part (some (codeOf bs))
           left := t.left - 1 }

/-- Part `part` of BAR TLP `id` has its response. -/
def State.barResponse (s : State) (id part : Nat) (x : Txn) (bs : List BeatOut) : State :=
  match s.hosts.tlps.find? (·.id == id) with
  | none => s
  | some t =>
    let s := s.captureEndpoint t.k x.start (codeOf bs) t.write
    let t := t.take part x bs
    if t.left = 0 then s.finishTlp t
    else { s with hosts := { s.hosts with tlps := s.hosts.tlps.map fun u => if u.id = id then t else u } }

/-- A TLP's parts enter the endpoint's wait queue in ascending order; one without a part completes at once. -/
def State.startTlp (s : State) (k : Nat) (write : Bool) (base : Nat) (ds : List Dw) : State :=
  let parts := barParts base ds
  let id := s.hosts.nextTlp
  let t : BarTlp := { id, k, write, base, count := ds.length, left := parts.length }
  let s := { s with hosts := { s.hosts with nextTlp := id + 1, tlps := s.hosts.tlps ++ [t] } }
  if parts.isEmpty then s.finishTlp { t with count := 0 }
  else parts.foldl (fun s p => s.enqueue (64 + k) (0x10 + k) (if write then .write else .read) p.2.1 [p.2.2]
    (.bar id p.1)) s

/-- A write to word `w` of endpoint k's MSI-X table: an unmasked vector whose PBA bit is set sends its message. -/
def State.writeMsix (s : State) (k w : Nat) (v : Word) : State :=
  let s := s.putMsixWord k w v
  let n := w / 4
  if w % 4 = 3 && !v.getLsbD 0 && SMap.look false s.hosts.pba (2048 * k + n) then
    { s with hosts := { s.hosts with pba := SMap.put false s.hosts.pba (2048 * k + n) false } }.sendMsix k n
  else s

/-- Word `w` of endpoint k's PBA. -/
def State.pbaWord (s : State) (k w : Nat) : Word :=
  BitVec.ofNat 32 ((List.range 32).foldl (fun v b =>
    v + (SMap.look false s.hosts.pba (2048 * k + 32 * w + b)).toNat * 2 ^ b) 0)

/-- A configuration write: the power state of 0x44 enters or leaves D3hot, a 1 in the status words of AER clears its bit, a 1
in bit 15 of the device control register is a Function Level Reset (R74), and other words take the bits a host can write. -/
def State.writeConfig (s : State) (k w : Nat) (d : Dw) : State :=
  let lanes := laneMask d.1
  let old := s.configWord k w
  if w = 17 then
    if d.1.getLsbD 0 then s.putEndpoint k { s.endpoint k with d3hot := d.2.toNat % 4 == 3 } else s
  else if w = 65 ∨ w = 68 then s.putConfig k w (old &&& ~~~(d.2 &&& BitVec.ofNat 32 lanes))
  else
    let m := BitVec.ofNat 32 (Nat.land lanes (configMask w))
    let s := s.putConfig k w ((old &&& ~~~m) ||| (d.2 &&& m))
    if w = 30 && d.1.getLsbD 1 && d.2.getLsbD 15 then s.hostReset k 4 else s

/-- A configuration request is answered with Successful Completion (R57 step 5). -/
def State.configRequest (s : State) (k w : Nat) (write : Bool) (d : Dw) : State :=
  if write then (s.writeConfig k w d).completeTo k { codes := [.ok], words := [] }
  else s.completeTo k { codes := [.ok], words := [s.configWord k w] }

/-- A BAR access of endpoint k, or a configuration request. -/
def State.barTlp (s : State) (k : Nat) (b : Bar) (off : Nat) (write : Bool) (ds : List Dw) : State :=
  match barPlace k b off ds.length with
  | .spine a => s.startTlp k write a ds
  | .msix w =>
    if write then ds.zipIdx.foldl (fun s d => if d.1.1 = 15 then s.writeMsix k (w + d.2) d.1.2 else s) s
    else s.completeTo k { codes := [.ok], words := (List.range ds.length).map fun i => s.msixWord k (w + i) }
  | .pba w =>
    if write then s
    else s.completeTo k { codes := [.ok], words := (List.range ds.length).map fun i => s.pbaWord k (w + i) }
  | .config w => s.configRequest k w write (ds.headD (0, 0))
  | .reserved =>
    if write then s.reportAer k else s.completeTo k { codes := [], words := [], unsupported := true }

/-! ## The SPI port (R59 to R61) -/

def State.putSpi (s : State) (p : Spi) : State := { s with hosts := { s.hosts with spi := p } }

/-- A word of an SPI READ: a response byte, and four data bytes. -/
def State.spiReadWord (s : State) (off : Nat) : State × List Byte :=
  let (t, r, v) := s.control Requester.spi.port 0x14 off (if off % 4 = 0 then .w32 else .bad) .read
  (t, BitVec.ofNat 8 (0x50 + r.code) :: leBytes 4 (if r = .ok then v else 0xFFFF_FFFF))

/-- The words of an SPI READ from an offset. -/
def State.spiReadWords (s : State) (off : Nat) : Nat → State × List Byte
  | 0 => (s, [])
  | n + 1 =>
    let (s, bs) := s.spiReadWord off
    let (s, rest) := State.spiReadWords s (off + 4) n
    (s, bs ++ rest)

/-- The response of a word of an SPI WRITE is recorded (R60). -/
def State.noteSpi (s : State) (c : Resp) : State :=
  let p := s.hosts.spi
  s.putSpi { p with lastWrite := c.code, nonOk := if c = .ok then p.nonOk else min (p.nonOk + 1) 0xFFFF }

/-- A word of an SPI WRITE is issued; the acknowledgement of a CLEAR waits for the clearing (R75). -/
def State.spiWriteWord (s : State) (off : Nat) (v : Word) : State :=
  let (t, r, _) := s.control Requester.spi.port 0x14 off (if off % 4 = 0 then .w32 else .bad) (.write v.toNat)
  match clearAsked (locate off) (.write v.toNat) r with
  | some m => { t with mail := { t.mail with clearAck := SMap.put 0 t.mail.clearAck m 2 } }
  | none => t.noteSpi r

end Sys2Proof.Machine
end

