-- ==== Sys2Proof/Machine/TargetOps.lean ====
section
/-! DEFINITION. Transactions at their targets and on their way there and back: the checks of 01 R39, what a target does with
a request, credits, responses and timers (spec/07; 03 R105 to R110; 08 R234, R244). -/

namespace Sys2Proof.Machine

set_option Elab.async false

/-! ## Answers -/

/-- An answer of DECERR, captured (01 R44): the target or port says whether a value was at fault. -/
def State.answerDecerr (s : State) (t : Txn) (cause : Bool) : State :=
  (s.captureDecerr t.owner t.start t.isWrite cause).answerTxn t (t.reject .decerr)

/-- An answer that one of checks 1 to 4 gives. -/
def State.answerCode (s : State) (t : Txn) (c : Resp) : State :=
  match c with
  | .dark => s.answerDark t
  | .decerr => s.answerDecerr t false
  | c => s.answerTxn t (t.reject c)

/-! ## Checks 1 to 4 (01 R39, 08 Table 8-2) -/

/-- At bank n. -/
def State.bankCheck (s : State) (o n : Nat) : Resp :=
  if !s.mayUseBank o n then .notown else if s.bankDark n then .dark else .ok

/-- At offset `off` of the Slate window: it is read only, and a spare is no place of it (01 Table 1-6, 11 R314, R315). -/
def State.slateCheck (s : State) (o off : Nat) (write : Bool) : Resp :=
  let l := off / 0x4_0000
  if write || partitionOf l == .spares then .decerr
  else if !s.mayReadSlate o l then .notown
  else if s.mode == .doze then .dark
  else .ok

/-- At region k's window, port p. A disabled target side answers after the other checks (03 R105). -/
def State.regionCheck (s : State) (o k p : Nat) : Resp :=
  if s.parent k == 0 || s.top o != s.parent k then .notown
  else if s.mode == .safe || s.mode == .holdup then .fenced
  else if s.regionDark k then .dark
  else if s.fenced k then .fenced
  else if !(s.port p).tgtOn then .decerr
  else .ok

/-- At host k's memory (08 R244, 02 Table 2-9). -/
def State.hostCheck (s : State) (o k : Nat) : Resp :=
  if s.top o != 0x10 + k then .notown else if s.hostAbsent k then .dark else .ok

/-! ## What a target does with a request that passes -/

/-- Read beats at bank n from word `w`. -/
def State.bankReadBeats (s : State) (n w : Nat) : List BeatIn → State × List BeatOut
  | [] => (s, [])
  | b :: bs =>
    let (s, o) := s.bankReadBeat n w b.be
    let (s, os) := State.bankReadBeats s n (w + 4) bs
    (s, o :: os)

/-- Write beats at bank n from word `w`. -/
def State.bankWriteBeats (s : State) (n w : Nat) : List BeatIn → State × List BeatOut
  | [] => (s, [])
  | b :: bs =>
    let (s, o) := s.bankWriteBeat n w b
    let (s, os) := State.bankWriteBeats s n (w + 4) bs
    (s, o :: os)

/-- The one response beat of a write: the code of its lowest word that is not OK; a WOK bit is 1 where that word of every
beat was OK (07 R203). -/
def writeResponse (os : List BeatOut) : BeatOut :=
  { code := codeOf os, wok := os.foldl (fun v o => v &&& o.wok) 0xF, data := 0 }

/-- A request at offset `off` of bank n that passed checks 1 to 4. -/
def State.bankTxn (s : State) (t : Txn) (n off : Nat) : State :=
  if t.kind == .write then
    let (s, os) := s.bankWriteBeats n (off / 8) t.beats
    s.answerTxn t [writeResponse os]
  else
    let (s, os) := s.bankReadBeats n (off / 8) t.beats
    s.answerTxn t os

/-- A request at the control register space. A CLEAR is acknowledged when the clearing is over (02 R75). -/
def State.controlRequest (s : State) (t : Txn) : State :=
  let (u, bs) := s.controlTxn t
  match clearAsked (locate (t.addr % 0x100_0000 + t.byteAt)) t.ask (codeOf bs) with
  | some m => { u with mail := { u.mail with clearAck := SMap.put 0 u.mail.clearAck m (t.id + 3) } }.takeTxn t
  | none => if t.kind == .flush && codeOf bs == .ok then u.takeTxn t else u.answerTxn t bs

/-- A write to host memory as memory write TLPs of at most `n` beats each (02 Table 2-1). -/
def writeTlps (n : Nat) (ep : Bool) : Nat → Nat → List BeatIn → List (Nat × List BeatIn × Bool)
  | 0, _, _ => []
  | fuel + 1, a, bs =>
    if bs.isEmpty then [] else (a, bs.take n, ep) :: writeTlps n ep fuel (a + 32 * n) (bs.drop n)

/-- PCIe tags that a read or FLUSH at endpoint k takes: one for each Maximum Read Request Size of it. -/
def State.tagsOf (s : State) (k : Nat) (t : Txn) : Nat :=
  if t.kind == .read then (t.beats.length + s.mrrsBeats k - 1) / s.mrrsBeats k else 1

/-- Device-issued reads of endpoint k that are outstanding. -/
def State.readsOut (s : State) (k : Nat) : Nat :=
  ((s.spine.taken.filter fun t => portOf t.addr == 64 + k && !t.isWrite && !t.lost).map (s.tagsOf k)).sum

/-- A request at host k's memory: a write is acknowledged as it enters the link (07 R211); the others wait for the host. -/
def State.hostRequest (s : State) (t : Txn) (k a : Nat) : State :=
  if t.kind == .write then
    let tlps := writeTlps (s.mpsBeats k) t.ep 16 a t.beats
    { s with hosts := { s.hosts with sent := SMap.put [] s.hosts.sent k tlps } }.answerTxn t t.okWrite
  else s.takeTxn t

/-- A request that has passed enters the crossing FIFO on its way to the design, unless it is a FLUSH, which the port keeps
(07 R205). -/
def State.regionRequest (s : State) (t : Txn) (p : Nat) : State :=
  let s := s.takeTxn t
  if t.kind == .flush then s else s.putPort p { s.port p with req := (s.port p).req ++ [(t.id, t.beats.length)] }

/-- The queue of flash bank b holds its 64 requests (11 R316, Table 7-6). -/
def State.slateQueueFull (s : State) (b : Nat) : Bool := decide (64 ≤ (s.bankReads b).length)

/-- The target of `t` takes it from its ingress queue (01 R39, 07 R208). One that finds no room in the crossing FIFO of its
region port, or in the queue of its flash bank, stays there. A FLUSH that passes waits for the writes before it. -/
def State.admitTxn (s : State) (t : Txn) : State :=
  let taken := s.put .SPN_BEATS_BEATS (s.get .SPN_BEATS_BEATS + t.beats.length)
  match decodeAddr t.addr with
  | none => taken.answerDecerr t false
  | some (.control _) =>
    -- A register write of an endpoint that a host reset overtook is discarded, and so is its response (02 R75).
    if t.stale && t.isWrite && decide (64 ≤ t.src) && decide (t.src < 68) then taken.answerTxn t t.okWrite
    else taken.controlRequest t
  | some (.bank n off) =>
    match s.bankCheck t.owner n with
    | .ok => if t.kind == .flush then taken.takeTxn t else (taken.owe n false).bankTxn t n off
    | c => taken.answerCode t c
  | some (.slate off) =>
    match s.slateCheck t.owner off t.isWrite with
    | .ok =>
      if t.kind != .flush && s.slateQueueFull (s.flashBank (off / 0x4_0000)) then s else taken.takeTxn t
    | c => taken.answerCode t c
  | some (.region k off) =>
    let p := 4 * k + off / 0x400_0000
    match s.regionCheck t.owner k p with
    | .ok => if (s.port p).reqRoom = 0 && t.kind != .flush then s else taken.regionRequest t p
    | c => taken.answerCode t c
  | some (.host k a) =>
    match s.hostCheck t.owner k with
    | .ok =>
      if !t.isWrite && decide (s.readTags k < s.readsOut k + s.tagsOf k t) then s else taken.hostRequest t k a
    | c => taken.answerCode t c

/-! ## Credits (07 R208, R213 to R215) -/

/-- Counts of credit grants that passed the ports still waiting for target `t` (SPN_FAIR). -/
def State.notePassed (s : State) (t : Nat) (others : List Nat) : State :=
  let old := fun p => SMap.look 0 s.spine.passedOver (128 * t + p)
  let base := s.spine.passedOver.clearRange (128 * t) 128
  let m := others.foldl (fun m p => SMap.put 0 m (128 * t + p) (old p + 1)) base
  let worst := others.foldl (fun w p => max w (old p + 1)) (s.get .SPN_FAIR_CREDIT_WAIT_MAX)
  { s with spine := { s.spine with passedOver := m } }.put .SPN_FAIR_CREDIT_WAIT_MAX (min worst 127)

/-- `x` is issued with a tag of its port: it enters the request plane at its port's node. -/
def State.issueTxn (s : State) (t : Nat) (x : Txn) : State :=
  let y := { x with tag := (s.spine.freeTag x.src).getD 0 }
  { s with spine := { s.spine with
      waiting := dropTxn s.spine.waiting x.id
      network := s.spine.network ++ [(y, pathOf x.src t (x.src % 2))] } }

/-- The credit arbiter of target `t` grants a credit: first a group, then a port of the group, each in turn. -/
def State.grantCredit (s : State) (t : Nat) : State :=
  let ready := (List.range 97).filter fun p => (s.spine.issuable t p).isSome
  let g0 := SMap.look 0 s.spine.lastGroup t
  match ((List.range 8).map fun i => (g0 + i) % 8).find? fun g => ready.any fun p => requesterGroup p == g with
  | none => s
  | some g =>
    let ps := ready.filter fun p => requesterGroup p == g
    let p := (ps.find? fun p => decide (SMap.look 0 s.spine.lastPort (8 * t + g) ≤ p)).getD (ps.headD 0)
    match s.spine.issuable t p with
    | none => s
    | some x =>
      let s := s.notePassed t (ready.filter (· != p))
      let s := { s with spine := { s.spine with
          lastGroup := SMap.put 0 s.spine.lastGroup t ((g + 1) % 8)
          lastPort := SMap.put 0 s.spine.lastPort (8 * t + g) (p + 1) } }
      s.issueTxn t x

/-! ## Responses at requester ports (07 R203, R216, R224) -/

/-- A response reaches the consumer of its transaction. -/
def State.deliver (s : State) (t : Txn) (bs : List BeatOut) : State :=
  let s := s.bump .SPN_RESP_CNT_COUNT (codeOf bs).code
  let s := { s with spine := { s.spine with delivered := SMap.put [] s.spine.delivered t.src bs } }
  match t.user with
  | .bar id part => s.barResponse id part t bs
  | .design d => s.putPort t.src { s.port t.src with rsp := (s.port t.src).rsp ++ [{ dtag := d, beats := bs }] }
  | .dma r slot => s.dmaResponse r slot bs
  | .other => s

/-- A transaction is gone from every queue. -/
def State.forget (s : State) (id : Nat) : State :=
  let sp := s.spine
  { s with spine := { sp with
      waiting := dropTxn sp.waiting id, network := sp.network.filter (·.1.id != id)
      ingress := dropTxn sp.ingress id, taken := dropTxn sp.taken id
      answered := sp.answered.filter (·.txn.id != id) } }

/-- A change to one transaction, wherever it stands. -/
def State.mapTxn (s : State) (id : Nat) (f : Txn → Txn) : State :=
  let g := fun t : Txn => if t.id = id then f t else t
  let sp := s.spine
  { s with spine := { sp with
      waiting := sp.waiting.map g, network := sp.network.map fun x => (g x.1, x.2)
      ingress := sp.ingress.map g, taken := sp.taken.map g
      answered := sp.answered.map fun a => { a with txn := g a.txn } } }

/-- A discarded response of a region port is counted. -/
def State.noteDiscard (s : State) (p : Nat) : State := if p < 64 then s.bump .SPN_RP_DISC_RSP_DISC p else s

/-- A response arrives at its port: late, of before a fence or a host reset, or to be delivered. -/
def State.arrive (s : State) (a : Answered) : State :=
  let t := a.txn
  let s := s.forget t.id
  if t.expired then (s.bump .SPN_TO_CNT_LATE).noteDiscard t.src
  else if t.stale then s.noteDiscard t.src
  else s.deliver t a.beats

/-- The timer of `t` expires. One that has no credit yet is removed, and one that an isolated unit has swallowed is gone;
one whose response an isolated unit will not let pass frees its tag (R227). TIMEOUT to a design frees its tag at once
(R223). -/
def State.expire (s : State) (t : Txn) : State :=
  let s := s.bump .SPN_TO_CNT_EXPIRED
  let s := if t.src < 64 then s.bump .SPN_RP_TO_INI_TIMEOUT t.src else s
  let gone := t.lost || s.spine.waiting.any (·.id == t.id)
  let cut := !s.spine.responsePasses t.src (portOf t.addr)
  let s := if gone then s.forget t.id else s.mapTxn t.id fun t => { t with expired := true, freed := cut }
  if t.stale then s
  else
    let s := s.deliver t (t.reject .timeout)
    match t.user with
    | .design d => s.putPort t.src { s.port t.src with
        busy := (s.port t.src).busy.erase d
        rsp := (s.port t.src).rsp.dropLast ++ [{ dtag := d, beats := t.reject .timeout, free := true }] }
    | _ => s

/-! ## Requests (07 R202, R223; 10 R303, R306) -/

/-- A request that its own port completes with DECERR. -/
def State.refuseTxn (s : State) (t : Txn) : State := s.deliver t (t.reject .decerr)

/-- A request that its requester port may send: R202 holds, and it is not addressed to the port itself (R199). That the port
completes one of the latter kind with DECERR is a DESIGN CHOICE (log entry 95). -/
def sendable (src : Nat) (kind : TxnKind) (addr beats : Nat) : Bool := wellFormed kind addr beats && portOf addr != src

/-- A request of requester port `src`: rejected where R202 is broken, else queued. -/
def State.submit (s : State) (src owner : Nat) (kind : TxnKind) (addr : Nat) (beats : List BeatIn) (user : Consumer) :
    State :=
  if sendable src kind addr beats.length then s.enqueue src owner kind addr beats user
  else
    let t : Txn := { id := s.spine.nextId, src, owner, kind, addr, beats, user }
    (s.captureDecerr owner addr (kind == .write) false).refuseTxn t

/-- The design of region port `p` may transfer beats of a request: its port clock runs, and the side is on. -/
def State.portReady (s : State) (p : Nat) : Bool :=
  s.regionRuns (p / 4) && s.portClocked p && (s.port p).iniOn && !(s.port p).resync

/-- A design's request: the spine address, or the cause of a failed lookup. A translated address alone is looked up. -/
def State.iniAddress (s : State) (p a beats : Nat) (write : Bool) : Nat ⊕ Nat :=
  match dmaForm a with
  | .translated e o => s.attLookup (0x20 + p / 4) e o (32 * beats) write
  | _ => .inr a

/-- READY for the first beat of a request (R109, R223): its fabric tag is free, and a spine tag, response buffer space and
an entry of the wait queue that the request goes to are free too. -/
def State.iniReady (s : State) (p d : Nat) (write : Bool) (a beats : Nat) : Bool :=
  !(s.port p).busy.contains d && (s.spine.freeTag p).isSome && decide (s.spine.reserved p < responseBuffer p) &&
    match s.iniAddress p a beats write with
    | .inl _ => true
    | .inr x => decide ((s.spine.waiting.filter fun t => t.src == p && portOf t.addr == portOf x).length < 16)

/-- A whole request of a design, under fabric tag `d`, has crossed to the spine side. -/
def State.iniRequest (s : State) (p d : Nat) (write : Bool) (a : Nat) (beats : List BeatIn) : State :=
  let o := 0x20 + p / 4
  let kind : TxnKind := if write then .write else .read
  if !wellFormed kind a beats.length then s.submit p o kind a beats (.design d)
  else match s.iniAddress p a beats.length write with
    | .inl cause =>
      let t : Txn := { id := s.spine.nextId, src := p, owner := o, kind, addr := a, beats, user := .design d }
      (s.captureFault o a cause write).refuseTxn t
    | .inr x => s.submit p o kind x beats (.design d)

/-- The request that a beat on INI_REQ belongs to: the one that is open, or a new one with this header if READY is high. -/
def State.openRequest (s : State) (p d : Nat) (write : Bool) (a count : Nat) : Option IniOpen :=
  match (s.port p).opened with
  | some o => some o
  | none => if s.iniReady p d write a count then some { dtag := d, write, addr := a, count, beats := [] } else none

/-- Beats of a request transfer on INI_REQ, as many as the crossing FIFO has room for and the request still needs (R106,
R107). The last of them lets the request cross. -/
def State.transferIni (s : State) (p : Nat) (o : IniOpen) (bs : List BeatIn) : State :=
  let r := s.port p
  let now := o.beats ++ bs.take (min r.iniRoom (o.count - o.beats.length))
  let busy := if o.beats.isEmpty && !now.isEmpty then r.busy ++ [o.dtag] else r.busy
  if now.length < o.count then
    s.putPort p { r with busy, opened := if now.isEmpty then r.opened else some { o with beats := now } }
  else (s.putPort p { r with busy, opened := none }).iniRequest p o.dtag o.write o.addr now

/-! ## Region ports, target side (03 R110) -/

/-- The transaction that a delivered identifier names, if it still waits for its answer. -/
def State.takenTxn (s : State) (id : Nat) : Option Txn := s.spine.taken.find? fun t => t.id == id && !t.lost

/-- A response beat as the port passes it on: OK, DECERR and POISON pass, any other code becomes DECERR. -/
def designBeat (be : BitVec 32) (code : Nat) (data : BitVec 256) : BeatOut :=
  if code = 0 then okBeat be data
  else { code := if code = 4 then .poison else .decerr, wok := 0, data := BitVec.allOnes 256 }

/-- The design's whole answer to `t`, with each beat's code; codes that are converted are counted, and a DECERR is captured
(01 R44). -/
def State.designAnswer (s : State) (p : Nat) (t : Txn) (beats : List (Nat × BitVec 256)) : State :=
  let converted := (beats.filter fun b => b.1 ≠ 0 && b.1 ≠ 1 && b.1 ≠ 4).length
  let s := s.bump .SPN_RP_TGT_CONVERTED p converted
  let out := if t.kind == .read then (t.beats.zip beats).map fun x => designBeat x.1.be x.2.1 x.2.2
    else if beats.any (fun b => b.1 ≠ 0) then beats.map fun b => designBeat 0 b.1 0
    else t.okWrite
  let s := if codeOf out = .decerr then s.captureDecerr t.owner t.start t.isWrite false else s
  s.answerTxn t out

/-! ## Stalls (07 R225 to R227, R230) -/

/-- The unit is one that the watchdog watches (Tables 7-1, 7-2). -/
def watched : StallUnit → Bool
  | .hop n i plane => nodeInput n i plane
  | .ingress p => p.val < 64 || (77 ≤ p.val && p.val < 93) || 95 ≤ p.val

/-- DETAIL of DIAG 9 (R227). -/
def stallDetail : StallUnit → Nat
  | .hop n i plane => n.val + 2 ^ 5 * i.val + 2 ^ 9 * plane.toNat
  | .ingress p => p.val + 2 ^ 15

/-- The armed injection names this unit (R230). -/
def State.stallInjected (s : State) : StallUnit → Bool
  | .hop n i plane => s.injectedHop == some (n.val, i.val, plane)
  | .ingress _ => false

/-- Something waits at the unit: a beat that stands at the hop or has still to pass it, or a request in the ingress queue
(R225). -/
def State.waitsAt (s : State) : StallUnit → Bool
  | .hop n i plane =>
    (if plane then s.spine.onResponsePlane else s.spine.onRequestPlane).any fun x => x.way.contains (n.val, i.val)
  | .ingress p => s.spine.ingress.any fun t => portOf t.addr == p.val

/-- SPN_STALL already holds a unit of the same kind and a lower number, detected at this instant. -/
def State.lowerStall (s : State) (u : StallUnit) : Bool :=
  s.flag .SPN_STALL_VALID && s.get .SPN_STALL_TIME_TIME == s.now &&
    (match u with
      | .hop n _ _ => !s.flag .SPN_STALL_KIND && decide (s.get .SPN_STALL_NODE ≤ n.val)
      | .ingress p => s.flag .SPN_STALL_KIND && decide (s.get .SPN_STALL_PORT ≤ p.val))

/-- SPN_STALL and its time. -/
def State.recordStall (s : State) (u : StallUnit) (injected : Bool) : State :=
  let (node, input, plane, port, kind) := match u with
    | .hop n i plane => (n.val, i.val, plane, 0, false)
    | .ingress p => (0, 0, false, p.val, true)
  let s := ((s.put .SPN_STALL_NODE node).put .SPN_STALL_INPUT input).putFlag .SPN_STALL_PLANE plane
  let s := ((s.put .SPN_STALL_PORT port).putFlag .SPN_STALL_KIND kind).putFlag .SPN_STALL_VALID true
  (s.putFlag .SPN_STALL_INJECTED injected).stamp .SPN_STALL_TIME_TIME

/-- Requests at an isolated ingress will never be taken. -/
def State.cutIngress (s : State) (p : Nat) : State :=
  let (there, rest) := s.spine.ingress.partition fun t => portOf t.addr == p
  { s with spine := { s.spine with ingress := rest, taken := s.spine.taken ++ there.map fun t => { t with lost := true } } }

/-- A stall at the same instant as the one that SAF_LAST records, of a unit with a lower number (R227). -/
def State.replacesStall (s : State) (u : StallUnit) : Bool :=
  s.flag .SPN_STALL_VALID && s.get .SPN_STALL_TIME_TIME == s.now && s.flag .SAF_LAST_VALID && s.get .SAF_LAST_DIAG == 9 &&
    s.get .SAF_LAST_TIME_TIME == s.now && !s.lowerStall u

/-- A stall: the unit is isolated, recorded and logged, and the device enters SAFE. -/
def State.stall (s : State) (u : StallUnit) : State :=
  let injected := s.stallInjected u
  let replaces := s.replacesStall u
  let s := (if injected then s.putFlag .SPN_STALL_INJECT_ARM false else s).bump .SPN_STALL_CNT_COUNT
  let s := if s.lowerStall u then s else s.recordStall u injected
  let s := { s with spine := { s.spine with isolated := s.spine.isolated ++ [u] } }
  let s := match u with | .ingress p => s.cutIngress p | _ => s
  let s := s.logEvent 0x0D01 (s.regValue .SPN_STALL) 0 0 (flagDangerous + (if injected then flagInjected else 0))
  let s := s.danger 9 (stallDetail u) none 0 injected
  if replaces then s.put .SAF_LAST_DETAIL (stallDetail u) else s

end Sys2Proof.Machine
end

