-- ==== Sys2Proof/Machine/BankCmds.lean ====
section
/-! DEFINITION. The commands of spec/09: accesses to a bank's words, scrubbing, clears, injection, parking banks. -/

namespace Sys2Proof.Machine

set_option Elab.async false

/-- What an access of a requester to words of a bank answers: its code and the word's two halves. -/
def State.answerWord (s : State) (c : Resp) (words : List Word) : State := { s with answer := some { codes := [c], words } }

/-- A requester reads data word `w` of bank n (R262). -/
def execBankRead (who : Requester) (n : Fin 128) (w : BitVec 16) (s : State) : Out :=
  let ones := List.replicate 2 (BitVec.allOnes 32)
  match s.bankCheck who.owner n with
  | .ok => match s.bankRead n w.toNat with
    | (t, some d) => .next (t.answerWord .ok (twoWords d.toNat))
    | (t, none) => .next (t.answerWord .poison ones)
  | .dark => if s.coreOn then .next (s.countDark.answerWord .dark ones) else .next s
  | c => .next (s.answerWord c ones)

/-- A requester writes data word `w` of bank n whole (R265), or a part of it, which gives NARROW (07 R202). -/
def execBankWrite (who : Requester) (n : Fin 128) (w : BitVec 16) (data : BitVec 64) (whole : Bool) (s : State) : Out :=
  match s.bankCheck who.owner n with
  | .ok => if whole then .next ((s.bankWrite n [(w.toNat, data)]).answerWord .ok []) else .next (s.answerWord .narrow [])
  | .dark => if s.coreOn then .next (s.countDark.answerWord .dark []) else .next s
  | c => .next (s.answerWord c [])

/-- The scrubber of bank n runs. -/
def State.scrubs (s : State) (n : Nat) : Bool :=
  (s.mode == .boot || s.mode == .run || s.mode == .safe) && s.flag .BNK_SCRUB_RUNNING n && s.groupOn (groupOfBank n) &&
    !s.testing

/-- A clear of bank n that a handover asked for holds its scrubber (R266). -/
def State.clearHolds (s : State) (n : Nat) : Bool :=
  (s.mode == .boot || s.mode == .run || s.mode == .safe) && (s.clears (groupOfBank n)).contains n &&
    !s.flag .BNK_STAT_PU_CLEAR n

/-- A scrub step of bank n (R266, R267). The slot of a page under slice test is skipped (R278). A step that falls during a
clear is deferred to its end; a request at the ingress head comes before a step that follows a correction, a re-seal or a
clear (R253). -/
def execScrubStep (n : Fin 128) (s : State) : Out :=
  let p := s.get .BNK_SCRUB_NEXT_PAGE n
  if s.clearHolds n then
    .next { s with banks := { s.banks with deferred := SMap.put false s.banks.deferred n true } }
  else if !s.scrubs n then .next s
  else if s.headWaits n then .next s
  else if (s.sliceOver n (512 * p)).isSome then .next (s.scrubAdvance n)
  else .next ((s.scrubPage n p).scrubAdvance n)

/-- A pass of bank n has not ended within 1 s of running time (R268). -/
def execScrubPassOverdue (n : Fin 128) (s : State) : Out := if s.scrubs n then .next (s.passOverdue n false) else .next s

/-- The clear engine of group g starts the next clear (R273), after the request at the ingress head of a bank that has just
ended one or a correction (R253) and after a scrub step that the bank still owes (R266). -/
def execBankClear (g : Fin 16) (s : State) : Out :=
  if s.enginesRun && s.groupOn g && !s.flag .BNK_CLR_STAT_ACTIVE g && !(banksOfGroup g).any s.headWaits then
    match s.clears g with
    | [] => .next s
    | n :: _ => .next ((s.deferredStep n).startClear g)
  else .next s

/-- The clear that group g's engine runs ends (R274). -/
def execBankClearDone (g : Fin 16) (s : State) : Out :=
  if s.enginesRun && s.flag .BNK_CLR_STAT_ACTIVE g then .next (s.endClear g) else .next s

/-- A write to BNK_INJECT[n] with ARM = 1 (R281). -/
def execBnkInject (who : Requester) (n : Fin 128) (word : BitVec 16) (bitA bitB : BitVec 7) (double : Bool) (s : State) : Out :=
  .next (s.writeAs who .BNK_INJECT n (BitVec.ofNat 32 (word.toNat + 2 ^ 16 * bitA.toNat + 2 ^ 23 * bitB.toNat +
    2 ^ 30 * double.toNat + 2 ^ 31)))

/-- A write to BNK_PARK[q] (R282). -/
def execBnkParkWrite (who : Requester) (q : Fin 4) (bankA : Fin 128) (validA : Bool) (bankB : Fin 128) (validB : Bool)
    (s : State) : Out :=
  .next (s.writeAs who .BNK_PARK q (BitVec.ofNat 32 (bankA.val + 2 ^ 7 * validA.toNat + 2 ^ 8 * bankB.val +
    2 ^ 15 * validB.toNat)))

end Sys2Proof.Machine
end

