-- ==== Sys2Proof/Machine/ClockCmds.lean ====
section
/-! DEFINITION. The commands of the clocks, the timebase and its alarms (14 R407 to R427). -/

namespace Sys2Proof.Machine

set_option Elab.async false

/-! ## Fabric PLLs (R407 to R416) -/

/-- PLL_APPLY: a write of APPLY = 1 to PLL_CFG[k] (R416). -/
def execPllApply (who : Requester) (k : Fin 16) (m : BitVec 6) (n : BitVec 10) (s : State) : Out :=
  .next (s.writeAs who .PLL_CFG k.val (BitVec.ofNat 32 (2 ^ 31 + 256 * n.toNat + m.toNat)))

/-- The frequency that a window of PLL k's monitor reports: the calibrated frequency of the reference oscillator, or what
it counted of an outside source. -/
def State.windowKhz (s : State) (k counted : Nat) : Nat :=
  if (s.pll k).inForce.refsel = 0 then 10 ^ 14 / (10 ^ 9 + s.correction).toNat else counted

/-- REFERENCE_WINDOW: a window of 100 µs ends at PLL k's monitor, which counted `khz` (R407). A PLL that waits for a full
window of presence starts acquisition. -/
def execReferenceWindow (k : Fin 16) (khz : BitVec 19) (s : State) : Out :=
  .next <| if !s.flag .PLL_STAT_POWERED k.val || s.mode == .doze || !s.coreOn then s
    else
      let f := s.windowKhz k.val khz.toNat
      let declared := (s.pll k.val).inForce.khz
      let present := decide (99 * declared ≤ 100 * f) && decide (100 * f ≤ 101 * declared)
      let r := (s.pll k.val).inForce.refsel
      let s := if r = 0 then s else s.putSource r khz.toNat
      let s := (s.put .PLL_MEAS_REF_KHZ f k.val).putFlag .PLL_MEAS_PRESENT present k.val
      if present && (s.pll k.val).window && s.get .PLL_STAT_STATE k.val == 1 then s.acquirePll k.val false else s

/-- PLL_LOCK: 64 consecutive comparisons of PLL k show a small phase error (R412). -/
def execPllLock (k : Fin 16) (s : State) : Out :=
  .next <| if s.get .PLL_STAT_STATE k.val == 2 then
      (s.putFlag .PLL_STAT_LOCKED true k.val).put .PLL_STAT_STATE 3 k.val
    else s

/-- Results of PLL_SET: BAND, VCO_KHZ and PLL_STAT (R427). -/
def State.pllResults (s : State) (k : Nat) : List Word :=
  [s.get .PLL_STAT_BAND k, s.get .PLL_VCO_VCO_KHZ k, s.pllStat k].map (BitVec.ofNat 32 ·)

/-- PLL_QUALIFIED: the outputs of PLL k start, and the fence causes that it was behind clear (R413, R414). -/
def execPllQualified (k : Fin 16) (s : State) : Out :=
  .next <| if s.get .PLL_STAT_STATE k.val != 3 then s
    else
      let s := ((s.putFlag .PLL_STAT_QUALIFIED true k.val).putFlag .PLL_STAT_GATED false k.val).put .PLL_STAT_STATE 4 k.val
      let s := (s.putPll k.val { s.pll k.val with counted := true }).unfenceByPll k.val
      s.replyWaiting (.pll k.val) St.ok fun s _ => s.pllResults k.val

/-- PLL_LOSS: two consecutive failing PFD cycles, of lock or of reference (R412, R414). -/
def execPllLoss (k : Fin 16) (reference : Bool) (s : State) : Out := .next (s.pllLoss k.val reference false)

/-! ## Commands of Table 14-8 -/

/-- The setting that parameters P1 to P7 spell. -/
def Packet.pllSetting (p : Packet) : PllSetting :=
  { refsel := bitsOf (p.p 1) 0 4, khz := bitsOf (p.p 1) 4 19, m := bitsOf (p.p 2) 0 6, n := bitsOf (p.p 2) 8 10
    outs := (List.range 5).map fun o => (bitsOf (p.p (3 + o)) 0 10, (p.p (3 + o)).testBit 16) }

/-- A reserved bit of P1 to P7, or APPLY, is set. -/
def Packet.pllReserved (p : Packet) : Bool :=
  p.p 1 / 2 ^ 23 != 0 || bitsOf (p.p 2) 6 2 != 0 || p.p 2 / 2 ^ 18 != 0 ||
    (List.range 5).any fun o => bitsOf (p.p (3 + o)) 10 6 != 0 || p.p (3 + o) / 2 ^ 17 != 0

/-- PLL_SET: an APPLY of its parameters that waits for qualified outputs; for a DARK region, staged for power-up. -/
def execPllSet (m : Fin 5) (s : State) : Out :=
  .next <| s.command m 0x80 fun p =>
    let k := p.p 0
    let c := p.pllSetting
    if 16 ≤ k || p.pllReserved then s.reply m St.badParam
    else if !s.controlsRegion k p.acts then s.reply m St.notOwner
    else match s.tryPll k c with
      | .took _ =>
        match (s.stagePll k c).tryPll k c with
        | .took t =>
          if s.regionOn k then t.await m p (.pll k)
          else
            let (_, b, v) := s.checkPll k c (c.khz, 1)
            t.reply m St.ok ([b, v, Nat.lor (t.pllStat k) 16].map (BitVec.ofNat 32 ·))
        | _ => s
      | .rejected t => t.reply m (if t.get .PLL_STAT_LAST_ERR k = 1 then St.pllNoband else St.badParam)
      | _ => s

/-- PLL_SET_TIMEOUT: the outputs that mailbox m's PLL_SET waits for are not qualified in time; the PLL keeps trying. -/
def execPllSetTimeout (m : Fin 5) (s : State) : Out :=
  .next <| match s.running m with
    | some p => match p.wait with
      | .pll _ => s.replyTo m p St.timeout []
      | _ => s
    | none => s

/-- The PLL boot record as stored, its sets by default where it is absent (R411). -/
def State.pllRecord (s : State) : List Byte :=
  match s.systemItem 3 with
  | some b => if b.length = 1024 then b else (List.replicate 32 (bootPll [] 0).bytes).flatten
  | none => (List.replicate 32 (bootPll [] 0).bytes).flatten

/-- PLL_BOOT_SET: an entry of the PLL boot record, after a range check, is journalled. -/
def execPllBootSet (m : Fin 5) (fails0 fails1 : Nat) (s : State) : Out :=
  .next <| s.command m 0x81 fun p =>
    let k := bitsOf (p.p 0) 0 4
    let set := (p.p 0).testBit 8
    let at0 := 512 * set.toNat + 32 * k
    if bitsOf (p.p 0) 4 4 ≠ 0 || 512 ≤ p.p 0 || p.pllReserved then s.reply m St.badParam
    else if !(if set then s.isAdmin (mailOwner m) else s.controlsRegion k p.acts) then s.reply m St.notOwner
    else if p.pllSetting.rangeError ≠ 0 then s.reply m St.badParam
    else
      let b := s.pllRecord
      s.replyJournal m 3 (b.take at0 ++ p.pllSetting.bytes ++ b.drop (at0 + 32)) fails0 fails1

/-- PLL_BAND_LOAD: the band table of one PLL from the factory record (R410). -/
def execPllBandLoad (m : Fin 5) (s : State) : Out :=
  .next <| s.command m 0x82 fun p =>
    if 16 ≤ p.p 0 then s.reply m St.badParam
    else if !s.controlsRegion (p.p 0) p.acts then s.reply m St.notOwner
    else (s.loadBands (p.p 0)).reply m St.ok

/-- TMB_SAMPLE: the timebase at one instant. -/
def execTmbSample (m : Fin 5) (s : State) : Out :=
  .next <| s.command m 0x90 fun _ =>
    s.reply m St.ok (twoWords s.now ++
      [.TMB_EPOCH, .TMB_UNCERT, .TMB_STAT, .TMB_CORR].map fun r => BitVec.ofNat 32 (s.shown r 0))

/-! ## Alarms and the doubt (R422, R424, R425) -/

/-- ALARM_ARM: a write of ARM = 1 to TMB_ALARM_CTL[a]. -/
def execAlarmArm (who : Requester) (a : Fin 5) (vector : BitVec 11) (clear : Bool) (s : State) : Out :=
  .next (s.writeAs who .TMB_ALARM_CTL a.val (BitVec.ofNat 32 (65536 * vector.toNat + 2 * clear.toNat + 1)))

/-- ALARM_DISARM: a write of ARM = 0 to TMB_ALARM_CTL[a]. -/
def execAlarmDisarm (who : Requester) (a : Fin 5) (vector : BitVec 11) (clear : Bool) (s : State) : Out :=
  .next (s.writeAs who .TMB_ALARM_CTL a.val (BitVec.ofNat 32 (65536 * vector.toNat + 2 * clear.toNat)))

/-- The message of alarm a: none of alarm 4, and none in HOLDUP. -/
def State.sendAlarm (s : State) (a : Nat) : State :=
  let v := s.get .TMB_ALARM_CTL_VECTOR a
  if v = 0 || a = 4 || s.mode == .holdup || s.hostAbsent a then s else s.sendMsix a v

/-- ALARM_FIRE: alarm a, armed, at or after its time. In DOZE it is a wake source where PWR_WAKE_EN lets it. -/
def execAlarmFire (a : Fin 5) (s : State) : Out :=
  .next <| if !s.alarmDue a.val then s
    else
      let s := (s.fireAlarm a.val).sendAlarm a.val
      if s.flag .PWR_WAKE_EN_ALARM then s.wake 4 0 else s

/-- CLR_UNCERT: a write of CLR_UNCERT = 1 to TMB_CTL. -/
def execClrUncert (who : Requester) (s : State) : Out := .next (s.writeAs who .TMB_CTL 0 1)

end Sys2Proof.Machine
end

