-- ==== Sys2Proof/Machine/DmaCmds.lean ====
section
/-! DEFINITION. The commands of spec/10: doorbells, ring control, issue and the steps of a slot, MSI-X, and the address
translation table. -/

namespace Sys2Proof.Machine

set_option Elab.async false

/-! ## Rings (R285 to R287) -/

/-- A write to DMA_RING_TAIL[r], the doorbell (R285). -/
def execDmaDoorbell (who : Requester) (r : Fin 8192) (tail : BitVec 32) (s : State) : Out :=
  .next (s.writeAs who .DMA_RING_TAIL r tail)

/-- A value of DMA_RING_CTL[r]. -/
def ringCtl (enable halt resume : Bool) (size vector : Nat) : Word :=
  BitVec.ofNat 32 (enable.toNat + 2 * halt.toNat + 4 * resume.toNat + 2 ^ 8 * size + 2 ^ 16 * vector)

/-- ENABLE 0 → 1 with a size and a vector (R287). -/
def execRingEnable (who : Requester) (r : Fin 8192) (size : BitVec 5) (vector : BitVec 11) (s : State) : Out :=
  .next (s.writeAs who .DMA_RING_CTL r (ringCtl true false false size.toNat vector.toNat))

/-- A write to DMA_RING_CTL[r] that keeps its size and vector. -/
def State.writeCtl (s : State) (who : Requester) (r : Nat) (enable halt resume : Bool) : State :=
  s.writeAs who .DMA_RING_CTL r
    (ringCtl enable halt resume (s.get .DMA_RING_CTL_SIZE_LOG2 r) (s.get .DMA_RING_CTL_VECTOR r))

/-- ENABLE 1 → 0 of a HALTED ring (R287). -/
def execRingDisable (who : Requester) (r : Fin 8192) (s : State) : Out := .next (s.writeCtl who r false false false)

/-- HALT = 1 (R287). -/
def execRingHalt (who : Requester) (r : Fin 8192) (s : State) : Out := .next (s.writeCtl who r true true false)

/-- RESUME = 1 (R287). -/
def execRingResume (who : Requester) (r : Fin 8192) (s : State) : Out := .next (s.writeCtl who r true false true)

/-! ## The steps of a slot (R290 to R302, R307) -/

/-- DMA port p issues one transaction (R307). -/
def execDmaIssue (p : Fin 8) (s : State) : Out := if s.dmaRuns then .next (s.portIssue p) else .next s

/-- The descriptor that slot `i` in execution of ring r has fetched is checked and starts (R290). -/
def execDescriptorStart (r : Fin 8192) (i : Fin 8) (s : State) : Out :=
  match s.job r i with
  | some j => match j.phase, j.desc with
    | .start, some d => if s.dmaRuns then .next (s.startDescriptor r i j d) else .next s
    | _, _ => .next s
  | none => .next s

/-- The descriptor that slot `i` in execution of ring r executed has ended: its chain goes on, or its completion is due
(R297). -/
def execChainNext (r : Fin 8192) (i : Fin 8) (s : State) : Out :=
  match s.job r i with
  | some j => if s.dmaRuns && j.phase == .ended then .next ((s.chainNext r i j).settleRing r) else .next s
  | none => .next s

/-- The completion of ring r's oldest slot has been acknowledged (R301). -/
def execCompletionWrite (r : Fin 8192) (s : State) : Out :=
  match s.job r 0 with
  | some j => if s.dmaRuns && j.phase == .acked then .next (s.retireSlot r j) else .next s
  | none => .next s

/-- The holdoff since ring r's last message has passed. -/
def State.holdoffOver (s : State) (r : Nat) : Bool :=
  match (s.ring r).lastIrq with
  | none => true
  | some t => decide (t + 1000 * s.get .DMA_RING_IRQ_HOLDOFF_US r ≤ s.now)

/-- Ring r's pending vector is sent (R302). Without a host to take it no message is sent. -/
def execMsixSend (r : Fin 8192) (s : State) : Out :=
  if !(s.dmaRuns && s.flag .DMA_RING_STAT_IRQ_PENDING r && s.holdoffOver r) then .next s
  else
    let s := s.putFlag .DMA_RING_STAT_IRQ_PENDING false r
    match s.ringHost r with
    | none => .next s
    | some k => .next ((s.putRing r { s.ring r with lastIrq := some s.now }).sendMsix k (s.get .DMA_RING_CTL_VECTOR r))

/-! ## Address translation (R304 to R306) -/

/-- A compare-and-set write to ATT_ENT_KEY[e] (R305). -/
def execAttKeyChange (who : Requester) (e : Fin 32768) (expect new : BitVec 8) (s : State) : Out :=
  .next (s.writeAs who .ATT_ENT_KEY e (BitVec.ofNat 32 (2 ^ 8 * expect.toNat + 2 ^ 16 * new.toNat)))

/-- A 64-bit write to ATT_ENT_MAP[e] (R305). -/
def execAttMapWrite (who : Requester) (e : Fin 32768) (rd wr : Bool) (base : BitVec 32) (limit : BitVec 16) (s : State) : Out :=
  .next (s.accessAt who (Reg.addr .ATT_ENT_MAP e) (some (.reg .ATT_ENT_MAP e false)) .w64
    (.write (rd.toNat + 2 * wr.toNat + 2 ^ 12 * base.toNat + 2 ^ 44 * limit.toNat)))

/-- The oldest sweep frees the stale entries of its key (R306). -/
def execAttSweep (s : State) : Out := if s.coreOn then .next s.sweep else .next s

end Sys2Proof.Machine
end

