-- ==== Sys2Proof/Machine/PowerCmds.lean ====
section
/-! DEFINITION. Power-up, modes, power domains and orderly OFF: the commands of spec/13, and VIN of spec/21. -/

namespace Sys2Proof.Machine

set_option Elab.async false

/-- VIN at or above 9.5 V with NRESET_IN high for 1 ms: VIN good (21 R537) starts BOOT (13 Table 13-2, 05 Table 5-2). After
a DEV_SHUTDOWN without RESTART it is not raised before VIN off or an NRESET_IN pulse. -/
def execVinGood (s : State) : Out :=
  if s.mode == .off && !s.power.held then
    .next { s with power := { s.power with vinPresent := true } }.boot
  else .next s

/-- TMB_NOW changes over to the reference oscillator after step 2 of BOOT, without a step (14 R418). -/
def execTimebaseSwitch (s : State) : Out :=
  if s.mode == .boot && s.flag .TMB_STAT_SOURCE then
    .next ({ s with clocks := { s.clocks with fraction := 0 } }.putFlag .TMB_STAT_SOURCE false |>.put .TMB_STAT_ACCURACY 1)
  else .next s

/-- VIN below 6.0 V for 1 ms (21 R538). In OFF it ends the wait of 13 R395; in any other mode HOLDUP has come long
before. -/
def execVinOff (s : State) : Out :=
  if s.mode == .off then .next { s with power := { s.power with vinPresent := false, held := false } } else .next s

/-- An orderly OFF with restart has ended and 1 ms has passed: BOOT starts if NRESET_IN is high and VIN is good
(13 R395, R396; 21 R537). -/
def execRestart (nresetHigh vinGood : Bool) (s : State) : Out :=
  if s.mode == .off && s.power.restart && nresetHigh && vinGood then .next s.boot else .next s

/-- In OFF with VIN absent, both banks have fallen to 2.0 V: the retained data are lost (12 R358). -/
def execRetentionLoss (s : State) : Out :=
  if s.mode == .off && !s.power.vinPresent then
    .next { s.eraseRetained with power := { s.power with retained := false, lastEpoch := 0 } }
  else .next s

/-- NRESET_IN held low for 10 µs (13 R397): DEV_REBOOT with FORCE, without a commit where the MGC has halted. In DOZE, and
while it is entered, it wakes the device first (R389). In OFF it lets VIN good be raised again (21 R537); in HOLDUP it is
ignored. -/
def execNresetIn (s : State) : Out :=
  match s.mode with
  | .holdup => .next s
  | .off => .next { s with power := { s.power with held := false } }
  | .doze => .next { s.wake 5 0 with power := { (s.wake 5 0).power with resetAfterWake := true } }
  | _ =>
    if s.power.mgcHalted then
      .next { s with power := { s.power with restart := true } }.enterOff
    else if s.get .DEV_MODE_PHASE == 1 then
      .next { s.wake 5 0 with power := { (s.wake 5 0).power with resetAfterWake := true } }
    else if s.power.orderly.any (·.committed) then .next s
    else
      .next (s.acceptOff { cause := .reboot, mailbox := none, restart := true, noTest := true } true)

/-! ## DOZE -/

/-- PWR_DOZE (13 R387, R388): the refusal order, then entry from step 1 of Table 13-6. -/
def execPwrDoze (m : Fin 5) (s : State) : Out :=
  .next <| s.command m 0x30 fun _ =>
    if s.power.orderly.isSome then s.reply m St.busy
    else match s.dozeRefusal with
      | some (reason, refuser) => s.replyRefusal m 1 reason refuser 0
      | none => (s.reply m St.ok).beginDoze

/-- DOZE entry completes (R388): MODE reads 3. -/
def execDozeEntryComplete (s : State) : Out :=
  if s.mode == .run && s.get .DEV_MODE_PHASE == 1 then .next s.completeDoze else .next s

/-- The wake sources that PWR_WAKE_EN masks (R389). -/
def State.wakeEnabled (s : State) : WakeSource → Bool
  | .link k => s.bit .PWR_WAKE_EN_LINK k.val
  | .field g => s.bit .PWR_WAKE_EN_FIO g.val
  | .alarm => s.flag .PWR_WAKE_EN_ALARM
  | .mailbox _ | .ring _ | .nreset => true

/-- SOURCE and INDEX of PWR_WAKE_LAST. -/
def wakePlace : WakeSource → Nat × Nat
  | .mailbox m => (1, m.val)
  | .ring r => (1, r.val)
  | .link k => (2, k.val)
  | .field g => (3, g.val)
  | .alarm => (4, 0)
  | .nreset => (5, 0)

/-- A wake source in DOZE or during entry (R389, R390): recorded, or merged with the first. -/
def execDozeWake (source : WakeSource) (s : State) : Out :=
  if !s.wakeEnabled source then .next s
  else
    let t := s.wake (wakePlace source).1 (wakePlace source).2
    .next { t with power := { t.power with
      resetAfterWake := t.power.resetAfterWake || (source == .nreset && s.dozing) } }

/-- DOZE exit (R391, 12 R366): once class 10 is admitted it runs to its end; a wake that is not admitted is held, and
counted once. -/
def execDozeExit (s : State) : Out :=
  if s.mode != .doze || !s.power.woken then .next s
  else if !s.admits 10 then
    if s.power.wakeHeld then .next s
    else
      .next { (s.refuseEnergy 10).recordRefusal 1 1 0 0 with power := { s.power with wakeHeld := true } }
  else
    let reset := s.power.resetAfterWake
    let s := s.exitDoze
    let s := { s with power := { s.power with resetAfterWake := false } }
    if reset then .next (s.acceptOff { cause := .reboot, mailbox := none, restart := true, noTest := true } true)
    else .next s

/-! ## Domains -/

/-- The DOMAIN event (17 Table 17-5): kind 0 region, 1 bank group, 2 quad. -/
def State.logDomain (s : State) (kind index : Nat) (on : Bool) : State :=
  s.logEvent 0x0302 (kind + 8 * index + 256 * on.toNat)

/-- The first refuser of R384 that applies: reason and refuser. -/
def State.regionOffRefusal (s : State) (k : Nat) : Option (Nat × Nat) :=
  if s.loading k then some (5, 0x20 + k)
  else if s.bit .SAF_PLL_CRIT_PLLS k || s.bit .SAF_CFG_CRIT_REGIONS k then some (6, 0x20 + k)
  else (((List.range 16).filter fun j => s.regionOn j && s.dependsOn j k).head?).map fun j => (7, 0x20 + j)

/-- Table 13-4. -/
def State.regionDown (s : State) (k : Nat) : State :=
  let s := (s.capturePins k).fenceEffects k
  let s := ((s.stopLane k).stopPll k).putBit .PWR_DOMAINS_REGION_ON k false
  ((s.closeChannels).showPins k).logDomain 0 k false

/-- R385: the region comes on cleared, UNLOADED and fenced with the cause "no image loaded yet". -/
def State.regionUp (s : State) (k : Nat) : State :=
  let s := ((s.startWipe k).wipeCells k).setRegion k 0
  let s := (s.putFence k { load := true }).putBit .PWR_DOMAINS_REGION_ON k true
  ((s.regionPll k).showPins k).logDomain 0 k true

/-- PWR_REGION (R384, R385). -/
def execPwrRegion (m : Fin 5) (s : State) : Out :=
  .next <| s.command m 0x31 fun p =>
    let k := bitsOf (p.p 0) 0 4
    let on := (p.p 0).testBit 8
    if p.p 0 / 16 ≠ 0 && p.p 0 / 16 ≠ 16 then s.reply m St.badParam
    else if p.acts ≠ s.parent k then s.reply m St.notOwner
    else if s.power.orderly.isSome then s.reply m St.busy
    else if on == s.regionOn k then s.reply m St.ok
    else if on then
      if s.admits 8 then (((s.admitOp 8 k).regionUp k).releaseOp 8 k).reply m St.ok
      else (s.refuseEnergy 8).replyRefusal m 3 1 0 k
    else match s.regionOffRefusal k with
      | some (reason, refuser) => s.replyRefusal m 2 reason refuser k
      | none => (s.reply m St.ok).regionDown k

/-- Who may switch bank group g: ADMIN, or a host or the SPI port whose family holds every owned bank of it (R382). -/
def State.switchesGroup (s : State) (g o : Nat) : Bool :=
  s.isAdmin o || (isTop o && (banksOfGroup g).all fun n => s.bankOwner n == 0 || s.top (s.bankOwner n) == o)

/-- A page of group g is under slice test, or a bank of it holds a parked page. -/
def State.groupUnderTest (s : State) (g : Nat) : Bool :=
  (s.slice g).isSome || (List.range 16).any fun h => (s.slice h).any fun t => groupOfBank t.parkBank == g

/-- R386, ON = 0: a designation that names a bank of the group becomes invalid. -/
def State.groupOff (s : State) (g : Nat) : State :=
  let s := s.groupPowerDown g
  let s := s.forEach (List.range 4) fun s q =>
    let s := if groupOfBank (s.get .BNK_PARK_BANK_A q) = g then s.putFlag .BNK_PARK_VALID_A false q else s
    if groupOfBank (s.get .BNK_PARK_BANK_B q) = g then s.putFlag .BNK_PARK_VALID_B false q else s
  s.showSlices.logDomain 1 g false

/-- PWR_BANK_GROUP (R386). The reply of ON = 1 follows the clears. -/
def execPwrBankGroup (m : Fin 5) (s : State) : Out :=
  .next <| s.command m 0x32 fun p =>
    let g := bitsOf (p.p 0) 0 4
    let on := (p.p 0).testBit 8
    if p.p 0 / 16 ≠ 0 && p.p 0 / 16 ≠ 16 then s.reply m St.badParam
    else if !s.switchesGroup g p.acts then s.reply m St.notOwner
    else if s.power.orderly.isSome then s.reply m St.busy
    else if on == s.groupOn g then s.reply m St.ok
    else if on then
      if s.admits 9 then (((s.admitOp 9 g).groupPowerUp g).logDomain 1 g true).await m p (.groupPower g)
      else (s.refuseEnergy 9).replyRefusal m 5 1 0 g
    else if s.groupUnderTest g then s.replyRefusal m 4 4 0x03 g
    else (s.groupOff g).reply m St.ok

/-- The lowest enabled endpoint with a lane on quad q, which vetoes its power-down (R382). -/
def State.quadVeto (s : State) (q : Nat) : Option Nat :=
  (List.range 4).find? fun k => (List.range 4).any fun i => s.heldByPcie (4 * q + i) && (4 * q + i) / 8 == k

/-- PWR_QUAD (R382). -/
def execPwrQuad (m : Fin 5) (s : State) : Out :=
  .next <| s.command m 0x33 fun p =>
    let q := bitsOf (p.p 0) 0 3
    let on := (p.p 0).testBit 8
    if p.p 0 / 8 ≠ 0 && p.p 0 / 8 ≠ 32 then s.reply m St.badParam
    else if s.power.orderly.isSome then s.reply m St.busy
    else if on == s.quadOn q then s.reply m St.ok
    else if on then ((s.quadPowerUp q).logDomain 2 q true).reply m St.ok
    else match s.quadVeto q with
      | some k => s.replyRefusal m 6 7 (0x10 + k) q
      | none => ((s.quadPowerDown q false).logDomain 2 q false).reply m St.ok

/-! ## Orderly OFF -/

/-- DEV_SHUTDOWN (R392, R393): accepted unless a veto or an active ring refuses it; ORDERLY_COMMIT follows. -/
def execDevShutdown (m : Fin 5) (s : State) : Out :=
  .next <| s.command m 0x02 fun p =>
    let force := (p.p 0).testBit 1 || s.impliedForce
    let o : Orderly :=
      { cause := .shutdown, mailbox := some m.val, restart := (p.p 0).testBit 0, noTest := (p.p 0).testBit 2 }
    if 8 ≤ p.p 0 then s.reply m St.badParam
    else if s.power.orderly.isSome then s.reply m St.busy
    else match if force then none else s.offRefusal with
      | some (reason, refuser) => s.replyRefusal m 7 reason refuser 0
      | none => (s.await m p .commit).acceptOff o force

/-- DEV_REBOOT (R392, R393, R396). -/
def execDevReboot (m : Fin 5) (s : State) : Out :=
  .next <| s.command m 0x01 fun p =>
    let force := (p.p 0).testBit 0 || s.impliedForce
    let o : Orderly := { cause := .reboot, mailbox := some m.val, restart := true, noTest := true }
    if 2 ≤ p.p 0 then s.reply m St.badParam
    else if s.power.orderly.isSome then s.reply m St.busy
    else match if force then none else s.offRefusal with
      | some (reason, refuser) => s.replyRefusal m 8 reason refuser 0
      | none => (s.await m p .commit).acceptOff o force

/-- The packet that asked for the orderly OFF is answered with the committed SEQ. -/
def State.replyOrderly (s : State) (o : Orderly) (status : Nat) : State :=
  match o.mailbox with
  | some m => s.reply m status s.seqWords
  | none => s

/-- OFF follows, and BOOT after it where the request restarts (R395, R396). -/
def State.orderlyOff (s : State) (o : Orderly) : State :=
  { s with power := { s.power with orderly := none, restart := o.restart, held := !o.restart } }.enterOff

/-- A program of spec/18 runs before OFF. -/
def State.runProgram (s : State) (program : Nat) (steps : List Word) : State :=
  let s := { s with test := { s.test with program := some program, steps, cut := false } }
  (s.forEach (List.range 16) fun s k =>
    (s.putBit .PWR_DOMAINS_REGION_ON k true).putBit .PWR_DOMAINS_GROUP_ON k true).showTests

/-- The shutdown self-test, where it is admitted as class 12; a refusal is counted against request 7 (R395). -/
def State.shutdownTest (s : State) (o : Orderly) : State :=
  if o.noTest then s.orderlyOff o
  else if s.admits 12 then ((s.admitOp 12 0).runProgram 1 (programSteps 1 []))
  else ((s.refuseEnergy 12).recordRefusal 7 1 0 0).orderlyOff o

/-- A life-cycle transition after its commit (19 Table 19-4 steps 3 to 6): the state bits, the retained data, the event,
the reply, OFF. -/
def State.advance (s : State) (o : Orderly) (lc : Nat) : State :=
  let old := s.lc
  let s := (s.drainLog.blowState lc).eraseRetained
  let s := s.put .SAF_LOG_HEAD_NEXT ((s.newestArchive.map fun a => a.2 + 1).getD 0)
  let s := ((s.bump .DEV_LC_CNT_ACCEPTED).logEvent 0x0A01 old lc).drainLog
  (s.replyOrderly o St.ok).orderlyOff o

/-- The commit of an orderly OFF once no work is left that cannot be cut (R393, R394), with the journal programs that fail
in each copy per transaction. In SAFE a shutdown ends there, with reply SAFE_MODE, and a life-cycle step blows nothing
(17 Table 17-3, 19 Table 19-7). The MGC does this: after its halt nothing follows but NRESET_IN or HOLDUP (01 R28, R33).
Its programs wait for the reads of their flash banks (11 R318). -/
def execOrderlyCommit (fails : List (Nat × Nat)) (s : State) : Out :=
  match s.power.orderly with
  | none => .next s
  | some o =>
    if s.power.mgcHalted || o.committed || s.uncuttable || !(s.mode == .boot || s.mode == .run || s.mode == .safe) ||
        s.test.program.isSome || !(s.logsFree && s.archiveFree) then
      .next s
    else
      let safe := s.mode == .safe
      let s := { s with power := { s.power with orderly := some { o with committed := true } } }
      let s := (s.dropWaiting.stopFabric).commitOnVin (if o.cause == .shutdown then 2 else 3) fails
      if safe && (o.cause == .shutdown || o.cause == .lifecycle) then
        let s := { s with power := { s.power with orderly := none } }.put .DEV_MODE_PHASE 0
        .next (s.replyOrderly o St.safeMode)
      else match o.cause, o.lifeCycle, o.program with
        | .lifecycle, some lc, _ => .next (s.advance o lc)
        | .program, _, some program =>
          if safe then .next ((s.replyOrderly o St.ok).orderlyOff o)
          else .next ((s.replyOrderly o St.ok).runProgram program s.test.steps)
        | .shutdown, _, _ => .next ((s.replyOrderly o St.ok).shutdownTest o)
        | _, _, _ => .next ((s.replyOrderly o St.ok).orderlyOff o)

end Sys2Proof.Machine
end

