-- ==== Sys2Proof/Machine/EnergyCmds.lean ====
section
/-! DEFINITION. The energy ledger's sampling, capacitance measurements, HOLDUP, and the energy commands (spec/12). -/

namespace Sys2Proof.Machine

set_option Elab.async false

/-! ## Sampling (R359, R360) -/

/-- Counter d grows by an energy in picojoules; what is below a microjoule is carried to the next sample. -/
def State.countEnergy (s : State) (d pj : Nat) : State :=
  if d = 7 || 56 ≤ d then s
  else
    let total := SMap.look 0 s.ledger.carried d + pj
    let s := { s with ledger := { s.ledger with carried := SMap.put 0 s.ledger.carried d (total % 10 ^ 6) } }
    s.bump .NRG_CNT_UJ d (total / 10 ^ 6)

/-- NRG_VIN: the means of the last 100 samples, one per microsecond. -/
def State.sampleVin (s : State) (mv ma : Nat) : State :=
  let l := ((mv, ma) :: s.ledger.samples).take 100
  let s := { s with ledger := { s.ledger with samples := l } }
  (s.put .NRG_VIN_VIN_MV ((l.map (·.1)).sum / l.length)).put .NRG_VIN_IIN_MA ((l.map (·.2)).sum / l.length)

/-- The test load of a discharge measurement draws 0.2 A × V × its time, in whole microjoules rounded up (R357). -/
def State.testLoad (s : State) (ext : Bool) : Nat :=
  if ext then s.get .NRG_BANK_EXT_MV else (s.get .NRG_BANK_INT_MV + 9) / 10

/-- In RUN a discharge measurement starts only while the margin covers its test load. -/
def State.loadAllowed (s : State) (ext : Bool) : Bool :=
  s.mode != .run || decide ((s.testLoad ext : Int) ≤ s.margin)

/-- An NRG_CAP_MEASURE that has waited 1 s for a margin that still does not allow its next test (R378). -/
def State.capTimeouts (s : State) : State :=
  s.forEach (List.range 5) fun s m =>
    match s.running m with
    | some p =>
      let due := p.wait == .capacitance && decide (p.note.getD 0 0 + 10 ^ 9 ≤ s.now)
      let held := (p.note.getD 1 0 == 0 && !s.loadAllowed false) || (p.note.getD 2 0 == 0 && !s.loadAllowed true)
      if due && held then s.replyTo m p St.energyRefused [] else s
    | none => s

/-- The sample of one microsecond: voltages and input current as the meters read them, whether the EXT_HOLD charger runs,
and the energy of the microsecond in picojoules per counter; counter 0 is VIN times its current. A VIN beyond its surge
rating is stress for which the manual gives no behaviour (21 R535). -/
def execLedgerSample (vinMv iinMa intMv extMv : BitVec 16) (charging : Bool) (domains : List (Fin 64 × Nat))
    (s : State) : Out :=
  if s.mode == .off then .next s
  else if 45000 < vinMv.toNat then .fault .beyondRatings
  else
    let s := s.sampleVin vinMv.toNat iinMa.toNat
    let s := (s.put .NRG_BANK_INT_MV intMv.toNat).put .NRG_BANK_EXT_MV extMv.toNat
    let s := s.countEnergy 0 (vinMv.toNat * iinMa.toNat)
    let s := domains.foldl (fun s d => if d.1.val = 0 then s else s.countEnergy d.1.val d.2) s
    let s := (s.putFlag .NRG_STAT_VIN_LOW (decide (vinMv.toNat < 8000))).putFlag .NRG_STAT_EXT_CHARGING charging
    .next s.recompute.capTimeouts

/-! ## Capacitance (R357, R378) -/

def capField (ext : Bool) : Fld := if ext then .NRG_CAP_EXT_CAP else .NRG_CAP_INT_CAP
def capValid (ext : Bool) : Fld := if ext then .NRG_CAP_EXT_VALID else .NRG_CAP_INT_VALID
def capMethod (ext : Bool) : Fld := if ext then .NRG_CAP_EXT_METHOD else .NRG_CAP_INT_METHOD

/-- A measured capacitance takes effect; EXT_HOLD below 10 µF counts as absent (R355). -/
def State.takeCapacitance (s : State) (ext : Bool) (cap method : Nat) : State :=
  let c := if ext && cap < 100 then 0 else min cap 0xFFFFF
  (((s.put (capField ext) c).putFlag (capValid ext) true).put (capMethod ext) method).recompute

/-- C of the charge method, in tenths of a microfarad: I × Δt / 4.0 V, from milliamperes and microseconds. -/
def chargeCapacitance (ma us : Nat) : Nat := ma * us / 400

/-- C of the discharge method: 0.2 A for 0.5 ms or 5 ms over the drop in millivolts; a drop of zero leaves it open. -/
def State.dischargeCapacitance (s : State) (ext : Bool) (drop : Nat) : State × Nat :=
  if drop = 0 then (s.spend, (Config.capacitance s.freeCount).toNat)
  else (s, (if ext then 10000000 else 1000000) / drop)

/-- The packet of an NRG_CAP_MEASURE that still waits for this bank. -/
def State.capWaiter (s : State) (ext : Bool) : Option (Nat × Packet) :=
  (List.range 5).findSome? fun m =>
    match s.running m with
    | some p => if p.wait == .capacitance && p.note.getD (if ext then 2 else 1) 0 == 0 then some (m, p) else none
    | none => none

/-- A discharge result that a command asked for: both take effect together, with the reply. -/
def State.capForCommand (s : State) (m : Nat) (p : Packet) (ext : Bool) (cap : Nat) : State :=
  let note := p.note.set (if ext then 2 else 1) (cap + 1)
  match note with
  | [_, i, e] =>
    if i = 0 || e = 0 then s.setRunning m (some { p with note })
    else
      let s := (s.takeCapacitance false (i - 1) 2).takeCapacitance true (e - 1) 2
      s.replyTo m p St.ok [BitVec.ofNat 32 (s.shown .NRG_CAP_INT 0), BitVec.ofNat 32 (s.shown .NRG_CAP_EXT 0)]
  | _ => s

/-- A capacitance measurement of one bank ends: by the charge method with the charger's current in milliamperes and the
time of the rise from 4.0 V to 8.0 V in microseconds, in any mode in which the chargers run; or, in BOOT and RUN, by the
discharge method with the drop in millivolts. -/
def execCapacitanceMeasurement (ext discharge : Bool) (current time drop : Nat) (s : State) : Out :=
  if s.mode == .off || s.mode == .holdup then .next s
  else if !discharge then .next (s.takeCapacitance ext (chargeCapacitance current time) 1)
  else if !(s.mode == .boot || s.mode == .run) || !s.loadAllowed ext then .next s
  else
    let (s, cap) := s.dischargeCapacitance ext drop
    match s.capWaiter ext with
    | some (m, p) => .next (s.capForCommand m p ext cap)
    | none => .next (s.takeCapacitance ext cap 2)

/-- The EXT_HOLD charger has not reached 8.0 V within 2 s: the bank counts as absent (R357). -/
def execExtHoldChargeTimeout (s : State) : Out :=
  if s.mode == .off || s.mode == .holdup then .next s else .next (s.takeCapacitance true 0 1)

/-! ## RESERVE_SHORT (R367) -/

/-- The commit of R367, once programs may start in the flash banks of the copies. -/
def State.shortCommit (s : State) (fails : List (Nat × Nat)) : State := if s.logsFree then s.commitStaged fails else s

/-- The margin has stayed below 0 for 100 µs in RUN: no operation is admitted, and every staged change is committed, at once
or, where the flash banks of the copies are in use, when the command comes again; `fails` are the journal programs that fail
per transaction and copy. -/
def execReserveShort (fails : List (Nat × Nat)) (s : State) : Out :=
  if s.mode == .run && !s.flag .NRG_STAT_RESERVE_SHORT && decide (s.margin < 0) then
    let s := (s.putFlag .NRG_STAT_RESERVE_SHORT true).logEvent 0x0401 s.marginWord
    .next (s.shortCommit fails)
  else .next (if s.mode == .run && s.flag .NRG_STAT_RESERVE_SHORT then s.shortCommit fails else s)

/-- The margin has stayed at or above 0 for 1 ms. -/
def execReserveShortClear (s : State) : Out :=
  if s.flag .NRG_STAT_RESERVE_SHORT && decide (0 ≤ s.margin) then .next (s.putFlag .NRG_STAT_RESERVE_SHORT false)
  else .next s

/-! ## HOLDUP (R368 to R375) -/

/-- The retained outcome of the HOLDUP that begins. -/
def State.openOutcome (s : State) (fromBoot : Bool) : State :=
  let s := ((s.put .NRG_HU_LAST_OUTCOME 0).putFlag .NRG_HU_LAST_VIN_RETURNED false).putFlag .NRG_HU_LAST_SELFTEST false
  let s := (s.putFlag .NRG_HU_LAST_SAFE_DURING false).putFlag .NRG_HU_LAST_FROM_BOOT fromBoot
  (s.put .NRG_HU_LAST_PAGES0 0).put .NRG_HU_LAST_PAGES1 0

/-- Step 4 of Table 12-4: fabric, DMA, scrubbers, slice tests, loads and packets stop. -/
def State.stopForHoldup (s : State) : State :=
  let s := ((s.fenceAll fun f => { f with holdup := true }).dropJobs).idleAllLanes
  let s := (((s.setQueries []).stopLanes).cutLoads false).stopAllPlls
  let s := (s.forEach (List.range 128) fun s n => s.putFlag .BNK_SCRUB_RUNNING false n).dropSlices.cutProgram
  let s := { s with mail := { s.mail with running := [] }, power := { s.power with orderly := none } }
  (s.showAllPins).put .CAL_STAT_RUN 0

/-- Units that have not started are not started. Only the erases in flight stay encumbered; every erase is suspended until step 9 (R365, R374, 11 R322). -/
def State.suspendErases (s : State) : State :=
  let s := s.dropWaitingUnits
  let s := { s with ledger := { s.ledger with
    admitted := (s.slate.units.filter fun u : FlashUnit => u.erase).map fun u : FlashUnit => (u.cost.getD 1, u.block) } }
  s.forEach (List.range 8) fun s b => s.suspendBank b true

/-- Steps 2 to 5 of Table 12-4. -/
def State.enterHoldup (s : State) : State :=
  let before := s.mode
  let fromBoot := before == .boot
  let s := (s.abortDoze 1).putFlag .NRG_STAT_HOLDUP true |>.putFlag .NRG_STAT_VIN_LOW true
  let s := { s with power := { s.power with vinPresent := false } }
  let s := (s.bump .SAF_DIAG_CNT_COUNT 8).logEvent 0x0402 s.pendingBytes (rounds s.pendingBytes)
  let l := s.commitList (s.addedRecords fromBoot 1 before.code)
  let seq := (s.copy s.sourceCopy).seq
  let plan := fun c => if s.copyOut c || s.journalWorn then [] else pendingTxns seq l
  let s := ((s.openOutcome fromBoot).setMode .holdup).put .DEV_MODE_PHASE 0
  let s := { s with holdup := {
    copy0 := plan 0, copy1 := plan 1, startTime := s.now, startEnergy := s.get .NRG_CNT_UJ 5 } }
  (s.stopForHoldup).suspendErases

/-- VIN has stayed below 8.0 V for 1 µs. -/
def execHoldupEntry (s : State) : Out :=
  match s.mode with
  | .boot | .run | .doze | .safe => .next s.enterHoldup
  | .off | .holdup => .next s

/-- VIN is good again after detection (Table 12-5). -/
def execVinReturn (s : State) : Out :=
  if s.mode == .holdup then
    .next ({ s with power := { s.power with vinPresent := true } }.putFlag .NRG_HU_LAST_VIN_RETURNED true)
  else .next s

/-- Step 8, and the self-test of step 9 where it is admitted (R370, R372, R374; 18 R493). -/
def State.closeHoldup (s : State) : State :=
  let s := if s.holdup.stopped then s else s.skipOld.writeArchive 32
  let s := if s.get .NRG_HU_LAST_OUTCOME = 0 then s.put .NRG_HU_LAST_OUTCOME 1 else s
  let s := { s with holdup := { s.holdup with closed := true } }
  let s := s.setUnits (s.slate.units.map fun u : FlashUnit => { u with suspended := false, long := false })
  if decide (s.eEnc + 72000 ≤ s.eAvail) && !s.flag .NRG_HU_LAST_VIN_RETURNED && s.lc != lcBlank then
    ((s.admitOp 13 0).runProgram 1 (programSteps 1 [])).putFlag .NRG_HU_LAST_SELFTEST true
  else s

/-- The next program round of the commit, of which the page `fail` may fail; or, once no transaction is left, the close.
Programs that were in flight complete first (step 5). -/
def execHoldupRound (fail : Option (Fin 16)) (s : State) : Out :=
  if s.mode != .holdup || s.holdup.closed || s.slate.units.any (fun u => !u.erase) || s.test.program.isSome then .next s
  else if s.power.mgcHalted && !s.holdup.stopped then .next (s.huStop 4)
  else match s.huNext with
    | none => .next s.closeHoldup
    | some c =>
      if s.eAvail < 3200 then .next (s.huStop 3)
      else .next (s.huRound c fail)

/-- The last admitted erase and any self-test have ended (R374): OFF. -/
def execHoldupOff (s : State) : Out :=
  if s.mode == .holdup && s.holdup.closed && s.slate.units.isEmpty && s.test.program.isNone then
    let s := (s.put .NRG_HU_TIME_DURATION_US (min ((s.now - s.holdup.startTime) / 1000) 0xFFFF)).put .NRG_HU_TIME_OFF_MV
      (s.get .NRG_BANK_INT_MV)
    .next (s.put .NRG_HU_ENERGY_UJ (min (s.get .NRG_CNT_UJ 5 - s.holdup.startEnergy) 0xFFFFFFFF)).enterOff
  else .next s

/-! ## Commands (R377, R378) -/

/-- NRG_QUERY. -/
def execNrgQuery (m : Fin 5) (s : State) : Out :=
  .next <| s.command m 0x40 fun p =>
    if 14 ≤ p.p 0 then s.reply m St.badParam
    else s.reply m St.ok [BitVec.ofNat 32 (s.admits (p.p 0)).toNat, BitVec.ofNat 32 s.marginWord]

/-- NRG_SNAPSHOT_READ; `bad`: the item's pages are uncorrectable in both copies. -/
def execNrgSnapshotRead (m : Fin 5) (bad : Bool) (s : State) : Out :=
  .next <| s.command m 0x41 fun p =>
    if p.p 0 < 16384 then s.reply m St.badParam
    else
      let (s, st) := s.useBank (mailOwner m) (p.p64 1) 16384
      if st ≠ St.ok then s.reply m st
      else match s.systemItem 6 with
        | none => s.reply m St.ok [0]
        | some b => if bad then s.reply m St.poisoned else (s.writeBankBytes (p.p64 1) b).reply m St.ok [1]

/-- NRG_CAP_MEASURE: both banks are measured again by the discharge method, each once the margin allows it. -/
def execNrgCapMeasure (m : Fin 5) (s : State) : Out :=
  .next <| s.command m 0x42 fun p => s.await m { p with note := [s.now, 0, 0] } .capacitance

end Sys2Proof.Machine
end

