-- ==== Sys2Proof/Machine/Routing.lean ====
section
/-! DEFINITION. The geometry of a region, the routing wires and clock tracks that reach its elements, and the value of a
signal (03 R78, R81, R82, R84 to R86, R100 to R102, R106; 20 R522). -/

namespace Sys2Proof.Machine

set_option Elab.async false

/-! ## Geometry (R81, R82, Table 3-2)

A region has 42 columns, 21 to a sector, and 80 rows, 16 to a sector. -/

/-- Column within the sector of logic tile column `c`. -/
def logicColumn (c : Nat) : Nat :=
  if c < 3 then c else if c < 6 then c + 1 else if c < 10 then c + 2 else if c < 13 then c + 3 else c + 4

/-- Column within the sector of RAM tile `t`, and of MAC tile `m`. -/
def ramColumn (t : Nat) : Nat := if t < 8 then 3 else if t < 16 then 12 else 20
def macColumn (m : Nat) : Nat := if m < 8 then 7 else 16

/-- Sector of a frame within its region, and the frame's column and row in the region: of a RAM or MAC tile, its lower
row. -/
def sectorOf (f : Nat) : Nat := frameOffset f / 392

def columnOf (f : Nat) : Nat :=
  let o := sectorOffset f
  21 * (sectorOf f % 2) +
    (if o < 256 then logicColumn (o / 16) else if o < 376 then ramColumn ((o - 256) / 5) else macColumn (o - 376))

def rowOf (f : Nat) : Nat :=
  let o := sectorOffset f
  16 * (sectorOf f / 2) +
    (if o < 256 then o % 16 else if o < 376 then 2 * ((o - 256) / 5 % 8) else 2 * ((o - 376) % 8))

/-- The logic tile of region k at column x and row y. -/
def logicAt (k x y : Nat) : Option Nat :=
  let sector := 2 * (y / 16) + x / 21
  if 42 ≤ x ∨ 80 ≤ y then none
  else ((List.range 16).find? fun c => logicColumn c == x % 21).map fun c =>
    4000 * k + 392 * sector + 16 * c + y % 16

/-- The first content frame of the RAM tile, and the frame of the MAC tile, at column x and row y. -/
def ramAt (k x y : Nat) : Option Nat :=
  let sector := 2 * (y / 16) + x / 21
  if 42 ≤ x ∨ 80 ≤ y then none
  else ((List.range 24).find? fun t => ramColumn t == x % 21 && t % 8 == y % 16 / 2).map fun t =>
    4000 * k + 392 * sector + 256 + 5 * t

def macAt (k x y : Nat) : Option Nat :=
  let sector := 2 * (y / 16) + x / 21
  if 42 ≤ x ∨ 80 ≤ y then none
  else ((List.range 16).find? fun m => macColumn m == x % 21 && m % 8 == y % 16 / 2).map fun m =>
    4000 * k + 392 * sector + 376 + m

/-- A tile on the region's outer edge, beside the periphery; the outermost column on the right is RAM column C. -/
def atEdge (x y : Nat) : Bool := x == 0 || decide (40 ≤ x) || y == 0 || y == 79

/-! ## Wires (Table 3-3) and signals -/

/-- Directions N, E, S, W. -/
inductive Dir | n | e | s | w
  deriving DecidableEq, Repr

/-- A routing wire that starts at a logic tile. Direct links go up or down from a cluster. -/
inductive Wire
  | own (c i : Nat)
  | direct (c i : Nat) (up : Bool)
  | single (d : Dir) (i : Nat)
  | quad (d : Dir) (i : Nat)
  | long (d : Dir) (i : Nat)
  deriving DecidableEq, Repr

/-- A place where a signal can be observed. Every one belongs to one region. -/
inductive Node
  | const (b : Bool)
  | wire (tile : Nat) (w : Wire)
  | y0 (tile le : Nat)
  | y1 (tile le : Nat)
  | qa (tile le : Nat)
  | qb (tile le : Nat)
  | co (tile le : Nat)
  /-- Bit i of the output of port A (false) or B of a RAM block, and its flags. -/
  | ram (block : Nat) (b : Bool) (i : Nat)
  | ramFlag (block i : Nat)
  /-- Bit i of Q, of P, and the sticky flags of a MAC block. -/
  | macQ (mac i : Nat)
  | macP (mac i : Nat)
  | macFlag (mac i : Nat)
  /-- Signal i of periphery function `p` of region k: a pin or region port by its frame of Table 4-6, or a lane at 80 and
  81. -/
  | edge (k p i : Nat)
  /-- Incoming signal i of region k's channel across edge e, and its CHAN_OPEN. -/
  | channel (k e i : Nat)
  | chanOpen (k e : Nat)
  /-- Outgoing signal i of that channel. -/
  | toChannel (k e i : Nat)
  deriving DecidableEq, Repr

/-- Wires that start at (x − dx·h, y − dy·h), for h from 1 to the reach, and so pass (x, y): they stop at the region's
boundary. That a wire can be taken at every tile it passes is a DESIGN CHOICE: the taps are the database's (log entry 93). -/
def passing (k x y reach count : Nat) (d : Dir) (w : Nat → Wire) : List Node :=
  (List.range reach).flatMap fun h =>
    let from' : Option Nat := match d with
      | .n => if h + 1 ≤ y then logicAt k x (y - (h + 1)) else none
      | .s => logicAt k x (y + (h + 1))
      | .e => if h + 1 ≤ x then logicAt k (x - (h + 1)) y else none
      | .w => logicAt k (x + (h + 1)) y
    match from' with
    | none => []
    | some t => (List.range count).map fun i => .wire t (w i)

/-- Every wire of Table 3-3 beyond the local lines and direct links that passes (x, y). -/
def wiresAt (k x y : Nat) : List Node :=
  [Dir.n, .e, .s, .w].flatMap fun d =>
    passing k x y 1 32 d (.single d) ++ passing k x y 4 24 d (.quad d) ++ passing k x y 16 8 d (.long d)

/-- The outputs of the clusters of a logic tile. CO of the topmost element of a sector column reaches routing (R78). -/
def tileOutputs (t : Nat) : List Node :=
  ((List.range 32).flatMap fun le => [.y0 t le, .y1 t le, .qa t le, .qb t le]) ++
    (if rowOf t % 16 = 15 then [.co t 31] else [])

/-- The outputs of the RAM and MAC tiles beside (x, y). -/
def blockOutputs (k x y : Nat) : List Node :=
  ([x + 1, x - 1].flatMap fun c => ((ramAt k c y).map fun f =>
    ((List.range 80).flatMap fun i => [Node.ram f false i, .ram f true i]) ++ (List.range 10).map (Node.ramFlag f)).getD []) ++
  ([x + 1, x - 1].flatMap fun c => ((macAt k c y).map fun f =>
    (List.range 48).map (Node.macQ f) ++ (List.range 64).map (Node.macP f) ++ (List.range 3).map (Node.macFlag f)).getD [])

/-- What the region's periphery gives its edge tiles: pins, region ports, lanes and channels. -/
def edgeOutputs (k : Nat) : List Node :=
  ((List.range 48).flatMap fun p => [Node.edge k p 0, .edge k p 1]) ++
  ([56, 60, 64, 68].flatMap fun p => (List.range 512).map (Node.edge k p)) ++
  ([80, 81].flatMap fun p => (List.range 145).map (Node.edge k p)) ++
  ((List.range 4).flatMap fun e => (List.range 512).map (Node.channel k e) ++ [.chanOpen k e])

/-- What can drive the wires of a logic tile, through its switchbox. -/
def tileSources (t : Nat) : List Node :=
  let k := frameRegion t
  let x := columnOf t
  let y := rowOf t
  tileOutputs t ++ wiresAt k x y ++ blockOutputs k x y ++ (if atEdge x y then edgeOutputs k else [])

/-- The direct links that arrive at cluster c of a tile: from the vertically adjacent clusters. -/
def directAt (t c : Nat) : List Node :=
  let k := frameRegion t
  let x := columnOf t
  let y := rowOf t
  let below := if c = 0 then (if y = 0 then none else (logicAt k x (y - 1)).map (·, 3)) else some (t, c - 1)
  let above := if c = 3 then (logicAt k x (y + 1)).map (·, 0) else some (t, c + 1)
  (below.map fun b => (List.range 8).map fun i => Node.wire b.1 (.direct b.2 i true)).getD [] ++
    (above.map fun a => (List.range 8).map fun i => Node.wire a.1 (.direct a.2 i false)).getD []

/-- The place that a choice names; one beyond the list is a constant. -/
def pick (from' : List Node) (choice : Nat) : Node := from'.getD choice (.const (choice.testBit 0))

/-- Number of a wire among those that start at its tile, for `Config.route`. -/
def Wire.number : Wire → Nat
  | .own c i => 64 * c + i
  | .direct c i up => 256 + 16 * c + 8 * up.toNat + i
  | .single d i => 512 + 32 * dirNumber d + i
  | .quad d i => 768 + 32 * dirNumber d + i
  | .long d i => 1024 + 32 * dirNumber d + i
where
  dirNumber : Dir → Nat
    | .n => 0 | .e => 1 | .s => 2 | .w => 3

/-- What drives a wire: a local line the tile's sources and the direct links of its cluster, a direct link an output of
its cluster, any other wire the tile's sources. -/
def State.driver (s : State) (t : Nat) (w : Wire) : Node :=
  let choice := (Config.route (s.cells t) 0 w.number).toNat
  match w with
  | .own c _ => pick (tileSources t ++ directAt t c) choice
  | .direct c _ _ =>
    pick ((List.range 8).flatMap fun i => [.y0 t (8 * c + i), .y1 t (8 * c + i), .qa t (8 * c + i), .qb t (8 * c + i)]) choice
  | _ => pick (tileSources t) choice

/-! ## Inputs of the elements -/

/-- Input i of logic element `le` of a tile (0 to 5 the LUT's, 6 BX, 7 CI from routing): a local line of its cluster. -/
def State.leSource (s : State) (t le i : Nat) : Node :=
  pick ((List.range 48).map fun j => .wire t (.own (le / 8) j)) (Config.route (s.cells t) 1 (8 * le + i)).toNat

/-- CI (R78): CO of the element below in the chain, or, at the lowest element of a chain (settings bit 82, and the lowest
element of a sector column), a signal or constant from routing. -/
def State.carrySource (s : State) (t le : Nat) : Node :=
  if (Config.leCells (s.cells t) le).getLsbD 82 || (le = 0 && rowOf t % 16 = 0) then s.leSource t le 7
  else if 0 < le then .co t (le - 1)
  else .co ((logicAt (frameRegion t) (columnOf t) (rowOf t - 1)).getD t) 31

/-- Control line i of cluster c: 0 to 3 the clock enables, 4 and 5 the set/reset lines (R79). -/
def State.controlSource (s : State) (t c i : Nat) : Node :=
  pick ((List.range 48).map fun j => .wire t (.own c j)) (Config.route (s.cells t) 2 (8 * c + i)).toNat

/-- Input i of a RAM or MAC tile: a wire that passes one of its two rows. `f` is the frame that holds its settings. -/
def State.blockSource (s : State) (f i : Nat) : Node :=
  let k := frameRegion f
  pick (wiresAt k (columnOf f) (rowOf f) ++ wiresAt k (columnOf f) (rowOf f + 1)) (Config.route (s.cells f) 3 i).toNat

/-- Signal i that the periphery function with cells `f` of region k takes from the fabric: a wire that passes a tile of
the region's edge. -/
def State.edgeSource (s : State) (k f i : Nat) : Node :=
  let choice := (Config.route (s.cells f) 4 i).toNat
  let edges := (List.range 42).flatMap fun x => ((List.range 80).filter (atEdge x)).map fun y => (x, y)
  let (x, y) := edges.getD (choice % 4096) (0, 0)
  pick (wiresAt k x y) (choice / 4096)

/-! ## Values -/

/-- The level that the pin drives or receives, as the input path sees it: 0 while VCCIO is off or the pin malformed (20
R520, R521). -/
def State.gioReads (s : State) (n : Nat) : Bool :=
  s.get .GIO_BANK_STAT_VCCIO (n / 32) != 0 && !(s.gioPin n).malformed

/-- What periphery function `p` of region k gives the fabric at its signal i. -/
def State.edgeValue (s : State) (k p i : Nat) : Bool :=
  if p < 32 then
    s.gioReads (32 * k + p) && (if i = 0 then (s.gioPin (32 * k + p)).inRise else (s.gioPin (32 * k + p)).inFall)
  else if p < 48 then (match fieldGroupOfRegion k with
    | some g => s.bit .FIO_IN_IN (p - 32) g
    | none => false)
  else if p < 72 then
    let r := s.port (4 * k + (p - 56) / 4)
    let rsp := r.rsp.headD { dtag := 0, beats := [] }
    let beat := rsp.beats.getD rsp.sent { code := .ok, wok := 0, data := 0 }
    if i = 0 then r.resync
    else if i < 9 then (s.parent k).testBit (i - 1)
    else if i = 9 then !r.rsp.isEmpty
    else if i < 16 then rsp.dtag.testBit (i - 10)
    else if i < 20 then beat.code.code.testBit (i - 16)
    else if i = 20 then decide (rsp.sent + 1 = rsp.beats.length)
    else if i < 277 then beat.data.getLsbD (i - 21)
    else i = 277 && !r.req.isEmpty
  else
    let l := 8 * (k / 4) + 2 * (k % 4) + (p - 80)
    match (s.lane l).presented with
    | none => false
    | some w => if i < 128 then w.data.getLsbD i else if i < 144 then w.flags.getLsbD (i - 128) else true

/-- Output bit i of a RAM block's port. -/
def State.ramOutBit (s : State) (f : Nat) (b : Bool) (i : Nat) : Bool :=
  let r := s.ramState f
  ((if b then r.outB else r.outA).getD (Config.ramOutput f)).getLsbD i

/-- Flags of a RAM block: SBE and DBE of its ports, and those of FIFO mode. -/
def State.ramFlagBit (s : State) (f i : Nat) : Bool :=
  let r := s.ramState f
  let c := s.ramConfig f
  [r.sbeA, r.dbeA, r.sbeB, r.dbeB, r.full (ramDepth c.widthA), r.empty, r.almostFull c, r.almostEmpty c, r.overflow,
    r.underflow].getD i false

/-- Bits of nodes as a number. -/
def bitsNow (ev : Node → Bool) (n : Nat) (f : Nat → Node) : Nat :=
  (List.range n).foldl (fun v i => v + (ev (f i)).toNat * 2 ^ i) 0

/-- What stands at the inputs of a MAC block. -/
def State.macInputs (s : State) (ev : Node → Bool) (f : Nat) : MacEdge :=
  let b := fun lo n => bitsNow ev n fun i => s.blockSource f (lo + i)
  let z := b 116 2
  let below := if rowOf f % 16 = 0 then none else macAt (frameRegion f) (columnOf f) (rowOf f - 2)
  { mac := f
    input :=
      { a := BitVec.ofNat 24 (b 0 24), d := BitVec.ofNat 24 (b 24 24), b := BitVec.ofNat 20 (b 48 20)
        c := BitVec.ofNat 48 (b 68 48)
        z := if z = 0 then .zero else if z = 1 then .c else if z = 2 then .p else .casc
        negate := ev (s.blockSource f 118), preSub := ev (s.blockSource f 119), bypass := ev (s.blockSource f 120) }
    casc := match below with
      | some g => BitVec.ofNat 64 (bitsNow ev 64 fun i => .macP g i)
      | none => Config.openCascade f
    clearFlags := ev (s.blockSource f 121) }

/-- The inputs of a logic element, but for its clocks. -/
def State.leInputs (s : State) (ev : Node → Bool) (t le : Nat) (clocks : BitVec 2) : LeEdge :=
  { tile := t, le, clocks
    inputs := BitVec.ofNat 6 (bitsNow ev 6 (s.leSource t le))
    bx := ev (s.leSource t le 6), ci := ev (s.carrySource t le)
    enables := BitVec.ofNat 4 (bitsNow ev 4 (s.controlSource t (le / 8)))
    setReset := BitVec.ofNat 2 (bitsNow ev 2 fun i => s.controlSource t (le / 8) (4 + i)) }

/-- The outputs of a logic element now. -/
def State.leNow (s : State) (ev : Node → Bool) (t le : Nat) : LeOut :=
  leOutputs (Config.leCells (s.cells t) le) (BitVec.ofNat 6 (bitsNow ev 6 (s.leSource t le))) (ev (s.carrySource t le))

/-- The value at a node, from the values `ev` of the nodes before it (R84 to R86). -/
def State.nodeValue (s : State) (ev : Node → Bool) : Node → Bool
  | .const b => b
  | .wire t w => ev (s.driver t w)
  | .y0 t le => (s.leNow ev t le).y0
  | .y1 t le => (s.leNow ev t le).y1
  | .qa t le => s.flop (flopKey t le 0)
  | .qb t le => s.flop (flopKey t le 1)
  | .co t le => (s.leNow ev t le).co
  | .ram f b i => s.ramOutBit f b i
  | .ramFlag f i => s.ramFlagBit f i
  | .macQ f i => (macQ (s.macConfig f) ((s.macState f).output (s.macConfig f) (s.macInputs ev f))).1.getLsbD i
  | .macP f i => ((s.macState f).output (s.macConfig f) (s.macInputs ev f)).getLsbD i
  | .macFlag f i => [(s.macState f).ovf0, (s.macState f).ovf1, (s.macState f).qsat].getD i false
  | .edge k p i => s.edgeValue k p i
  | .channel k e i => s.channelSignal k e i (match channelAt k e with
      | some (_, other, side) => ev (.toChannel other side i)
      | none => false)
  | .chanOpen k e => s.chanOpen k e
  | .toChannel k e i => ev (s.edgeSource k (peripheryFrame k (72 + e)) i)

/-- The value at a node, through at most `n` places before it. A path that is longer runs in a loop of lookup tables and
wires without a register: its value is open. -/
def State.signalIn (s : State) : Nat → Node → Bool
  | 0 => fun _ => Config.loopValue s.freeCount
  | n + 1 => s.nodeValue (s.signalIn n)

/-- More than the nodes of two regions. -/
def State.signal (s : State) (x : Node) : Bool := s.signalIn (2 ^ 22) x

/-! ## Clocks at the elements (R102) -/

/-- Whether source `src` is one of those that have an edge now, and runs. -/
def State.hasEdge (s : State) (now : List ClockSource) (src : Option ClockSource) : Bool :=
  src.any fun x => now.contains x && s.sourceRuns x

/-- The regional track that clock i of a tile takes: one of its sector's; c is the cluster, 0 at a RAM or MAC tile. `f` is
the frame that holds the tile's settings. -/
def State.tileTrack (s : State) (f c i : Nat) : Option Nat :=
  (s.sectorTracks (frameRegion f) (sectorOf f))[(Config.tileTracks (s.cells f) c i).toNat]?

/-- Clock i of the tile has an edge. -/
def State.tileClock (s : State) (now : List ClockSource) (f c i : Nat) : Bool :=
  (s.tileTrack f c i).any fun t => s.hasEdge now (s.trackSource (frameRegion f) t)

/-- A regional track of region k has an edge. -/
def State.trackEdge (s : State) (now : List ClockSource) (k t : Nat) : Bool := s.hasEdge now (s.trackSource k t)

/-- What stands at a RAM block's inputs, in the order the database's sinks number them. -/
def State.ramInputs (s : State) (now : List ClockSource) (f : Nat) : RamEdge :=
  let ctl := f + 4
  let c := s.ramConfig f
  let port := fun (lo clock : Nat) =>
    let b := fun at' n => bitsNow s.signal n fun i => s.blockSource ctl (lo + at' + i)
    { edge := s.tileClock now ctl 0 clock, enable := s.signal (s.blockSource ctl lo)
      write := s.signal (s.blockSource ctl (lo + 1)), lanes := BitVec.ofNat 8 (b 2 8), addr := b 10 13
      data := BitVec.ofNat 80 (b 23 80) : RamPort }
  { block := f, a := port 0 c.clockA, b := port 128 c.clockB
    shared := c.clockA = c.clockB || s.tileTrack ctl 0 c.clockA = s.tileTrack ctl 0 c.clockB }

end Sys2Proof.Machine
end

