-- ==== Sys2Proof/Machine/FabricCmds.lean ====
section
/-! DEFINITION. A clock edge in the fabric of a region (03 R76 to R80, R89 to R99, R106, R107; 15 R437; 20 R518, R522). -/

namespace Sys2Proof.Machine

set_option Elab.async false

/-! ## General pins (20 R521, R522)

Pin settings: bits 10 and 9 the output register, bits 12 and 11 the input register (0 none, 1 SDR, else DDR), bits 16 to 13
their track, bit 17 LVDS. The signals a pin takes from the fabric are data, data for the time after a falling edge, and
output enable. -/

def GioPin.outMode (p : GioPin) : Nat := bitsOf p.settings 9 2
def GioPin.inMode (p : GioPin) : Nat := bitsOf p.settings 11 2
def GioPin.track (p : GioPin) : Nat := bitsOf p.settings 13 4

/-- The level that the design asks of pin n through data signal i: open drain never drives high. -/
def State.pinAsks (s : State) (k n i : Nat) : PinLevel :=
  let f := peripheryFrame k (n % 32)
  let d := s.signal (s.edgeSource k f i)
  if !s.signal (s.edgeSource k f 2) then .hiz
  else if d then (if (s.gioPin n).settings.testBit 8 then .hiz else .high) else .low

/-- The N side of an LVDS pair drives the complement of its P side. -/
def flipped : PinLevel → PinLevel
  | .hiz => .hiz | .low => .high | .high => .low

/-- What the input buffer of pin n gives: its pad, or that of its pair's P side; 0 while the bank's VCCIO is off, of a malformed
pin and of a pin that the image does not configure (R520, R521; 17 R465). -/
def State.padIn (s : State) (n : Nat) (pads : BitVec 32) : Bool :=
  pads.getLsbD (s.pairHead n % 32) && s.get .GIO_BANK_STAT_VCCIO (n / 32) != 0 && !(s.gioPin n).malformed &&
    s.cells (peripheryFrame (n / 32) (n % 32)) != 0

/-- GIO_PAD of region k's bank: the pad values last sampled. The commands that bring pad values are the samples (DESIGN
CHOICE, log entry 105). -/
def State.samplePads (s : State) (k : Nat) (pads : BitVec 32) : State :=
  match bankOfRegion k with
  | some b => s.put .GIO_PAD_PAD pads.toNat b
  | none => s

/-- Input paths of bank pin n before the edge: an input without a register follows its pad, that of a pair its P side. -/
def State.samplePad (s : State) (n : Nat) (pads : BitVec 32) : State :=
  let p := s.gioPin n
  if p.inMode = 0 then s.putGio n { p with inRise := s.padIn n pads } else s

/-- The registers of pin n at a rising or falling edge of their track, from the signals that stood before it in `s`. -/
def State.clockPin (s t : State) (k n : Nat) (rise fall : Bool) (pads : BitVec 32) : State :=
  let p := t.gioPin n
  let pad := s.padIn n pads
  let p := if rise && p.outMode ≠ 0 then { p with outRise := s.pinAsks k n 0, outFall := s.pinAsks k n 1 } else p
  let p := if rise && p.inMode ≠ 0 then { p with inRise := pad } else p
  t.putGio n (if fall && decide (2 ≤ p.inMode) then { p with inFall := pad } else p)

/-- What pin n drives once the edge has passed: the level its signals now ask for, or that of its output registers, a DDR
register showing its second level after the falling edge. -/
def State.drivePin (s : State) (k n : Nat) (rise fall : Bool) : State :=
  let head := s.pairHead n
  let p := s.gioPin head
  let old := p.design
  let v := if p.outMode = 0 then s.pinAsks k head 0
    else if rise then p.outRise
    else if fall && decide (2 ≤ p.outMode) then p.outFall
    else old
  s.putGio n { s.gioPin n with design := if head = n then v else flipped v }

/-- The general pins of region k, those of its bank. -/
def bankPins (k : Nat) : List Nat :=
  match bankOfRegion k with
  | some b => (List.range 32).map (32 * b + ·)
  | none => []

/-- The field pins of region k. -/
def groupPins (k : Nat) : List Nat :=
  match fieldGroupOfRegion k with
  | some g => (List.range 16).map (16 * g + ·)
  | none => []

/-- Every pin of region k follows its design after an edge, the P sides of pairs before their N sides. -/
def State.drivePins (s : State) (k : Nat) (rising falling : List ClockSource) : State :=
  let s := (bankPins k).foldl (fun t n =>
    let track := (s.gioPin (s.pairHead n)).track
    t.drivePin k n (s.trackEdge rising k track) (s.trackEdge falling k track)) s
  ((groupPins k).foldl (fun t n =>
    t.putFio n { t.fioPin n with design := s.signal (s.edgeSource k (peripheryFrame k (32 + n % 16)) 0) }) s).showPins k

/-! ## Lanes and ports -/

/-- The word that the design offers on a lane's TX channel, if VALID: 128 data bits, 16 flags. Table 4-6 names no frame for
the lanes; the model takes their sinks from the region's last control frame (DESIGN CHOICE, log entry 93). -/
def State.laneOffered (s : State) (k l : Nat) : Option LaneWord :=
  let src := fun i => s.edgeSource k (peripheryFrame k 79) (256 * (l % 2) + i)
  if s.signal (src 144) then
    some { data := BitVec.ofNat 128 (bitsNow s.signal 128 src), flags := BitVec.ofNat 16 (bitsNow s.signal 16 fun i => src (128 + i)) }
  else none

/-- The lanes of region k at an edge of the track of their FIFOs (15 R437). -/
def State.clockLanes (s t : State) (k : Nat) (rising : List ClockSource) : State :=
  t.forEach ((lanesOf k).filter fun l => s.trackEdge rising k (s.get .XCV_LANE_CFG_TRACK l)) fun t l =>
    (t.lanePresent l).laneOffer l (s.laneOffered k l)

/-- One beat of INI_RSP transfers: with the last, the tag is free and the response has reached the design (R109). -/
def RegionPort.takeRsp (r : RegionPort) : RegionPort :=
  match r.rsp with
  | [] => r
  | a :: rest =>
    if a.sent + 1 < a.beats.length then { r with rsp := { a with sent := a.sent + 1 } :: rest }
    else { r with rsp := rest, iniRsp := some (a.dtag, a.beats), busy := if a.free then r.busy else r.busy.erase a.dtag }

/-- One beat of TGT_REQ transfers: with the last, the request is delivered. None transfers before RESYNC_ACK (R113). -/
def RegionPort.takeReq (r : RegionPort) : RegionPort :=
  match r.req with
  | [] => r
  | (id, n) :: rest =>
    if r.resync then r
    else if 1 < n then { r with req := (id, n - 1) :: rest }
    else { r with req := rest, delivered := r.delivered ++ [some id] }

/-- Region port p at an edge of its port clock: each inbound channel transfers a beat where the design is ready (R106). -/
def State.clockPort (s : State) (rspReady reqReady : List (Fin 64)) (p : Nat) : State :=
  let r := s.port p
  let r := if rspReady.any (·.val == p) && !r.resync then r.takeRsp else r
  s.putPort p (if reqReady.any (·.val == p) then r.takeReq else r)

/-- The region ports of region k whose clock track has an edge. -/
def State.edgePorts (s : State) (k : Nat) (rising : List ClockSource) : List Nat :=
  ((List.range 4).map (4 * k + ·)).filter fun p => s.trackEdge rising k (s.portTrack p)

/-! ## The elements -/

/-- The frames of region k that are not in its periphery. -/
def elementFrames (k : Nat) : List Nat := (List.range 3920).map (4000 * k + ·)

/-- The clocked elements of region k at an edge: all capture what stood before it, in `s`. -/
def State.clockElements (s : State) (k : Nat) (rising : List ClockSource) : State :=
  let fs := elementFrames k
  let t := s.forEach (fs.filter isLogicFrame) fun t f => t.forEach (List.range 32) fun t le =>
    let clocks := BitVec.ofNat 2 ((s.tileClock rising f (le / 8) 0).toNat + 2 * (s.tileClock rising f (le / 8) 1).toNat)
    t.leEdge (s.leInputs s.signal f le clocks)
  let t := t.forEach (fs.filter isRamBlock) fun t f =>
    let e := s.ramInputs rising f
    if e.a.edge || e.b.edge then t.ramEdge e else t
  t.forEach (fs.filter isMacFrame) fun t f =>
    if s.tileClock rising f 0 (s.macConfig f).clock then t.macEdge (s.macInputs s.signal f) else t

/-- FABRIC_CLOCK_EDGE: the sources `rising` have a rising and `falling` a falling edge, seen by region k with `pads` at its
general pins; `rspReady` and `reqReady` are the ports whose design is ready on INI_RSP and on TGT_REQ. Everything that one of the region's tracks clocks captures; then the pins follow. In a region without running
clocks only what comes in on the lanes' lines and the pads' samples move. Flip-flops, blocks and FIFOs act on rising edges:
DEDUCED (log entry 93). -/
def execFabricClockEdge (k : Fin 16) (rising falling : List ClockSource) (pads : BitVec 32) (lanes : List LaneEdge)
    (rspReady reqReady : List (Fin 64)) (s : State) : Out :=
  .next <| if !s.coreOn then s
    else
      let s := ((lanes.filter fun e => laneRegion e.lane.val == k.val).foldl State.laneEdge s).samplePads k.val pads
      if !s.regionRuns k.val then s
      else
        let s := (bankPins k.val).foldl (fun t n => t.samplePad n pads) s
        let t := s.clockElements k.val rising
        let t := (bankPins k.val).foldl (fun t n =>
          s.clockPin t k.val n (s.trackEdge rising k.val (s.gioPin n).track) (s.trackEdge falling k.val (s.gioPin n).track) pads) t
        let t := s.clockLanes t k.val rising
        let t := t.forEach (s.edgePorts k.val rising) fun t p => t.clockPort rspReady reqReady p
        t.spend.drivePins k.val rising falling

end Sys2Proof.Machine
end

