-- ==== Sys2Proof/Machine/HostCmds.lean ====
section
/-! DEFINITION. The commands of spec/02: links and host resets, BAR TLPs, the SPI port, mailboxes, packets, and the host
attachment record; and the completions of 07 R205 and R217. -/

namespace Sys2Proof.Machine

set_option Elab.async false

/-! ## Links (R47, R57, R74) -/

/-- PERSTk_N rises: link training may start (R57 step 4). The edge is link activity (13 R389). -/
def execPerstRelease (k : Fin 4) (s : State) : Out :=
  let e := s.endpoint k
  if e.perstHigh then .next s else .next ((s.putEndpoint k { e with perstHigh := true }).linkActivity k)

/-- The link of endpoint k, enabled and out of PERST, trains at a speed and width within its configuration. -/
def execLinkUp (k : Fin 4) (gen : Fin 6) (width : Fin 9) (s : State) : Out :=
  let fits := decide (1 ≤ gen.val) && decide (gen.val ≤ s.get .MBX_EP_STAT_CFG_GEN k) &&
    [1, 2, 4, 8].contains width.val && decide (width.val ≤ 2 ^ s.get .MBX_EP_STAT_CFG_WIDTH k)
  if s.coreOn && s.flag .MBX_EP_STAT_ENABLED k && (s.endpoint k).perstHigh && !s.linkUp k && fits then
    let s := (s.putFlag .MBX_EP_STAT_LINK_UP true k).put .MBX_EP_STAT_GEN gen k
    .next ((s.put .MBX_EP_STAT_WIDTH width k).linkActivity k)
  else .next s

/-- PERSTk_N falls: a host reset (R74). With the core off only the pin's level is kept. -/
def execPerstLow (k : Fin 4) (s : State) : Out :=
  let e := s.endpoint k
  if !e.perstHigh then .next s
  else
    let s := s.putEndpoint k { e with perstHigh := false }
    if s.coreOn then .next (((s.dropLink k).hostReset k 1).linkActivity k) else .next s

/-- A PCIe hot reset arrives over the link, which goes down and trains again. -/
def execHotReset (k : Fin 4) (s : State) : Out :=
  if s.coreOn && s.linkUp k then .next (((s.dropLink k).hostReset k 2).linkActivity k) else .next s

/-- The link goes down. -/
def execLinkDown (k : Fin 4) (s : State) : Out :=
  if s.coreOn && s.linkUp k then .next (((s.dropLink k).hostReset k 3).linkActivity k) else .next s

/-- A Function Level Reset arrives over the link, which stays up. -/
def execFunctionLevelReset (k : Fin 4) (s : State) : Out :=
  if s.coreOn && s.linkUp k then .next (s.hostReset k 4) else .next s

/-- The clearing of mailbox m ends, and the CLEAR write that asked for it, if any, is acknowledged (R74, R75). -/
def execMailboxClearDone (m : Fin 5) (s : State) : Out :=
  if !s.clearingMail m then .next s
  else
    let ack := SMap.look 0 s.mail.clearAck m
    let s := { s with mail := { s.mail with
        clearing := SMap.put false s.mail.clearing m false, clearAck := SMap.put 0 s.mail.clearAck m 0 } }
    if ack = 0 then .next s
    else if ack = 1 then .next { s with answer := some { codes := [.ok], words := [] } }
    else if ack = 2 then .next (s.noteSpi .ok)
    else match s.spine.taken.find? (·.id + 3 == ack) with
      | some t => .next (s.answerTxn t t.okWrite)
      | none => .next s

/-- An endpoint enters or leaves D3hot or ASPM L1 (R51); an exit from L1 is link activity (13 R389). -/
def execLinkPowerState (k : Fin 4) (change : LinkPower) (s : State) : Out :=
  let e := s.endpoint k
  if !(s.coreOn && s.linkUp k) then .next s
  else match change with
    | .enterD3hot => .next (s.putEndpoint k { e with d3hot := true })
    | .leaveD3hot => .next (s.putEndpoint k { e with d3hot := false })
    | .enterL1 => .next (s.putEndpoint k { e with aspmL1 := true })
    | .leaveL1 => if e.aspmL1 then .next ((s.putEndpoint k { e with aspmL1 := false }).linkActivity k) else .next s

/-! ## BAR TLPs (R52 to R56) -/

/-- A BAR TLP of the doublewords `ds` at a doubleword-aligned offset reaches endpoint k, or a configuration request of one
doubleword, which has no row of its own in the table. In D3hot the function answers Unsupported Request to all but
configuration requests, as PCIe Base 5.0 has it. -/
def execBarTlp (k : Fin 4) (bar : Bar) (offset : BitVec 32) (write : Bool) (ds : List (BitVec 4 × BitVec 32)) (s : State) :
    Out :=
  if !(s.coreOn && s.linkUp k && s.flag .MBX_EP_STAT_ENABLED k) then .next s
  else
    let e := s.endpoint k
    let s := if e.aspmL1 then (s.putEndpoint k { e with aspmL1 := false }).linkActivity k else s
    if e.d3hot && bar != .config then
      .next (if write then s.reportAer k else s.completeTo k { codes := [], words := [], unsupported := true })
    else .next (s.barTlp k bar (offset.toNat / 4 * 4) write ds)

/-! ## The SPI port (R59 to R61) -/

/-- READ: four wait bytes, then each word; where `late`, a last word that was not ready. -/
def execSpiRead (addr : BitVec 24) (words : Nat) (late : Bool) (s : State) : Out :=
  if !s.coreOn || s.hosts.spi.op.isSome then .next s
  else
    let (t, bs) := s.spiReadWords addr.toNat words
    let out := List.replicate 4 0 ++ bs ++ (if late then List.replicate 5 0xFF else [])
    .next (t.putSpi { t.hosts.spi with op := some .read, out })

/-- The fourth data byte of a word of a WRITE. The first word is at the transaction's address, each later one 4 above its
predecessor. The device drives 0x00 throughout: for the operation, the address and each data byte (Table 2-5). -/
def execSpiWriteWord (addr : BitVec 24) (data : BitVec 32) (s : State) : Out :=
  let p := s.hosts.spi
  if !s.coreOn then .next s
  else match p.op with
    | none => .next (((s.putSpi { p with op := some .write, next := addr.toNat + 4, out := List.replicate 8 0 })).spiWriteWord addr.toNat data)
    | some .write => .next ((s.putSpi { p with next := p.next + 4, out := p.out ++ List.replicate 4 0 }).spiWriteWord p.next data)
    | _ => .next s

/-- STATUS, whose read clears the count. -/
def execSpiStatus (s : State) : Out :=
  let p := s.hosts.spi
  if !s.coreOn || p.op.isSome then .next s
  else .next (s.putSpi { p with op := some .status, out := leBytes 1 p.lastWrite ++ leBytes 2 p.nonOk, nonOk := 0 })

/-- An operation byte that Table 2-5 does not list. -/
def execSpiUnknownOperation (op : BitVec 8) (s : State) : Out :=
  let p := s.hosts.spi
  if !s.coreOn || p.op.isSome || op = 0x0B || op = 0x02 || op = 0x05 then .next s
  else .next (s.putSpi { p with op := some .unknown, out := [0] })

/-- MSPI_CS_N rises: the transaction ends, and with it a word not received whole. -/
def execSpiCsRise (s : State) : Out := .next (s.putSpi { s.hosts.spi with op := none })

/-! ## Mailboxes (R62 to R65, R75) -/

/-- A write to word `word` of mailbox m's request ring (R64). -/
def execMailboxEntryWrite (who : Requester) (m : Fin 5) (word : Fin 4096) (data : BitVec 32) (s : State) : Out :=
  .next (s.accessAt who (0x2_0000 + 0x1_0000 * m.val + 4 * word.val) (some (.request m word)) .w32 (.write data.toNat))

/-- The doorbell (R64). -/
def execMbxReqTailWrite (who : Requester) (m : Fin 5) (tail : BitVec 16) (s : State) : Out :=
  .next (s.writeAs who .MBX_REQ_TAIL m (tail.setWidth 32))

/-- Host software frees reply entries (R65). -/
def execMbxRspHeadWrite (who : Requester) (m : Fin 5) (head : BitVec 16) (s : State) : Out :=
  .next (s.writeAs who .MBX_RSP_HEAD m (head.setWidth 32))

/-- A write of CLEAR = 1 to MBX_CTL[m] (R75). -/
def execMbxClear (who : Requester) (m : Fin 5) (irqEn : Bool) (s : State) : Out :=
  .next (s.writeAs who .MBX_CTL m (BitVec.ofNat 32 (2 + irqEn.toNat)))

/-! ## Packets (R63 to R70) -/

/-- The MGC takes the next packet in turn, checks it, and starts it or replies with the status of the check that failed. -/
def State.takePacket (s : State) (m : Nat) : State :=
  let head := s.get .MBX_REQ_HEAD_HEAD m
  let l := s.nextL m
  let ws := s.requestWords m head (2 + l)
  let (st, p) := s.checkPacket m (ws.getD 0 0).toNat (ws.getD 1 0).toNat (ws.drop 2)
  let s := { s with mail := { s.mail with last := m } }.put .MBX_REQ_HEAD_HEAD (head + entries l) m
  if st = St.ok then s.setRunning m (some p) else s.replyTo m p st []

/-- A packet starts (R69, R70). -/
def execPacketStart (s : State) : Out :=
  if !s.takesPackets then .next s
  else match s.nextMailbox with
    | none => .next s
    | some m => .next (s.takePacket m)

/-! ## Mailbox commands (R72, R73) -/

/-- NOP. -/
def execNop (m : Fin 5) (s : State) : Out := .next <| s.command m 0x00 fun p => s.reply m St.ok p.params

/-- HOST_ATTACH_GET. -/
def execHostAttachGet (m : Fin 5) (s : State) : Out :=
  .next <| s.command m 0x0E fun _ => s.reply m St.ok (s.storedAttachment.map (BitVec.ofNat 32 ·))

/-- A record word that R73 permits: MAX_GEN from 1 to 5, and no reserved bit set. -/
def attachmentWord (w : Nat) : Bool :=
  decide (1 ≤ bitsOf w 4 3) && decide (bitsOf w 4 3 ≤ 5) && !w.testBit 3 && w / 2 ^ 7 == 0

/-- HOST_ATTACH_SET; `fails0` and `fails1` are the program failures the two settings copies meet. -/
def execHostAttachSet (m : Fin 5) (fails0 fails1 : Nat) (s : State) : Out :=
  .next <| s.command m 0x0F fun p =>
    if !((List.range 4).all fun i => attachmentWord (p.p i)) then s.reply m St.badParam
    else s.replyJournal m 1 (wordBytes (p.params.take 4)) fails0 fails1

/-! ## Completions from hosts (07 R205, R217) -/

/-- A completion for transaction `id`, which an endpoint has taken: a read's data, or the end of a FLUSH. -/
def execPcieCompletion (id : Nat) (data : List (BitVec 256)) (s : State) : Out :=
  match s.spine.taken.find? fun t => t.id == id && decide (64 ≤ portOf t.addr) && decide (portOf t.addr < 68) && !t.lost with
  | none => .next s
  | some t => match t.kind with
    | .read => if data.length = t.beats.length then .next (s.answerTxn t (t.okRead data)) else .next s
    | _ => .next (s.answerTxn t t.okWrite)

/-- The completion timeout of transaction `id` expires at its endpoint. -/
def execPcieCompletionTimeout (id : Nat) (s : State) : Out :=
  match s.spine.taken.find? fun t => t.id == id && decide (64 ≤ portOf t.addr) && decide (portOf t.addr < 68) && !t.lost with
  | none => .next s
  | some t => .next (s.answerTxn t (t.reject .timeout))

end Sys2Proof.Machine
end

