-- ==== Sys2Proof/Machine/UnitOps.lean ====
section
/-! DEFINITION. Commands that work on the Slate store unit by unit: image and user writes, user erases, and directory
updates, from their admission to their reply (04 R147, 05 R174 to R179, 11 R320 to R322, R338, R353, 19 R508). -/

namespace Sys2Proof.Machine

set_option Elab.async false

/-- The class of Table 12-3 that a command is admitted under. -/
def opClass : Nat → Nat
  | 0x13 | 0xA4 => 3
  | 0x26 => 4
  | 0x27 => 5
  | _ => 2

/-- A command in another mailbox that works unit by unit runs, of which `f` holds. -/
def State.unitRunning (s : State) (m : Nat) (f : Packet → Bool) : Bool :=
  (List.range 5).any fun i => i != m && (s.running i).any fun q => q.wait == .unit && f q

/-- A command that works unit by unit ends: its cost is released and its reply written. -/
def State.endUnits (s : State) (m : Nat) (p : Packet) (status : Nat) (results : List Word) : State :=
  (s.releaseOp (opClass p.opcode) m).replyTo m p status results

/-- A unit of mailbox m's command starts, or waits for a stream from its bank. -/
def State.unitErase (s : State) (m : Nat) (p : Packet) (l : Nat) : State :=
  (s.await m p .unit).startErase l (.packet m) (some (opClass p.opcode)) (s.streaming (s.flashBank l))

def State.unitProgram (s : State) (m : Nat) (p : Packet) (l page : Nat) (ws : List DWord) : State :=
  (s.await m p .unit).startProgram l page ws (.packet m) (s.streaming (s.flashBank l))

/-! ## Image and user writes

The note of such a packet holds the first logical block of the slot's segment range or of the extent, the page position
at which the command starts, the number of its pages, and then its data in words of 64 bits. -/

def Packet.noteAt (p : Packet) (i : Nat) : Nat := p.note.getD i 0

/-- The words of page `i` of the command's data. -/
def Packet.pageData (p : Packet) (i : Nat) : List DWord := ((p.note.drop (3 + 512 * i)).take 512).map (BitVec.ofNat 64 ·)

/-- Position of the next page. -/
def Packet.pagePos (p : Packet) : Nat := p.noteAt 1 + p.progress

/-- The next unit: of an image write, the erase ahead of a block's first page; then the page. -/
def State.nextUnit (s : State) (m : Nat) (p : Packet) (erased : Bool) : State :=
  let l := p.noteAt 0 + p.pagePos / 64
  if p.pagePos % 64 = 0 && p.opcode ≠ 0x26 && !erased then s.unitErase m p l
  else s.unitProgram m p l (p.pagePos % 64) (p.pageData p.progress)

/-- The write pointer of a command's image. -/
def State.putPointer (s : State) (p : Packet) (v : Nat) : State :=
  if p.opcode = 0xA4 then { s with goldPointer := some v }
  else s.setLoader { s.loader with pointer := SMap.put 0 s.loader.pointer (p.p 0) v }

/-- A unit of IMG_WRITE or LC_GOLD_WRITE has ended (05 R174, R179, 11 R338). -/
def State.imageUnit (s : State) (m : Nat) (p : Packet) (erase ok : Bool) : State :=
  if erase then (if ok then s.nextUnit m p true else s.endUnits m p St.worn [])
  else if !ok then
    let back := 262144 * (p.pagePos / 64)
    (s.putPointer p back).endUnits m p St.unstable [BitVec.ofNat 32 back]
  else
    let p := { p with progress := p.progress + 1 }
    if p.progress < p.noteAt 2 then s.nextUnit m p false
    else
      let v := 4096 * p.pagePos
      (s.putPointer p v).endUnits m p St.ok [BitVec.ofNat 32 v]

/-- A unit of USR_WRITE has ended (11 R353, R338). -/
def State.userUnit (s : State) (m : Nat) (p : Packet) (ok : Bool) : State :=
  let p := if ok then { p with progress := p.progress + 1 } else p
  if !ok then s.endUnits m p St.unstable [BitVec.ofNat 32 p.progress]
  else if p.progress < p.noteAt 2 then s.nextUnit m p false
  else s.endUnits m p St.ok [BitVec.ofNat 32 p.progress]

/-! ## Directory updates (04 R147)

The note of such a packet holds the results of its reply. -/

/-- Position 0 to 511 of a directory page as logical block and page. -/
def dirPlace (pos : Nat) : Nat × Nat := (Partition.directory.base + pos / 64 % 8, pos % 64)

/-- A directory page can be programmed at this position: it is erased, and its block is not RETIRE_PENDING (11 R321). -/
def State.dirFree (s : State) (pos : Nat) : Bool :=
  let (l, page) := dirPlace pos
  s.pageKind l page == .erased && !SMap.look false s.slate.retire l

/-- The first position from `pos` on in circular order at which a page can be programmed, or which begins a block; of a
RETIRE_PENDING block no further page is (DEDUCED, log entry 101). `n` bounds the search. -/
def State.dirTarget (s : State) (pos : Nat) : Nat → Nat
  | 0 => pos
  | n + 1 => if s.dirFree pos || pos % 64 = 0 then pos else State.dirTarget s ((pos + 1) % 512) n

/-- The new page is programmed at the next position that takes it; a block that begins there and is not erased is erased
first. -/
def State.programDir (s : State) (m : Nat) (p : Packet) (d : Directory) (pos : Nat) : State :=
  let pos := s.dirTarget pos 64
  let (l, page) := dirPlace pos
  let s := s.setLoader { s.loader with dirNext := some (d, pos) }
  if s.dirFree pos then s.unitProgram m p l page (wordsOf d.bytes 512) else s.unitErase m p l

/-- The update has ended: what the command's row leaves besides the page, and its reply. -/
def State.endDirectory (s : State) (m : Nat) (p : Packet) : State :=
  let s := s.setLoader { s.loader with dirNext := none }
  let s := match p.opcode with
    | 0x12 => s.setLoader { s.loader with pointer := SMap.put 0 s.loader.pointer (p.noteAt 0) 0 }
    | 0x15 => s.setLoader { s.loader with pointer := SMap.put 0 s.loader.pointer (p.p 0 % 256) 0 }
    | _ => s
  s.endUnits m p St.ok (p.note.map (BitVec.ofNat 32 ·))

/-- A unit of a directory update has ended. The page of a failed program is abandoned and written at the next position that
takes it; the first page of a block is followed by the erase of the block after it. -/
def State.directoryUnit (s : State) (m : Nat) (p : Packet) (erase ok : Bool) : State :=
  match s.loader.dirNext with
  | none => s
  | some (d, pos) =>
    if erase then
      if s.loader.dirPage = pos then s.endDirectory m p
      else if !ok then (s.setLoader { s.loader with dirNext := none }).endUnits m p St.worn []
      else s.unitProgram m p (dirPlace pos).1 (dirPlace pos).2 (wordsOf d.bytes 512)
    else if !ok then s.programDir m p d ((pos + 1) % 512)
    else
      let s := s.setLoader { s.loader with dir := some d, dirPage := pos }
      if pos % 64 = 0 then s.unitErase m p (dirPlace (pos + 64)).1 else s.endDirectory m p

/-- The directory that an update starts from; without a consistent page it is empty (04 R148). -/
def State.directory (s : State) : Directory := s.loader.dir.getD {}

/-- An update to `d`, with GENERATION one above the current page's; `results` are those of its reply. Another update in
progress goes first (R147). -/
def State.updateDirectory (s : State) (m : Nat) (p : Packet) (d : Directory) (results : List Nat) : State :=
  let d := { d with generation := s.directory.generation + 1 }
  if s.loader.dirNext.isSome then s
  else if !d.consistent then s.reply m St.badParam
  else if 0xFFFF_FFFF_FFFF < d.generation || s.locked .directory then s.reply m St.worn
  else if !s.admits 2 then s.replyEnergyRefused m 2
  else (s.admitOp 2 m).programDir m { p with note := results } d ((s.loader.dirPage + 1) % 512)

/-- A load or reload reads the image of entry `e` (04 R149, 05 R179). -/
def State.entryInUse (s : State) (e : Nat) : Bool :=
  (s.loader.jobs.any fun j => j.entry == e) || s.loader.reloads.any fun r => r.2.entry == e

/-! ## The end of a unit (R321, R333) -/

/-- What the end of a unit lets the MGC do next. In HOLDUP no further unit starts (12 R365), and none once the MGC has
halted. A unit that no packet waits for leaves the encumbrance by itself. -/
def State.unitEnds (s : State) (u : FlashUnit) (ok : Bool) : State :=
  let s := match u.user with
    | .packet _ => if s.mode == .holdup then s.releaseOp (u.cost.getD 1) u.block else s
    | _ => s.releaseOp (u.cost.getD 1) u.block
  if s.mode == .holdup || s.power.mgcHalted then s
  else match u.user with
    | .packet m => match s.running m with
      | none => s
      | some p =>
        if p.wait != .unit then s
        else match p.opcode with
          | 0x13 | 0xA4 => s.imageUnit m p u.erase ok
          | 0x26 => s.userUnit m p ok
          | 0x27 => s.endUnits m p (if ok then St.ok else St.worn)
              (if ok then [BitVec.ofNat 32 (s.blockErases (s.physOf u.block))] else [])
          | _ => s.directoryUnit m p u.erase ok
    | .ahead c => if ok then s.setCopy c { s.copy c with ahead := (s.copy c).ahead + 1 } |>.showJournal else s.showDegraded
    | .extent x =>
      let left := SMap.look 0 s.journal.extentLeft x - (if ok then 1 else 0)
      { s with journal := { s.journal with extentLeft := SMap.put 0 s.journal.extentLeft x left } }
    | .archive | .alone => s

end Sys2Proof.Machine
end

