-- ==== Sys2Proof/Machine/ImageCmds.lean ====
section
/-! DEFINITION. Installing and selecting images: the directory commands of spec/05, and what LC_GOLD_WRITE and
LC_GOLD_COMMIT share with them (19 R508). -/

namespace Sys2Proof.Machine

set_option Elab.async false

/-! ## Checking a stored image in full (04 Table 4-9, 05 R174) -/

/-- The first record of a chunk that fails its checks. -/
def chunkRecords (h : Header) (c : Nat) (recs : List (List Byte)) : Nat :=
  (((recs.zipIdx).map fun r => recordStatus h (16 * c + r.2) r.1).find? (· ≠ St.ok)).getD St.ok

/-- Chunk and record stages of the chunks from c on, with their leaf digests. -/
def State.checkChunks (s : State) (h : Header) (l0 : Nat) (errors : List (Nat × List Nat)) (c : Nat) :
    List (List Byte) → State × Nat
  | [] => (s, St.ok)
  | leaf :: rest =>
    let size := chunkSize h.encrypted
    let (s, chunk) := s.readSpan l0 (768 + size * c) size errors
    let (st, recs) := s.openChunk h c chunk leaf
    if chunk.busy then (s, St.suspendedErase)
    else if st ≠ St.ok then (s, st)
    else if chunkRecords h c recs ≠ St.ok then (s, chunkRecords h c recs)
    else State.checkChunks s h l0 errors (c + 1) rest

/-- Every stage of Table 4-9 on the image that starts at block `l0`. -/
def State.checkWhole (s : State) (l0 : Nat) (errors : List (Nat × List Nat)) (agree : Header → Bool) : State × ImageCheck :=
  let (s, c) := s.checkStored l0 errors agree
  if c.status ≠ St.ok then (s, c)
  else
    let (s, trailer) := s.readSpan l0 c.header.trailer (48 * c.header.chunkCount) errors
    let (s, st) := s.checkChunks c.header l0 errors 0 (leavesOf c.header.chunkCount trailer.bytes)
    (s, { c with status := st })

/-- An entry takes a checked image's fields and becomes VALID. -/
def DirEntry.commit (e : DirEntry) (c : ImageCheck) : DirEntry :=
  { e with state := 2, imageType := c.header.imageType, keySlot := c.header.keySlot, mask := c.header.mask
           imageLen := c.header.imageLen, version := c.header.version, ident := c.ident }

/-- IDENT as results 0 to 7. -/
def identWords (ident : List Byte) : List Nat := (List.range 8).map fun i => ofLe ((ident.drop (4 * i)).take 4)

/-! ## Copying from a bank into a slot -/

/-- The source of IMG_WRITE, USR_WRITE and LC_GOLD_WRITE: a 4 KiB-aligned address and a length in whole pages. -/
def sourceShape (addr len : Nat) : Bool :=
  addr % 4096 == 0 && len % 4096 == 0 && decide (4096 ≤ len) && decide (len ≤ 262144)

/-- A write command whose destination has been checked: the source is read with the sender's owner ID
(07 R200), and the
command is admitted and starts. `locked`: its partition takes no program. -/
def State.startWrite (s : State) (m : Nat) (p : Packet) (base pos addr len : Nat) (locked : Bool) : State :=
  let (s, st) := s.useBank (mailOwner m) addr len
  if st ≠ St.ok then s.reply m st
  else match s.readBankBytes addr len with
    | (t, none) => t.reply m St.poisoned
    | (t, some bs) =>
      if locked then t.reply m St.worn
      else if !t.admits (opClass p.opcode) then t.replyEnergyRefused m (opClass p.opcode)
      else
        let data := (wordsOf bs (len / 8)).map (·.toNat)
        (t.admitOp (opClass p.opcode) m).nextUnit m { p with note := [base, pos, len / 4096] ++ data } false

/-! ## Commands (R177 to R179) -/

/-- IMG_DIR_READ. -/
def execImgDirRead (m : Fin 5) (s : State) : Out :=
  .next <| s.command m 0x10 fun p =>
    let first := bitsOf (p.p 0) 0 6
    let count := bitsOf (p.p 0) 8 5
    let d := s.directory
    if bitsOf (p.p 0) 6 2 ≠ 0 || 2 ^ 13 ≤ p.p 0 || count = 0 || 16 < count || 64 < first + count then
      s.reply m St.badParam
    else
      let entries := (List.range count).flatMap fun i => bytesWords ((d.at (first + i)).bytes) 12
      s.reply m St.ok (twoWords d.generation ++
        [BitVec.ofNat 32 (d.bootEntry + 2 ^ 8 * d.goldEntry + 2 ^ 16 * d.bootStyle)] ++
        bytesWords (d.regionEntry.map (BitVec.ofNat 8 ·)) 4 ++ [0] ++ entries)

/-- IMG_ALLOC: the lowest FREE entry becomes WRITING for the segments named; those of an image that a load reads give BUSY
(04 R149). -/
def execImgAlloc (m : Fin 5) (s : State) : Out :=
  .next <| s.command m 0x12 fun p =>
    let slot := bitsOf (p.p 0) 0 2
    let segment := bitsOf (p.p 0) 8 4
    let segments := bitsOf (p.p 0) 16 5
    let d := s.directory
    let new : DirEntry := { state := 1, slot, segment, segments, imageLen := p.p 1 }
    let clash := fun e => (d.at e).state != 0 && entriesOverlap (d.at e) new
    if bitsOf (p.p 0) 2 6 ≠ 0 || bitsOf (p.p 0) 12 4 ≠ 0 || 2 ^ 21 ≤ p.p 0 then s.reply m St.badParam
    else match (List.range 64).find? fun e => (d.at e).state == 0 with
      | none => s.reply m St.queueFull
      | some e =>
        if slot = 0 || segments = 0 || 16 < segment + segments || segments * 6291456 < p.p 1 then s.reply m St.badParam
        else if (List.range 64).any fun e => clash e && s.entryInUse e then s.reply m St.busy
        else if (List.range 64).any clash then s.reply m St.badParam
        else s.updateDirectory m p { d with entry := d.entry.set e new } [e]

/-- IMG_WRITE: image bytes go from a bank into the segments of a WRITING entry, each block erased before its first
page. A stream from the destination's flash bank holds the command back (Table 5-5), and so does another write of the same
image that runs. -/
def execImgWrite (m : Fin 5) (s : State) : Out :=
  .next <| s.command m 0x13 fun p =>
    let e := s.directory.at (p.p 0)
    let base := segmentBlock e.slot e.segment
    if 64 ≤ p.p 0 || e.state ≠ 1 || p.p 1 ≠ SMap.look 0 s.loader.pointer (p.p 0) || !sourceShape (p.p64 2) (p.p 4) ||
        e.segments * 6291456 < p.p 1 + p.p 4 then s.reply m St.badParam
    else if s.streaming (s.flashBank (base + p.p 1 / 262144)) || s.unitRunning m fun q => q.opcode == 0x13 && q.p 0 == p.p 0 then s
    else s.startWrite m p base (p.p 1 / 4096) (p.p64 2) (p.p 4) (s.locked (.slot e.slot))

/-- IMG_COMMIT: the stored image passes every stage of Table 4-9, and its entry becomes VALID. `errors` lists the bits
of its pages that read inverted. -/
def execImgCommit (m : Fin 5) (errors : List (Nat × List Nat)) (s : State) : Out :=
  .next <| s.command m 0x14 fun p =>
    let d := s.directory
    let e := d.at (p.p 0)
    let ptr := SMap.look 0 s.loader.pointer (p.p 0)
    if 64 ≤ p.p 0 || e.state ≠ 1 || ptr < e.imageLen then s.reply m St.badParam
    else if s.loader.dirNext.isSome || s.programmingEntry e then s
    else
      let (t, c) := s.checkWhole (segmentBlock e.slot e.segment) errors fun h =>
        decide (h.imageLen ≤ ptr) && decide (h.imageLen ≤ e.segments * 6291456)
      if c.status ≠ St.ok then t.reply m c.status
      else t.updateDirectory m p { d with entry := d.entry.set (p.p 0) (e.commit c) } (identWords c.ident)

/-- IMG_SET_STATE: an entry becomes FREE or RETIRED. -/
def execImgSetState (m : Fin 5) (s : State) : Out :=
  .next <| s.command m 0x15 fun p =>
    let e := bitsOf (p.p 0) 0 8
    let next := bitsOf (p.p 0) 8 8
    let d := s.directory
    let old := (d.at e).state
    if 65536 ≤ p.p 0 || 64 ≤ e || !(next == 0 || next == 3) || d.goldEntry = e || d.bootEntry = e ||
        d.regionEntry.contains e then s.reply m St.badParam
    else if s.entryInUse e then s.reply m St.busy
    else if next = 3 && old < 2 then s.reply m St.badParam
    else if next = old then s.reply m St.ok
    else s.updateDirectory m p
      { d with entry := d.entry.set e (if next = 0 then freeEntry else { d.at e with state := 3 }) } []

/-- IMG_SELECT: BOOT_ENTRY and BOOT_STYLE for the next boot (R176). -/
def execImgSelect (m : Fin 5) (s : State) : Out :=
  .next <| s.command m 0x16 fun p =>
    if 512 ≤ p.p 0 then s.reply m St.badParam
    else s.updateDirectory m p { s.directory with bootEntry := bitsOf (p.p 0) 0 8, bootStyle := bitsOf (p.p 0) 8 1 } []

/-- IMG_REGION_SELECT: REGION_ENTRY of one region for the next boot (R176). -/
def execImgRegionSelect (m : Fin 5) (s : State) : Out :=
  .next <| s.command m 0x17 fun p =>
    let e := bitsOf (p.p 0) 0 8
    let k := bitsOf (p.p 0) 8 4
    let d := s.directory
    if 4096 ≤ p.p 0 then s.reply m St.badParam
    else if !((p.acts == s.parent k && s.parent k != 0) || s.isAdmin (mailOwner m)) then s.reply m St.notOwner
    else s.updateDirectory m p { d with regionEntry := d.regionEntry.set k e } []

end Sys2Proof.Machine
end

