-- ==== Sys2Proof/Machine/JtagCmds.lean ====
section
/-! DEFINITION. The JTAG port's instructions (19 R509 to R512). An instruction's data scan is part of its command. -/

namespace Sys2Proof.Machine

set_option Elab.async false

/-! ## The boundary register (R509): pins in the order of its table -/

def gioCell (n i : Nat) : Nat := 3 * n + i
def fioCell (n i : Nat) : Nat := 1344 + 2 * n + i

/-- The cells as a capture takes them: inputs as the pins present them, outputs and enables as the device drives them. -/
def State.captureCells (s : State) (pins : BitVec 1552) : BitVec 1552 :=
  let bits := ((List.range 448).flatMap fun n =>
      [pins.getLsbD (gioCell n 0), s.gioLevel n == .high, s.gioLevel n != .hiz]) ++
    ((List.range 64).flatMap fun n => [pins.getLsbD (fioCell n 0), s.fioOn n]) ++
    (List.range 13).map (fun i => pins.getLsbD (1472 + i)) ++ [!s.faultAsserted, s.safeN, s.ready] ++
    (List.range 64).map fun i => pins.getLsbD (1488 + i)
  BitVec.ofNat 1552 (bits.foldr (fun b v => b.toNat + 2 * v) 0)

/-- Every pin's JTAG value: none, or those of `f` and `g`. -/
def State.driveJtag (s : State) (f : Nat → Option PinLevel) (g : Nat → Option Bool) : State :=
  let s := s.forEach (List.range 448) fun s n => s.putGio n { s.gioPin n with jtag := f n }
  (s.forEach (List.range 64) fun s n => s.putFio n { s.fioPin n with jtag := g n }).showAllPins

/-- The pins no longer follow JTAG. -/
def State.releaseJtag (s : State) : State := s.driveJtag (fun _ => none) fun _ => none

/-- The pins follow the update stage. -/
def State.driveCells (s : State) : State :=
  let u := s.jtag.update
  s.driveJtag (fun n => some (if !u.getLsbD (gioCell n 2) then .hiz else if u.getLsbD (gioCell n 1) then .high else .low))
    fun n => some (u.getLsbD (fioCell n 1))

/-- An instruction comes into force (DEV_JTAG.IR). -/
def State.setIr (s : State) (code : Nat) : State := s.put .DEV_JTAG_IR code

/-- A pin-controlling instruction: reduced to BYPASS, and counted, outside a failed boot and BLANK (R510). -/
def State.pinControl (s : State) (code : Nat) (f : State → State) : State :=
  if s.mode == .off then s
  else if s.failedBoot then f (s.releaseJtag.setIr code)
  else (s.releaseJtag.setIr 0xFF).bump .DEV_JTAG_REFUSED

/-- Any other instruction. -/
def State.plainJtag (s : State) (code : Nat) (f : State → State) : State :=
  if s.mode == .off then s else f (s.releaseJtag.setIr code)

/-- The boundary scan of an instruction: capture, then update with what was shifted in. -/
def State.scan (s : State) (pins load : BitVec 1552) : State :=
  { s with jtag := { s.jtag with shift := s.captureCells pins, update := load } }

/-! ## Instructions (Table 19-6a) -/

/-- TRST_N, or the Test-Logic-Reset state. -/
def execTestLogicReset (s : State) : Out := .next (s.plainJtag 0x02 id)

/-- EXTEST: the scan, and then the pins follow the boundary register. -/
def execExtest (pins load : BitVec 1552) (s : State) : Out :=
  .next (s.pinControl 0x00 fun s => (s.scan pins load).driveCells)

/-- SAMPLE/PRELOAD: the scan, without effect on the pins. -/
def execSamplePreload (pins load : BitVec 1552) (s : State) : Out := .next (s.plainJtag 0x01 fun s => s.scan pins load)

/-- IDCODE. -/
def execIdcode (s : State) : Out :=
  .next (s.plainJtag 0x02 fun s => { s with jtag := { s.jtag with data := 0x0D31_3A5F } })

/-- CLAMP: the pins follow the update stage, and the data register is BYPASS. -/
def execClamp (s : State) : Out := .next (s.pinControl 0x03 State.driveCells)

/-- HIGHZ: every general output at high impedance, every field output off. -/
def execHighz (s : State) : Out := .next (s.pinControl 0x04 fun s => s.driveJtag (fun _ => some .hiz) fun _ => some false)

/-- EXTEST_PULSE: the lanes' drivers send the pulses of IEEE 1149.6 that their cells give. -/
def execExtestPulse (pins load : BitVec 1552) (s : State) : Out := .next (s.pinControl 0x05 fun s => s.scan pins load)

/-- EXTEST_TRAIN: likewise, pulse trains. -/
def execExtestTrain (pins load : BitVec 1552) (s : State) : Out := .next (s.pinControl 0x06 fun s => s.scan pins load)

/-- What a lane's driver sends under JTAG: its cell's value, and whether as a train; none while no such instruction is in
force. -/
def State.jtagLane (s : State) (l : Fin 32) : Option (Bool × Bool) :=
  let ir := s.get .DEV_JTAG_IR
  if s.failedBoot && (ir == 0x05 || ir == 0x06) then some (s.jtag.update.getLsbD (1488 + 2 * l.val), ir == 0x06) else none

/-- BYPASS, and every undefined code. -/
def execBypass (s : State) : Out := .next (s.plainJtag 0xFF id)

/-- JTAG_REG (R511): Update-DR issues one access under owner 0x15, whose response the next Capture-DR returns. -/
def execJtagReg (offset : BitVec 24) (write : Bool) (data : BitVec 32) (s : State) : Out :=
  .next <| if !s.jtagIssues then s.plainJtag 0xFF id
  else s.plainJtag 0x10 fun s =>
    let (t, r, v) := s.controlBy .jtag offset.toNat (locate offset.toNat) (if offset.toNat % 4 = 0 then .w32 else .bad)
      (if write then .write data.toNat else .read)
    { t with jtag := { t.jtag with resp := r.code, data := v % 2 ^ 32 } }

/-- JTAG_LOAD (R512): the bytes shifted in join the stream, which IMAGE_CHECK and CHUNK_ARRIVAL take; in RUN, and in a
failed boot. Selecting it anew starts a new stream. -/
def execJtagLoad (bytes : List Byte) (s : State) : Out :=
  .next <| if s.lc ≠ lcProvisioned then s.plainJtag 0xFF id
  else
    let again := s.get .DEV_JTAG_IR == 0x11
    let takes := s.mode == .run || (s.mode == .boot && (s.get .CFG_BOOT_STAT_STATE == 5 || s.get .CFG_BOOT_STAT_STATE == 2))
    s.plainJtag 0x11 fun s =>
      if !takes then s
      else
        let old := if again then s.loader.stream else []
        s.setLoader { s.loader with stream := old ++ bytes }

end Sys2Proof.Machine
end

