-- ==== Sys2Proof/Machine/LaneCmds.lean ====
section
/-! DEFINITION. The commands of the transceivers (15 R430 to R442; 16 R445). -/

namespace Sys2Proof.Machine

set_option Elab.async false

/-! ## LC PLLs (R432, R434) -/

/-- LC_PLL_APPLY: a write with EN = 1 to XCV_LCPLL[q][p], where the source that `refsel` selects runs at `khz`. -/
def execLcPllApply (who : Requester) (q : Fin 8) (p : Fin 2) (refsel : BitVec 4) (m : BitVec 3) (n : BitVec 9)
    (khz : BitVec 19) (s : State) : Out :=
  let t := if refsel.toNat = 0 || 8 < refsel.toNat then s else s.putSource refsel.toNat khz.toNat
  .next (t.writeAs who .XCV_LCPLL (2 * q.val + p.val)
    (BitVec.ofNat 32 (2 ^ 24 + 256 * n.toNat + 16 * m.toNat + refsel.toNat)))

/-- LC_PLL_LOSS: counted, and every fabric lane on the PLL goes idle. -/
def execLcPllLoss (q : Fin 8) (p : Fin 2) (s : State) : Out :=
  .next <| if !s.lcLocked q.val p.val then s
    else ((s.putLcLock q.val p.val false).bump .XCV_QUAD_STAT_LOL_CNT q.val).dropLanesOf q.val p.val

/-- The PLL runs: enabled, or held by an endpoint, in a powered quad. -/
def State.lcRuns (s : State) (q p : Nat) : Bool :=
  s.coreOn && s.quadOn q && (s.flag .XCV_LCPLL_EN (2 * q + p) || s.quadPcie q)

/-- LC_PLL_LOCK: 64 cycles of lock. -/
def execLcPllLock (q : Fin 8) (p : Fin 2) (s : State) : Out :=
  .next (if s.lcRuns q.val p.val then s.putLcLock q.val p.val true else s)

/-! ## Lanes (R435 to R441, 16 R445) -/

/-- LANE_CONFIGURATION: a write to XCV_LANE_CFG[l]. -/
def execLaneConfiguration (who : Requester) (l : Fin 32) (setting : BitVec 20) (s : State) : Out :=
  .next (s.writeAs who .XCV_LANE_CFG l.val (setting.setWidth 32))

/-- The lane's LC PLL gives it a clock. -/
def State.laneClocked (s : State) (l : Nat) : Bool :=
  s.fabricLane l && s.quadOn (l / 4) && s.lcLocked (l / 4) (s.get .XCV_LANE_CFG_PLL l)

/-- CDR_LOCK: adaptation starts from retained coefficients, or afresh. -/
def execCdrLock (l : Fin 32) (s : State) : Out :=
  .next <| if !s.laneClocked l.val || s.flag .XCV_LANE_STAT_CDR_LOCK l.val then s
    else (s.putFlag .XCV_LANE_STAT_CDR_LOCK true l.val).put .XCV_LANE_STAT_ADAPT (if (s.lane l.val).kept then 3 else 1) l.val

/-- ALIGNMENT: the lane is ACTIVE, and coefficients it has go on tracking. -/
def execAlignment (l : Fin 32) (s : State) : Out :=
  .next <| if !s.laneClocked l.val || !s.flag .XCV_LANE_STAT_CDR_LOCK l.val then s
    else
      let s := (s.putFlag .XCV_LANE_STAT_ALIGNED true l.val).putFlag .XCV_LANE_STAT_ACTIVE true l.val
      if (s.lane l.val).kept then s.put .XCV_LANE_STAT_ADAPT 2 l.val else s

/-- ADAPTATION: initial adaptation or readaptation ends; coefficients of a lane that is not aligned are frozen. -/
def execAdaptation (l : Fin 32) (s : State) : Out :=
  .next <| if !s.laneClocked l.val || !s.flag .XCV_LANE_STAT_CDR_LOCK l.val then s
    else (s.putLane l.val { s.lane l.val with kept := true }).put .XCV_LANE_STAT_ADAPT
      (if s.flag .XCV_LANE_STAT_ALIGNED l.val then 2 else 3) l.val

/-- Alignment is lost, and counted. -/
def State.loseAlignment (s : State) (l : Nat) : State :=
  let s := (s.putFlag .XCV_LANE_STAT_ALIGNED false l).putFlag .XCV_LANE_STAT_ACTIVE false l
  (s.put .XCV_LANE_STAT_ADAPT 3 l).bump .XCV_LANE_ERR_LOCK_LOSS l

/-- CDR_LOCK_LOSS: the recovered clocks stop, and a scan is aborted. -/
def execCdrLockLoss (l : Fin 32) (s : State) : Out :=
  .next <| if !s.fabricLane l.val || !s.flag .XCV_LANE_STAT_CDR_LOCK l.val then s
    else (((s.loseAlignment l.val).putFlag .XCV_LANE_STAT_CDR_LOCK false l.val).stopRclk l.val).abortScan l.val

/-- ALIGNMENT_LOSS: comma, block or header lock is lost. -/
def execAlignmentLoss (l : Fin 32) (s : State) : Out :=
  .next <| if !s.fabricLane l.val || !s.flag .XCV_LANE_STAT_ALIGNED l.val then s else s.loseAlignment l.val

/-- TX_UNDERRUN: a word time of a lane that sends finds its TX FIFO empty. -/
def execTxUnderrun (l : Fin 32) (s : State) : Out :=
  .next <| if !s.laneSends l.val || s.flag .XCV_LANE_STAT_TX_IDLE l.val || !(s.lane l.val).tx.isEmpty then s
    else
      let w := fillWord (s.get .XCV_LANE_CFG_MODE l.val)
      (s.putLane l.val { s.lane l.val with sent := some w }).bump .XCV_LANE_ERR_TX_UNDERRUN l.val

/-- RX_OVERFLOW: a word arrives at a full RX FIFO and is discarded. -/
def execRxOverflow (l : Fin 32) (s : State) : Out :=
  .next <| if s.fabricLane l.val && s.flag .XCV_LANE_STAT_ACTIVE l.val && decide (16 ≤ (s.lane l.val).rx.length) then
      s.bump .XCV_LANE_ERR_RX_OVERFLOW l.val
    else s

/-! ## Recovered clocks and the eye monitor (R439, R440) -/

/-- RECOVERED_CLOCK_START: output i of quad q, once its lane's CDR lock has held for 10 µs. -/
def execRecoveredClockStart (q : Fin 8) (i : Fin 2) (s : State) : Out :=
  let sel := if i = 0 then s.get .XCV_RCLK_SEL0 q.val else s.get .XCV_RCLK_SEL1 q.val
  let en := if i = 0 then s.flag .XCV_RCLK_EN0 q.val else s.flag .XCV_RCLK_EN1 q.val
  let l := 4 * q.val + sel
  .next <| if !en || !s.fabricLane l || !s.flag .XCV_LANE_STAT_CDR_LOCK l then s
    else if i = 0 then s.putFlag .XCV_RCLK_RUN0 true q.val
    else s.putFlag .XCV_RCLK_RUN1 true q.val

/-- EYE_SCAN_START: a write of START = 1 to XCV_EYE_CTL[l]. -/
def execEyeScanStart (who : Requester) (l : Fin 32) (phase : BitVec 6) (voff : BitVec 7) (log2Bits : BitVec 6)
    (s : State) : Out :=
  .next (s.writeAs who .XCV_EYE_CTL l.val
    (BitVec.ofNat 32 (2 ^ 31 + 65536 * log2Bits.toNat + 64 * voff.toNat + phase.toNat)))

/-- EYE_SCAN_DONE: the scan has counted `errors` disagreements over its bits. One that ends early ends with what ends it. -/
def execEyeScanDone (l : Fin 32) (errors : Nat) (s : State) : Out :=
  .next <| if !s.flag .XCV_EYE_RES_BUSY l.val then s
    else
      let s := (s.put .XCV_EYE_RES_ERRORS (min errors 0xFF_FFFF) l.val).putFlag .XCV_EYE_RES_BUSY false l.val
      (s.putFlag .XCV_EYE_RES_DONE true l.val).putFlag .XCV_EYE_RES_ABORTED false l.val

end Sys2Proof.Machine
end

