-- ==== Sys2Proof/Machine/LoadCmds.lean ====
section
/-! DEFINITION. Loading images at boot and in reloads, wipes, the Gold fallback, and entry into RUN (spec/05). -/

namespace Sys2Proof.Machine

set_option Elab.async false

/-- The configuration engine streams in BOOT and RUN. -/
def State.loads (s : State) : Bool := s.mode == .boot || s.mode == .run

/-! ## Checks of an image (R158) -/

/-- The regions of a job start LOADING: fenced, no longer scrubbed, their writers empty; the job's stream begins. -/
def State.beginRegions (s : State) (j : LoadJob) : State :=
  let s := s.forEach j.regions fun s k =>
    let s := ((s.stopLane k).addFence k fun f => { f with load := true }).setWriter k {}
    let s := s.setLoader { s.loader with staged := s.loader.staged.clearRange (4000 * k) 4000 }
    (s.setRegion k 2).put .CFG_REGION_FRAMES_FRAMES 0 k
  s.beginStream j

/-- LAST_STATUS of every region of a mask. -/
def State.noteStatus (s : State) (mask st : Nat) : State :=
  s.forEach (regionsOf mask) fun s k => s.put .CFG_REGION_STAT_LAST_STATUS st k

/-- The image of a boot's job passes its checks, or fails the boot (R164, R165). -/
def State.checkJob (s : State) (i : Nat) (j : LoadJob) (errors : List (Nat × List Nat)) : State :=
  let (s, c) := s.checkStored (s.jobBlock j) errors (s.jobAgrees j)
  if c.status ≠ St.ok then (s.noteCheckFail j.regions c.status c.stage).failBoot j c.status c.stage 0 0
  else
    let j := { j with header := some c.header, ident := c.ident }
    (s.setLoader { s.loader with jobs := s.loader.jobs.set i j }).beginRegions j

/-! ## Reloads (R170 to R173) -/

/-- Owner `o` stands as the parent of region k; 0x100 is ADMIN's authority (08 R236, R237). -/
def State.reloadsRegion (s : State) (o k : Nat) : Bool :=
  if o = 0x100 then s.parent k == s.admin || s.absent (s.parent k) else s.parent k == o && o != 0

/-- The conditions of R170 on the regions, in its order. -/
def State.reloadStatus (s : State) (o : Nat) (regions : List Nat) : Nat :=
  if !regions.all (s.reloadsRegion o) then St.notOwner
  else if regions.any s.loading then St.busy
  else if !regions.all s.regionOn then St.poweredDown
  else St.ok

/-- A reload that starts nothing: the reply, or LAST_STATUS for a JTAG stream. -/
def State.refuseReload (s : State) (j : LoadJob) (st : Nat) : State :=
  match j.mailbox with
  | some m => s.reply m st
  | none => (s.setLoader { s.loader with stream := [], streamDone := true }).noteStatus (j.regions.foldl (fun v k => v + 2 ^ k) 0) st

/-! ## A JTAG stream (19 R512) -/

/-- Bytes of a JTAG stream before its first chunk, once its header has come; a header that fails its checks needs no
more than the region table. -/
def streamHead (stream : List Byte) : Nat :=
  if headerStatus (stream.take 256) = St.ok then 768 + 48 * (parseHeader stream).chunkCount + 256 else 768

/-- A JTAG stream stands ready for its checks. -/
def State.streamReady (s : State) : Bool :=
  !s.loader.streamDone && decide (768 ≤ s.loader.stream.length) &&
    decide (streamHead s.loader.stream ≤ s.loader.stream.length) && !(s.loader.jobs.any (·.entry == 0xFD)) &&
    !(s.loader.reloads.any (·.2.entry == 0xFD))

/-- Its checks: in RUN it then waits for its fence as a reload does, in a failed boot its regions load. -/
def State.checkStream (s : State) : State :=
  let b := s.loader.stream
  let n := streamHead b
  let c := s.checkImage (b.take 768) ((b.take n).drop 768) fun _ => true
  let mask := c.header.mask
  let j : LoadJob :=
    { kind := if s.mode == .run then .reload else .jtag, entry := 0xFD, regions := regionsOf mask, header := some c.header
      ident := c.ident, leaves := ((b.take n).drop 768).take (48 * c.header.chunkCount) }
  let s := s.setLoader { s.loader with stream := b.drop n }
  if s.mode == .run then
    let st := if s.power.orderly.isSome then St.busy
      else if c.status ≠ St.ok then c.status else s.reloadStatus 0x100 j.regions
    if st ≠ St.ok then (if c.status ≠ St.ok then s.noteCheckFail j.regions c.status c.stage else s).refuseReload j st
    else s.setLoader { s.loader with reloads := s.loader.reloads ++ [(0x100, j)] }
  else if c.status ≠ St.ok then (s.noteCheckFail j.regions c.status c.stage).failBoot { j with regions := [] } c.status c.stage 0 0
  else
    let s := (s.put .CFG_BOOT_STAT_STATE 2).showAllPins
    (s.setLoader { s.loader with jobs := s.loader.jobs ++ [j] }).beginRegions j

/-- The entry whose blocks a job reads; the implied Gold entry spans slot 0. -/
def State.jobEntry (s : State) (j : LoadJob) : DirEntry :=
  match s.loader.dir with
  | some d => if j.entry < 64 then d.at j.entry else { slot := 0, segment := 0, segments := 16 }
  | none => { slot := 0, segment := 0, segments := 16 }

/-- The checks of R158 on the next image that waits for them; `errors` lists the bits of its pages that read inverted. Its
reads wait for a program in their flash banks (11 R318). -/
def execImageCheck (errors : List (Nat × List Nat)) (s : State) : Out :=
  if !s.loads then .next s
  else match s.loader.jobs.findIdx? (·.header.isNone) with
    | some i => match s.loader.jobs[i]? with
      | some j => .next (if s.programmingEntry (s.jobEntry j) then s else s.checkJob i j errors)
      | none => .next s
    | none => .next (if s.streamReady && (s.mode == .run || s.failedBoot) then s.checkStream else s)

/-! ## Chunks (R159, R160) -/

/-- A stage of a chunk fails (Table 5-3). -/
def State.failChunk (s : State) (i : Nat) (j : LoadJob) (st : Nat) : State :=
  if j.kind = .reload then s.failReload i j st j.next else s.failBoot j st 4 j.next 0

/-- A chunk with its leaf digest passes its stages, and its records go to the writers. -/
def State.openAndRoute (s : State) (i : Nat) (j : LoadJob) (h : Header) (chunk : Span) (leaf : List Byte) : State :=
  let (st, recs) := s.openChunk h j.next chunk leaf
  if st ≠ St.ok then s.failChunk i j st
  else
    let s := recs.zipIdx.foldl (fun s r => s.takeRecord j h j.next r.2 r.1) s
    let jobs := s.loader.jobs.zipIdx.map fun x => if x.2 = i then { x.1 with next := j.next + 1 } else x.1
    (s.setLoader { s.loader with jobs }).settleJob i

/-- The next chunk of job `i` is read, from the store or from the JTAG stream. -/
def State.takeChunk (s : State) (i : Nat) (j : LoadJob) (h : Header) (errors : List (Nat × List Nat)) : State :=
  let size := chunkSize h.encrypted
  let l0 := s.jobBlock j
  if j.entry = 0xFD then
    let b := s.loader.stream
    if size ≤ b.length then
      (s.setLoader { s.loader with stream := b.drop size }).openAndRoute i j h { bytes := b.take size }
        ((j.leaves.drop (48 * j.next)).take 48)
    else if s.get .DEV_JTAG_IR = 0x11 then s
    else s.failChunk i j St.truncated
  else
    let leaf := s.readSpan l0 (h.trailer + 48 * j.next) 48 errors
    let chunk := leaf.1.readSpan l0 (768 + size * j.next) size errors
    chunk.1.openAndRoute i j h chunk.2 leaf.2.bytes

/-- The next chunk of the i-th image being streamed arrives. A JTAG stream that has been left before its last chunk ends
there. The reads of a chunk wait for a program in their flash banks (11 R318). -/
def execChunkArrival (i : Nat) (errors : List (Nat × List Nat)) (s : State) : Out :=
  if !s.loads then .next s
  else match s.loader.jobs[i]? with
    | none => .next s
    | some j => match j.header with
      | none => .next s
      | some h => .next (if j.next < h.chunkCount && !((s.jobBanks j).any s.programmingBank) then s.takeChunk i j h errors else s)

/-! ## Frames and completion (R161 to R163) -/

/-- Jobs that have nothing left to do end. -/
def State.settleJobs (s : State) : State := s.forEach (List.range s.loader.jobs.length).reverse State.settleJob

/-- The writer of region k writes and confirms its next frame after `misses` failed confirmations, of which the third aborts
the region (R161); or it holds the content frame at its front back (R162). -/
def execFrameWrite (k : Fin 16) (misses : Fin 4) (s : State) : Out :=
  let w := s.writer k
  match w.waiting with
  | [] => .next s
  | f :: _ =>
    if !s.loads || s.regionState k != 2 then .next s
    else match w.next with
      | some g => .next (if 3 ≤ misses.val then (s.abortRegion k St.unstable 6 g.chunk g.record).settleJobs
          else s.writeFrame k w f)
      | none => .next (s.writeFrame k w f)

/-- All 4,000 frames of region k are confirmed. -/
def State.allWritten (s : State) (k : Nat) : Bool :=
  s.regionState k == 2 && (s.writer k).waiting.isEmpty && (s.writer k).tile.isEmpty &&
    s.get .CFG_REGION_FRAMES_FRAMES k == 4000

/-- Region k's load completes (R163). -/
def execLoadComplete (k : Fin 16) (s : State) : Out :=
  if !s.loads || !s.allWritten k then .next s
  else match s.loader.jobs.findIdx? fun j => j.header.isSome && j.regions.contains k with
    | none => .next s
    | some i => match s.loader.jobs[i]? with
      | some { header := some h, kind, entry, regions, next, mailbox, ident, leaves } =>
        let j : LoadJob := { header := some h, kind, entry, regions, next, mailbox, ident, leaves }
        .next ((s.completeLoad k i j h).settleJob i)
      | _ => .next s

/-! ## Wipes, the fallback, RUN -/

/-- Region k's wipe ends (R164): ABORTED after a failure, else UNLOADED; what waited for it goes on. -/
def execWipeDone (k : Fin 16) (s : State) : Out :=
  if !s.loads || s.regionState k != 4 then .next s
  else .next (((s.wipeCells k).setRegion k (if (s.fence k).abort then 5 else 0)).settleHandovers)

/-- After a boot failure and its wipe, the Gold image loads in native style with the Gold PLL boot record (R166). -/
def execGoldFallback (s : State) : Out :=
  if s.mode != .boot || !s.loader.fallback || (List.range 16).any s.loading then .next s
  else
    let e := s.goldEntry
    let s := (s.put .CFG_BOOT_STAT_ENTRY (if e = 0xFE then 0xFF else e)).putFlag .CFG_BOOT_STAT_STYLE false
    let s := s.startPlls ((((s.systemItem 3).getD []).drop 512).take 512)
    let s := s.forEach (List.range 16) fun s k => s.setRegion k 1
    .next (s.setLoader { s.loader with
      fallback := false, jobs := [{ kind := .gold, entry := e, regions := List.range 16 }] })

/-- BOOT's loads are over. -/
def State.loadsDone (s : State) : Bool :=
  s.mode == .boot && (s.get .CFG_BOOT_STAT_STATE == 2 || s.get .CFG_BOOT_STAT_STATE == 3) && s.loader.jobs.isEmpty &&
    !s.loader.fallback && !((List.range 16).any s.loading)

/-- BOOT enters RUN once every region has completed and the holdup bank holds 95 % of its charge (R156). -/
def execRunEntry (s : State) : Out :=
  if s.loadsDone && s.flag .NRG_STAT_CHARGED then
    let s := (s.put .CFG_BOOT_STAT_STATE 4).put .CFG_BOOT_TIME_TIME (min (s.now / 1000) 0xFF_FFFF)
    .next (s.setMode .run)
  else .next s

/-! ## LD_RELOAD -/

/-- LD_RELOAD (R170): the checks, with the regions running; RELOAD_FENCE follows. `errors` lists the bits of the image's
pages that read inverted. -/
def execLdReload (m : Fin 5) (errors : List (Nat × List Nat)) (s : State) : Out :=
  .next <| s.command m 0x11 fun p =>
    let e := p.p 0
    let mask := p.p 1
    let d := s.directory
    if 256 ≤ e || 65536 ≤ mask || mask = 0 then s.reply m St.badParam
    else
      let st := s.reloadStatus p.acts (regionsOf mask)
      if st ≠ St.ok then s.reply m st
      else if 64 ≤ e || (d.at e).state ≠ 2 || !(regionsOf mask).all (d.at e).mask.testBit then s.reply m St.badParam
      else if s.programmingEntry (d.at e) then s
      else
        let (t, c) := s.checkStored (segmentBlock (d.at e).slot (d.at e).segment) errors (d.at e).agrees
        if c.status ≠ St.ok then (t.noteCheckFail (regionsOf mask) c.status c.stage).reply m c.status
        else
          let j : LoadJob := { kind := .reload, entry := e, regions := regionsOf mask, header := some c.header
                               mailbox := some m.val, ident := c.ident }
          (t.setLoader { t.loader with reloads := t.loader.reloads ++ [(p.acts, j)] }).await m p .load

/-- Step 3 of a reload (R171, R173): the conditions are checked again; then the regions are fenced and LOADING, and the
reply OK is written. An orderly OFF that has been accepted lets none start (13 R393). -/
def execReloadFence (s : State) : Out :=
  match s.loader.reloads with
  | [] => .next s
  | (o, j) :: rest =>
    if s.mode != .run then .next s
    else
      let s := s.setLoader { s.loader with reloads := rest }
      let st := if s.power.orderly.isSome then St.busy else s.reloadStatus o j.regions
      if st ≠ St.ok then .next (s.refuseReload j st)
      else
        let s := (s.setLoader { s.loader with jobs := s.loader.jobs ++ [j] }).beginRegions j
        .next (match j.mailbox with
          | some m => s.reply m St.ok
          | none => s)

end Sys2Proof.Machine
end

