-- ==== Sys2Proof/Machine/PinCmds.lean ====
section
/-! DEFINITION. The commands of spec/20: shorts and overcurrents, field inputs, wire breaks, open loads, VFIELD. -/

namespace Sys2Proof.Machine

set_option Elab.async false

/-! ## Output shorts (20 R523, R524) -/

/-- The third counted mismatching sample at general output `n`: the driver has been enabled and the pad differs from the
driven value. The pad value is the complement of what the pin drives. -/
def execOutputShort (n : Fin 448) (s : State) : Out :=
  if s.coreOn && s.gioChecked n && !s.gioDisabled n then
    let driven := s.gioLevel n == .high
    .next ((s.putBit .GIO_PAD_PAD (n % 32) (!driven) (n / 32)).gioShort n driven (!driven) false)
  else .next s

/-- A write to GIO_REARM[b] (20 R524, R534). -/
def execGioRearm (who : Requester) (b : Fin 14) (pins : BitVec 32) (s : State) : Out :=
  .next (s.writeAs who .GIO_REARM b pins)

/-! ## Overcurrent (20 R527) -/

/-- The trip level of output n: 1.2 A in the inrush window, else 0.75 A, within the limits of R527 for the latter. -/
def State.tripLevel (s : State) (n : Nat) : Nat := if (s.fioPin n).inrush then 1200 else 600

/-- An overcurrent of `mA` is detected at an output that is on, at or above the trip level and within the limit. -/
def execFieldOvercurrent (n : Fin 64) (mA : BitVec 16) (s : State) : Out :=
  if s.coreOn && s.fioOn n && decide (s.tripLevel n ≤ mA.toNat) && decide (mA.toNat ≤ 1500) then
    .next (s.fioTrip n mA.toNat false)
  else .next s

/-- The total current of group g is `mA`, above 4.4 A. -/
def execGroupOverload (g : Fin 4) (mA : BitVec 16) (s : State) : Out :=
  let on := ((List.range 16).map (16 * g.val + ·)).any s.fioOn
  if s.coreOn && on && decide (4400 < mA.toNat) then .next (s.groupTrip g mA.toNat) else .next s

/-- Output n has been on for 10 ms. -/
def execInrushWindowEnd (n : Fin 64) (s : State) : Out := .next (s.putFio n { s.fioPin n with inrush := false })

/-- A write to FIO_REARM[g] (20 R527, R534). -/
def execFioRearm (who : Requester) (g : Fin 4) (pins : BitVec 16) (s : State) : Out :=
  .next (s.writeAs who .FIO_REARM g (pins.setWidth 32))

/-! ## Inputs (20 R525, R526, R531) -/

/-- A configured field input of a group whose VFIELD is good. -/
def State.fieldInput (s : State) (n : Nat) : Bool :=
  (s.fioPin n).settings.testBit 8 && !(s.fioPin n).settings.testBit 1 && s.flag .FIO_GRP_STAT_VFIELD_OK (n / 16)

/-- The filtered value of input n becomes `value`: the raw state has held for the filter time. A selected edge wakes
(R531). -/
def execFieldInputChange (n : Fin 64) (value : Bool) (s : State) : Out :=
  let g := n.val / 16
  let i := n.val % 16
  if s.coreOn && s.fieldInput n && s.bit .FIO_IN_IN i g != value then
    let selected := if value then s.bit .FIO_WAKE_RISE i g else s.bit .FIO_WAKE_FALL i g
    let s := s.putBit .FIO_IN_IN i value g
    .next (if selected && s.bit .PWR_WAKE_EN_FIO g then s.wake 3 g else s)
  else .next s

/-- The current of input n has stayed below 0.2 mA (`broken`), or at or above 0.35 mA, for 10 ms. -/
def execWireBreak (n : Fin 64) (broken : Bool) (s : State) : Out :=
  let g := n.val / 16
  let i := n.val % 16
  if s.coreOn && s.fieldInput n && (s.fioPin n).settings.testBit 4 && s.bit .FIO_DIAG_WIRE_BREAK i g != broken then
    let s := s.putBit .FIO_DIAG_WIRE_BREAK i broken g
    .next (if broken then (s.bump .FIO_CNT_WIRE_BREAKS g).noteFio n 4 false else s)
  else .next s

/-! ## Open loads (20 R528) -/

/-- Open-load detection runs at output n. -/
def State.loadChecked (s : State) (n : Nat) : Bool :=
  s.isFieldOutput n && (s.fioPin n).settings.testBit 3 && s.flag .FIO_GRP_STAT_VFIELD_OK (n / 16)

/-- An open load at output n is set or cleared. -/
def State.setOpenLoad (s : State) (n : Nat) (isOpen : Bool) : State :=
  if s.bit .FIO_DIAG_OPEN_LOAD (n % 16) (n / 16) = isOpen then s
  else
    let s := s.putBit .FIO_DIAG_OPEN_LOAD (n % 16) isOpen (n / 16)
    if isOpen then (s.bump .FIO_CNT_OPEN_LOADS (n / 16)).noteFio n 3 false else s

/-- A test of output n while it is off: the pin voltage of `mV` during the test shows no load above 4 V at a high-side
output, or below VFIELD − 4 V at a low-side one. -/
def execOpenLoadTest (n : Fin 64) (mV : BitVec 16) (s : State) : Out :=
  let vfield := s.get .FIO_GRP_STAT_VFIELD_MV (n.val / 16)
  let noLoad := if (s.fioPin n).settings.testBit 7 then decide (mV.toNat + 4000 < vfield) else decide (4000 < mV.toNat)
  if s.coreOn && s.loadChecked n && !s.fioOn n then .next (s.setOpenLoad n noLoad) else .next s

/-- The load current of output n, which is on, has stayed below 4 mA for 10 ms (`isOpen`), or that condition has been
absent for a full interval. -/
def execOpenLoad (n : Fin 64) (isOpen : Bool) (s : State) : Out :=
  if s.coreOn && s.loadChecked n && (s.fioOn n || !isOpen) then .next (s.setOpenLoad n isOpen) else .next s

/-! ## VFIELD (20 R529) -/

/-- Beyond the ratings of VFIELD (21 Table 21-1), in millivolts. -/
def vfieldBeyond (mV : Int) : Bool := decide (mV < -32000) || decide (40000 < mV)

/-- VFIELDg has held at or above 10.0 V for 10 ms: the flags clear, and the outputs resume. -/
def execVfieldGood (g : Fin 4) (mV : BitVec 16) (s : State) : Out :=
  if vfieldBeyond mV.toNat then .fault .beyondRatings
  else if s.coreOn && decide (10000 ≤ mV.toNat) then
    let s := (s.put .FIO_GRP_STAT_VFIELD_MV mV.toNat g).putFlag .FIO_GRP_STAT_VFIELD_OK true g
    let s := (s.putFlag .FIO_GRP_STAT_UNDERVOLT false g).putFlag .FIO_GRP_STAT_REVERSED false g
    .next (s.showPins (12 + g))
  else .next s

/-- Group g loses VFIELD: its outputs go off and its inputs read 0. FIO_LAST names the group's pin 0, since the event
has no pin. -/
def State.loseField (s : State) (g kind : Nat) : State :=
  let s := (s.putFlag .FIO_GRP_STAT_VFIELD_OK false g).putFlag .FIO_GRP_STAT_UNDERVOLT true g
  (((s.put .FIO_IN_IN 0 g).bump .FIO_CNT_VFIELD_LOSS g).noteFio (16 * g) kind false).showPins (12 + g)

/-- VFIELDg has been below 9.0 V for 10 µs. -/
def execVfieldUndervoltage (g : Fin 4) (mV : BitVec 16) (s : State) : Out :=
  if s.coreOn && decide (mV.toNat < 9000) then
    let s := s.put .FIO_GRP_STAT_VFIELD_MV mV.toNat g
    .next (if s.flag .FIO_GRP_STAT_UNDERVOLT g then s else s.loseField g 5)
  else .next s

/-- VFIELDg is `mV` millivolts below ground. -/
def execVfieldReversal (g : Fin 4) (mV : BitVec 16) (s : State) : Out :=
  if vfieldBeyond (-(mV.toNat : Int)) then .fault .beyondRatings
  else if s.coreOn && decide (500 < mV.toNat) then
    let s := s.put .FIO_GRP_STAT_VFIELD_MV 0 g
    .next (if s.flag .FIO_GRP_STAT_REVERSED g then s else (s.loseField g 6).putFlag .FIO_GRP_STAT_REVERSED true g)
  else .next s

end Sys2Proof.Machine
end

