-- ==== Sys2Proof/Machine/SafetyCmds.lean ====
section
/-! DEFINITION. The commands of spec/17, the MGC's lockstep compare (01 R28), and the register writes of spec/16 and spec/17
that have a row of their own. -/

namespace Sys2Proof.Machine

set_option Elab.async false

/-- A lockstep compare mismatch in the MGC (01 R28, Table 17-1 row 10). -/
def execLockstepMismatch (s : State) : Out :=
  if s.coreOn && !s.power.mgcHalted then .next (s.lockstepMismatch false) else .next s

/-- A write of REQ = 1 to SAF_REQ (17 R462). -/
def execSafReq (who : Requester) (s : State) : Out := .next (s.writeAs who .SAF_REQ 0 1)

/-- SAF_ENTER (17 R479): a dangerous fault with DIAG 13, the sender as DETAIL and USER in the SAFE_ENTER event. -/
def execSafEnter (m : Fin 5) (s : State) : Out :=
  .next <| s.command m 0x60 fun p =>
    if p.p 0 / 2 ^ 16 ≠ 0 then s.reply m St.badParam
    else (s.danger 13 (mailOwner m) none (mailOwner m) false (p.p 0)).reply m St.ok

/-- The single write to SAF_CFG_CRIT (17 R458). -/
def execSafCfgCritWrite (who : Requester) (regions : BitVec 16) (s : State) : Out :=
  .next (s.writeAs who .SAF_CFG_CRIT 0 (regions.setWidth 32))

/-- The single write to SAF_PLL_CRIT (17 R458). -/
def execSafPllCritWrite (who : Requester) (plls : BitVec 16) (s : State) : Out :=
  .next (s.writeAs who .SAF_PLL_CRIT 0 (plls.setWidth 32))

/-- The single write to SAF_IO_CRIT (17 R458). -/
def execSafIoCritWrite (who : Requester) (regions : BitVec 16) (s : State) : Out :=
  .next (s.writeAs who .SAF_IO_CRIT 0 (regions.setWidth 32))

/-- A write to SAF_INJECT with ARM = 1 (17 R481). -/
def execSafInject (who : Requester) (diag : BitVec 4) (index : BitVec 9) (s : State) : Out :=
  .next (s.writeAs who .SAF_INJECT 0 (BitVec.ofNat 32 (2 ^ 31 + 16 * index.toNat + diag.toNat)))

/-- A write to CAL_INJECT with ARM = 1 (16 R455). -/
def execCalInject (who : Requester) (loop : BitVec 3) (s : State) : Out :=
  .next (s.writeAs who .CAL_INJECT 0 (BitVec.ofNat 32 (2 ^ 31 + loop.toNat)))

/-- An entry is taken from the input buffer into the next slot (17 R470). -/
def execEventLogEntry (s : State) : Out := .next s.takeLogEntry

end Sys2Proof.Machine
end

