-- ==== Sys2Proof/Machine/ScrubCmds.lean ====
section
/-! DEFINITION. The configuration scrubber's comparisons and repairs, and SCRUB_QUERY (spec/06). -/

namespace Sys2Proof.Machine

set_option Elab.async false

/-- CFG_SCRUB_LAST and its time: the most recent mismatch; of two found in one instant, that of the lower region
(R191). -/
def State.noteMismatch (s : State) (k f outcome : Nat) (injected : Bool) : State :=
  let earlier := s.get .CFG_SCRUB_LAST_OUTCOME != 0 && s.get .CFG_SCRUB_LAST_TIME_TIME == s.now &&
    decide (s.get .CFG_SCRUB_LAST_FRAME / 4000 < k)
  if earlier then s
  else
    let s := ((s.put .CFG_SCRUB_LAST_FRAME f).put .CFG_SCRUB_LAST_OUTCOME outcome).putFlag .CFG_SCRUB_LAST_INJECTED injected
    s.stamp .CFG_SCRUB_LAST_TIME_TIME

/-- A mismatch at the frame with region offset `o` (R186): SAFE in a marked region; else a repair is queued. -/
def State.mismatch (s : State) (k o : Nat) (injected : Bool) : State :=
  let f := 4000 * k + o
  let marked := s.bit .SAF_CFG_CRIT_REGIONS k
  let outcome := if marked then 2 else 5
  let s := if injected then s.putFlag .CFG_SCRUB_INJECT_ARM false else s
  let l := s.scrubLane k
  let s := s.setLane k { l with
    mismatched := l.mismatched + 1
    repairs := if marked then l.repairs else l.repairs ++ [{ frame := f, injected }] }
  let s := (s.bump .CFG_SCRUB_CNT_MISMATCHES k).noteMismatch k f outcome injected
  let s := s.logEvent 0x0105 f outcome (0x20 + k) (if injected then flagInjected else 0)
  if marked then s.danger 1 k none (0x20 + k) injected
  else (s.laneAfter k o).contained 1 k none (0x20 + k) injected

/-- The lane of region k compares its next static frame, in whose cells upsets have struck since it was last seen (R180,
R182). A lane that has found a mismatch with its repair queue of 4 full pauses until the oldest repair ends: its repair
stands fifth (R187). -/
def execScrubCompare (k : Fin 16) (struck : List (Fin 10240)) (s : State) : Out :=
  if !(s.lanesRun && (s.scrubLane k).running && s.scrubbed k) || decide (4 < (s.scrubLane k).repairs.length) then .next s
  else match s.nextStatic k with
    | none => .next (s.endSweep k)
    | some o =>
      let f := 4000 * k.val + o
      let s := s.upset f struck
      let injected := s.flag .CFG_SCRUB_INJECT_ARM && s.get .CFG_SCRUB_INJECT_FRAME == f
      if !injected && some (crc32 (frameBytes (s.cells f))) = (s.liveEntry f).map (·.1) then
        let l := s.scrubLane k
        .next ((s.setLane k { l with matched := l.matched + 1 }).laneAfter k o)
      else .next (s.mismatch k o injected)

/-- The oldest repair of region k runs to its end (R187 to R189), after `misses` failed confirmations; `errors` lists the
bits of the pages it reads that read inverted. It waits for a program in the flash banks of its chunk, in which no new one
starts meanwhile (R190, 11 R318). -/
def execScrubRepair (k : Fin 16) (misses : Fin 4) (errors : List (Nat × List Nat)) (s : State) : Out :=
  match (s.scrubLane k).repairs with
  | [] => .next s
  | r :: _ =>
    if !s.lanesRun || !s.scrubbed k || (s.repairBanks k).any s.programmingBank then .next s
    else .next (s.repairFrame k r misses errors).releaseUnits

/-- Arming CFG_SCRUB_INJECT (R196). -/
def execCfgScrubInject (who : Requester) (frame : BitVec 16) (s : State) : Out :=
  .next (s.writeAs who .CFG_SCRUB_INJECT 0 (BitVec.ofNat 32 (2 ^ 16 + frame.toNat)))

/-- SCRUB_QUERY (R194, R195): the first complete sweep of each region that starts after the command is taken. -/
def execScrubQuery (m : Fin 5) (s : State) : Out :=
  .next <| s.command m 0x18 fun p =>
    let mask := p.p 0
    if 65536 ≤ mask || mask = 0 then s.reply m St.badParam
    else if !(s.isAdmin (mailOwner m) || (regionsOf mask).all fun k => s.parent k == p.acts && p.acts != 0) then
      s.reply m St.notOwner
    else
      let idle := (regionsOf mask).filter fun k => !s.scrubbed k
      let q : ScrubQuery := { mailbox := m, mask, words := idle.map fun k => (k, queryWord {} true false) }
      ((s.await m p .sweep).setQueries (s.loader.queries ++ [q])).settleQueries

end Sys2Proof.Machine
end

