-- ==== Sys2Proof/Machine/SecurityCmds.lean ====
section
/-! DEFINITION. Authorisation tokens and the life-cycle commands (spec/19). -/

namespace Sys2Proof.Machine

set_option Elab.async false

/-! ## Tokens (R500, R501) -/

/-- An encoding of Table 19-1; their order is that of the table. -/
def lcEncoding (x : Nat) : Bool := x == lcBlank || x == lcProvisioned || x == lcDeployed || x == lcReturned

/-- The key slots that are PROGRAMMED and not revoked. -/
def State.usableSlots (s : State) : List Nat := (List.range 4).filter s.keyUsable

/-- Slot `i` cannot be programmed: it is PROGRAMMED or partial (R499). -/
def State.slotSpent (s : State) (i : Nat) : Bool := s.fuse (8 + i) || SMap.look false s.fuses.slotTouched i

/-- Check 3: the signing slot, its key and the signature over bytes 0x000 to 0x07F. -/
def State.tokenSigned (s : State) (t : List Byte) : Bool :=
  let slot := field t 7 1
  let key := (t.drop 0x80).take 97
  slot ≤ 3 && s.keyUsable slot && decide (bytesOfHash (Config.sha384 key) = SMap.look [] s.fuses.slotHash slot) &&
    Config.ecdsaVerify key (t.take 0x80) ((t.drop 0xE8).take 48) ((t.drop 0x118).take 48)

/-- Checks 5 to 7, of a token whose ACTION is `action`. -/
def State.tokenFits (s : State) (action : Nat) (t : List Byte) : Nat :=
  let lo := field t 0x10 1
  let hi := field t 0x11 1
  let arg := field t 0x12 1
  match action with
  | 1 => if lcEncoding lo && lcEncoding hi && decide (lo ≤ s.lc) && decide (s.lc < hi) then St.ok else St.lifecycleDenied
  | 2 => if 3 < arg || s.slotSpent arg then St.badParam else St.ok
  | _ => if arg ≠ field t 7 1 || s.usableSlots = [arg] then St.badParam else St.ok

/-- The reserved bytes of Table 19-3 are 0. -/
def tokenReserved (t : List Byte) : Bool := zeroBytes t 0x13 13 && zeroBytes t 0x50 48 && zeroBytes t 0xE1 7

/-- The checks of R501 in their order. -/
def State.checkToken (s : State) (action : Nat) (t : List Byte) : Nat :=
  let a := field t 6 1
  if t.take 4 ≠ [0x53, 0x5A, 0x4C, 0x54] || field t 4 2 ≠ 0x0100 || !(1 ≤ a && a ≤ 3) || !tokenReserved t then St.badParam
  else if field t 8 8 ≠ s.get .DEV_UID_UID then St.idMismatch
  else if !s.tokenSigned t then St.authFail
  else if a ≠ action then St.badParam
  else s.tokenFits action t

/-- DEV_LC_LAST shows the token, and a refused one is counted. -/
def State.noteToken (s : State) (t : List Byte) (status : Nat) : State :=
  let s := ((s.put .DEV_LC_LAST_ACTION (field t 6 1)).put .DEV_LC_LAST_KEY_SLOT (field t 7 1)).put .DEV_LC_LAST_STATUS status
  if status = St.ok then s else s.bump .DEV_LC_CNT_REFUSED

/-- A command that carries a token: checked and recorded, and acted on where it passes. -/
def State.withToken (s : State) (m action : Nat) (p : Packet) (f : State → List Byte → State) : State :=
  let t := wordBytes p.params
  let st := s.checkToken action t
  let s := s.noteToken t st
  if st ≠ St.ok then s.reply m st else f s t

/-! ## Fuses -/

/-- A flag's three copies are blown. -/
def State.blowFlag (s : State) (n : Nat) : State :=
  { s with fuses := { s.fuses with flag := SMap.put 0 s.fuses.flag n 7 } }.showFuses

/-- A slot's data words are blown; where they read back right, PROGRAMMED follows, and the slot is partial where not
(R505). -/
def State.programSlot (s : State) (i : Nat) (hash : List Byte) (good : Bool) : State :=
  let s := { s with fuses := { s.fuses with
    slotHash := SMap.put [] s.fuses.slotHash i (if good then hash else [])
    slotTouched := SMap.put false s.fuses.slotTouched i true } }
  if good then s.blowFlag (8 + i) else s.showFuses

/-! ## Commands (R502 to R508, R514, R515) -/

/-- LC_ADVANCE: steps 1 and 2 of Table 19-4, which act as DEV_REBOOT with FORCE; ORDERLY_COMMIT makes the rest. -/
def execLcAdvance (m : Fin 5) (s : State) : Out :=
  .next <| s.command m 0xA0 fun p =>
    if s.power.orderly.isSome then s.reply m St.busy
    else s.withToken m 1 p fun s t =>
      let o : Orderly :=
        { cause := .lifecycle, mailbox := some m.val, restart := true, noTest := true, lifeCycle := some (field t 0x11 1) }
      (s.await m p .commit).acceptOff o true

/-- LC_KEY_SET: `good` is whether the data words read back right. -/
def execLcKeySet (m : Fin 5) (good : Bool) (s : State) : Out :=
  .next <| s.command m 0xA1 fun p =>
    if s.lc = lcBlank then
      if 4 ≤ p.p 0 || s.slotSpent (p.p 0) then s.reply m St.badParam
      else (s.programSlot (p.p 0) (wordBytes (p.params.drop 1)) good).reply m (if good then St.ok else St.unstable)
    else s.withToken m 2 p fun s t =>
      let s := s.programSlot (field t 0x12 1) ((t.drop 0x20).take 48) good
      if good then (s.bump .DEV_LC_CNT_ACCEPTED).reply m St.ok
      else (s.put .DEV_LC_LAST_STATUS St.unstable).reply m St.unstable

/-- LC_REVOKE. -/
def execLcRevoke (m : Fin 5) (s : State) : Out :=
  .next <| s.command m 0xA2 fun p => s.withToken m 3 p fun s t =>
    ((s.blowFlag (12 + field t 0x12 1)).bump .DEV_LC_CNT_ACCEPTED).reply m St.ok

/-- LC_IMAGE_KEY_SET: the key field is written once. -/
def execLcImageKeySet (m : Fin 5) (s : State) : Out :=
  .next <| s.command m 0xA3 fun p =>
    if s.fuses.keyTouched || s.fuse 16 then s.reply m St.badParam
    else ({ s with fuses := { s.fuses with imageKey := wordBytes p.params, keyTouched := true } }.blowFlag 16).reply m St.ok

/-- A load reads the Gold image, or a region holds it (R508). -/
def State.goldBusy (s : State) : Bool :=
  let e := s.goldEntry
  s.entryInUse e || (List.range 16).any fun k =>
    s.get .CFG_REGION_STAT_ENTRY k == e || s.get .CFG_REGION_STAT_ENTRY k == 0xFE

/-- LC_GOLD_WRITE: image bytes go from a bank into slot 0, from the write pointer or again from 0. -/
def execLcGoldWrite (m : Fin 5) (s : State) : Out :=
  .next <| s.command m 0xA4 fun p =>
    if !sourceShape (p.p64 1) (p.p 3) || 100663296 < p.p 0 + p.p 3 || (p.p 0 ≠ 0 && s.goldPointer ≠ some (p.p 0)) then
      s.reply m St.badParam
    else if s.goldBusy then s.reply m St.busy
    else if s.streaming (s.flashBank (p.p 0 / 262144)) || s.unitRunning m (·.opcode == 0xA4) then s
    else
      let t := s.startWrite m p 0 (p.p 0 / 4096) (p.p64 1) (p.p 3) (s.locked (.slot 0))
      let started := (t.running m).any fun q => q.wait == .unit
      if started then
        t.setLoader { t.loader with goldTouched := SMap.putList false [] 0 (List.replicate 16 true) }
      else t

/-- LC_GOLD_COMMIT: the image in slot 0 passes every stage of Table 4-9 and the Gold entry takes it; without a consistent
directory page one is created. `errors` lists the bits of its pages that read inverted. -/
def execLcGoldCommit (m : Fin 5) (errors : List (Nat × List Nat)) (s : State) : Out :=
  .next <| s.command m 0xA5 fun p =>
    let ptr := s.goldPointer.getD 0
    if s.goldBusy then s.reply m St.busy
    else if s.loader.dirNext.isSome || s.programmingEntry { slot := 0, segment := 0, segments := 16 } then s
    else
      let (t, c) := s.checkWhole 0 errors fun h =>
        h.imageType == 1 && decide (h.imageLen ≤ ptr) && decide (h.imageLen ≤ 100663296)
      let segments := (c.header.imageLen + 6291455) / 6291456
      let place : DirEntry := { slot := 0, segment := 0, segments }
      let d : Directory := match t.loader.dir with
        | some d => { d with entry := d.entry.set d.goldEntry (place.commit c) }
        | none => { goldEntry := 0, entry := (place.commit c) :: List.replicate 63 {} }
      if c.status ≠ St.ok then t.reply m c.status else t.updateDirectory m p d (identWords c.ident)

end Sys2Proof.Machine
end

