-- ==== Sys2Proof/Machine/SlateCmds.lean ====
section
/-! DEFINITION. The Slate controller's own steps: window reads, erases that resume, programs and erases that end, the
patrol; and the MGC's background work on the store: checkpoints, erases ahead, the index, the archive and the extents
(11 R316 to R338, R346 to R349). -/

namespace Sys2Proof.Machine

set_option Elab.async false

/-! ## Window reads (Table 11-4) -/

/-- The beats of a page's words from word w on. -/
def pageBeats (ws : List DWord) (w n : Nat) : List (BitVec 256) :=
  (List.range n).map fun i => BitVec.ofNat 256 ((List.range 4).foldl (fun v j =>
    v + (ws.getD (w + 4 * i + j) 0).toNat * 2 ^ (64 * j)) 0)

/-- A read of flash bank b must wait: for a program there, or, unless it goes first, for an erase that has run for less than
200 µs (R318, R322). -/
def State.readHeld (s : State) (b : Nat) (first : Bool) : Bool := s.programmingBank b || (!first && s.eraseFresh b)

/-- The response to a read of the window that its flash bank performs. -/
def State.pageResponse (s : State) (t : Txn) (off : Nat) (flips : List Nat) : State :=
  let l := off / 0x4_0000
  let page := off % 0x4_0000 / 4096
  let r := (s.suspendBank (s.flashBank l) false).readPage l page flips
  let s := r.1.noteRead l page r.2.1
  match r.2.1 with
  | .uncorrectable => s.answerTxn t (t.reject .poison)
  | _ => s.answerTxn t (t.okRead (pageBeats r.2.2 (off % 4096 / 8) t.beats.length))

/-- A read of the window in its flash bank's queue (Table 11-4): 32 are in progress, in the order in which they start. -/
def State.slateResponse (s : State) (t : Txn) (off : Nat) (flips : List Nat) : State :=
  let l := off / 0x4_0000
  let b := s.flashBank l
  if s.erasing l then (s.bump .SLT_SUSPEND_SUSPERASE).answerTxn t (t.reject .suserase)
  else if !((s.bankReads b).take 32).contains t || s.readHeld b t.firstRead then s
  else s.pageResponse t off flips

/-- SLATE_READ: the flash bank serves a window read that the controller has taken (R316, R319, R323); a program that waited
for it may start (R318). -/
def execSlateRead (id : Nat) (flips : List Nat) (s : State) : Out :=
  .next <| match s.takenTxn id with
    | none => s
    | some t => match decodeAddr t.addr with
      | some (.slate off) => if t.kind == .read then (s.slateResponse t off flips).releaseUnits else s
      | _ => s

/-- A suspended erase may resume: no program runs in its bank, and no read of it waits, or only ordinary ones that have kept
it suspended for 200 µs; none while a stream or HOLDUP holds it (R322). -/
def State.mayResume (s : State) (u : FlashUnit) : Bool :=
  let b := s.flashBank u.block
  u.erase && u.suspended && !u.long && !s.programmingBank b &&
    (!s.readWaits b || (decide (u.since + 200000 ≤ s.now) && !((s.bankReads b).any Txn.firstRead) &&
      !((List.range 16).any fun k => (s.repairBanks k).contains b)))

/-- ERASE_RESUME: the suspended erase of block `l` resumes. -/
def execEraseResume (l : Fin 4096) (s : State) : Out :=
  .next <| s.setUnits (s.slate.units.map fun u =>
    if u.block == l.val && s.mayResume u then { u with suspended := false, since := s.now } else u)

/-- SLATE_INGRESS_TIMEOUT: the request at the controller's ingress head has waited 8 µs for room in its flash bank's queue
(R317). -/
def execSlateIngressTimeout (s : State) : Out :=
  let s := s.flowRequests
  .next <| match s.spine.ingress.find? fun t => portOf t.addr == 95 with
    | none => s
    | some t => match decodeAddr t.addr with
      | some (.slate off) =>
        if t.kind == .read && s.slateCheck t.owner off false == .ok && s.slateQueueFull (s.flashBank (off / 0x4_0000)) then
          (s.bump .SLT_QUEUE_QFULL_TIMEOUTS).answerTxn t (t.reject .timeout)
        else s
      | _ => s

/-! ## The ends of programs and erases (R321, R333) -/

/-- PAGE_PROGRAM_DONE: the program running in block `l` has verified after `pulses` pulses, or has not after 31. -/
def execPageProgramDone (l : Fin 4096) (pulses : BitVec 6) (s : State) : Out :=
  .next <| match s.slate.units.find? fun u => !u.erase && u.runs && u.block == l.val with
    | none => s
    | some u =>
      let good := decide (pulses.toNat ≤ 31)
      let s := if good then s.setKind u.block u.page .programmed else s.failPage u.block u.page
      (((s.notePulses u.block pulses.toNat).setUnits (s.slate.units.erase u)).unitEnds u good).releaseUnits

/-- BLOCK_ERASE_DONE: the erase of block `l` has verified after `pulses` pulses, or has not after 8; of the spares drawn
for it, `badSpares` do not verify either. -/
def execBlockEraseDone (l : Fin 4096) (pulses : BitVec 4) (badSpares : Nat) (s : State) : Out :=
  .next <| match s.slate.units.find? fun u => u.erase && u.runs && u.block == l.val with
    | none => s
    | some u =>
      let s := (s.setUnits (s.slate.units.erase u)).eraseEnds u.block pulses.toNat badSpares
      (s.unitEnds u (s.blockState u.block ≠ 2)).releaseUnits

/-! ## The patrol (R332) -/

/-- The patrol reads this page: programmed, of no spare, in no block whose erase is queued, runs or is suspended
(Table 11-9). -/
def State.patrolled (s : State) (n : Nat) : Bool :=
  s.pageKind (n / 64) (n % 64) != .erased && partitionOf (n / 64) != .spares && !s.unreplaced (n / 64) &&
    !(s.slate.units.any fun u => u.erase && u.block == n / 64)

/-- A patrol pass ends. -/
def State.endPatrol (s : State) : State := (s.put .SLT_PATROL_NEXT_PAGE 0).bump .SLT_PATROL_PASSES

/-- PATROL_READ: the next page of the pass, at the lowest priority of its bank. -/
def execPatrolRead (flips : List Nat) (s : State) : Out :=
  .next <|
    if !(s.mode == .boot || s.mode == .run || s.mode == .safe) || !s.flag .SLT_STAT_MAP_LOADED then s
    else
      let first := s.get .SLT_PATROL_NEXT_PAGE
      match ((List.range (262144 - first)).map (first + ·)).find? s.patrolled with
      | none => s.endPatrol
      | some n =>
        let b := s.flashBank (n / 64)
        if s.readHeld b false || s.readWaits b then s
        else
          let (s, r, _) := (s.suspendBank b false).readPage (n / 64) (n % 64) flips
          let s := s.noteRead (n / 64) (n % 64) r
          if n + 1 = 262144 then s.endPatrol else s.put .SLT_PATROL_NEXT_PAGE (n + 1)

/-! ## The journal in RUN (R346, R347) -/

/-- The MGC starts background work on the store: in RUN, and not once an orderly OFF is pending. -/
def State.storeWork (s : State) : Bool :=
  s.mode == .run && s.power.orderly.isNone && !s.power.mgcHalted && s.get .DEV_MODE_PHASE != 1

/-- Both copies are in use and differ. -/
def State.copiesDiffer (s : State) : Bool :=
  !s.copyOut 0 && !s.copyOut 1 && s.journal.copy0.seq != s.journal.copy1.seq

/-- Recovery is over. -/
def State.settingsReady (s : State) : State :=
  let s := s.put .SLT_SET_STAT_STATE s.settingsState
  if s.settingsState = 1 then s
  else s.logEvent 0x0205 (if s.copyOut 0 then 0 else 1) (s.regValue .SLT_SET_STAT)

/-- INDEX_REBUILD: the host items are indexed; copies that differ are reconciled by a checkpoint first. -/
def execIndexRebuild (s : State) : Out :=
  .next <| if !s.storeWork || s.journal.indexed then s
    else
      let s := { s with journal := { s.journal with indexed := true } }
      if s.copiesDiffer then s else s.settingsReady

/-- A checkpoint is due: recovery asks for it, or a copy in use has at most 24 free blocks. -/
def State.checkpointDue (s : State) : Bool :=
  (s.recovering && s.journal.indexed) ||
    (!s.recovering && (List.range 2).any fun c => !s.copyOut c && decide ((s.copy c).free ≤ 24))

/-- The changes of a checkpoint: one for every committed item. -/
def State.checkpointChanges (s : State) : List Change :=
  s.items.map fun i => { owner := i.owner, id := i.id, value := some i.value }

/-- CHECKPOINT: written to both copies under class 6, once both have room for it and for what is pending. -/
def execCheckpoint (fails0 fails1 : Nat) (s : State) : Out :=
  .next <|
    let cs := s.checkpointChanges
    if !s.storeWork || !s.checkpointDue || s.journalWorn then s
    else if !s.admits 6 then s.refuseEnergy 6
    else if !(s.roomFor (txnPages cs + (4095 + s.pendingBytes) / 4096 + 4) (fails0 + fails1) && s.logsFree) then s
    else
      let s := s.writeBoth 0x01 cs true fails0 fails1
      if s.recovering then s.settingsReady else s

/-- JOURNAL_ERASE_AHEAD: the block after those erased ahead in copy c, where it is free. -/
def execJournalEraseAhead (c : Fin 2) (s : State) : Out :=
  .next <|
    let k := s.copy c.val
    let l := (Partition.settings c.val).base + (k.block + 1 + k.ahead) % 64
    if !s.storeWork || s.copyOut c.val || k.free ≤ k.ahead || s.slate.units.any (fun u => u.user == .ahead c.val) then s
    else if !s.admits 1 then s.refuseEnergy 1
    else (s.admitOp 1 l).startErase l (.ahead c.val) (some 1) (s.streaming (s.flashBank l))

/-! ## The archive and the extents (R348, R349) -/

/-- A block of the archive that is to be erased: the two blocks ahead of the write point, and the block of the write point
itself before its first page. -/
def State.archiveErase (s : State) : Option Nat :=
  let ahead := if s.journal.archivePage % 64 = 0 then [0, 1, 2] else [1, 2]
  (ahead.map fun i => (archivePlace (s.journal.archivePage + 64 * i)).1).find? fun l =>
    decide (0 < s.nextPage l) && !s.blockBusy l

/-- The next archive page fails: its block is abandoned, and its entries stay unarchived (R321). -/
def State.failArchive (s : State) : State :=
  let (l, p) := archivePlace s.journal.archivePage
  let next := (s.journal.archivePage / 64 + 1) * 64 % 4096
  { s.failPage l p with journal := { s.journal with archivePage := next } }

/-- ARCHIVE_WRITE: the erase of the oldest block where fewer than 2 erased blocks stand ahead; else one page of the oldest
entries while 1,024 are not archived. `failed`: the page does not verify. -/
def execArchiveWrite (failed : Bool) (s : State) : Out :=
  .next <|
    if !s.storeWork || s.bit .SLT_PART_LOG_LOCK 0 then s
    else match s.archiveErase with
      | some l =>
        if !s.admits 1 then s.refuseEnergy 1
        else (s.admitOp 1 l).startErase l .archive (some 1) (s.streaming (s.flashBank l))
      | none =>
        if s.unarchived.length < 1024 || !s.archiveReady || !s.archiveFree then s
        else if !s.admits 0 then s.refuseEnergy 0
        else if failed then s.failArchive
        else s.writeArchivePage

/-- EXTENT_ERASE: the next block of an extent that reads ERASING. -/
def execExtentErase (x : Fin 64) (s : State) : Out :=
  .next <|
    let left := SMap.look 0 s.journal.extentLeft x.val
    let l := (Partition.user x.val).base + (32 - left)
    if !s.storeWork || left = 0 || s.flag .SLT_PART_USER_LOCK || s.blockBusy l then s
    else if !s.admits 1 then s.refuseEnergy 1
    else (s.admitOp 1 l).startErase l (.extent x.val) (some 1) (s.streaming (s.flashBank l))

end Sys2Proof.Machine
end

