-- ==== Sys2Proof/Machine/SettingsCmds.lean ====
section
/-! DEFINITION. The Slate and settings commands of Table 11-10 (11 R339 to R341, R344, R351 to R353). -/

namespace Sys2Proof.Machine

set_option Elab.async false

/-! ## Items of one owner -/

/-- The owner of the items a command works on (R339). -/
def State.itemOwner (s : State) (p : Packet) : Nat := s.top p.acts

/-- The staged change of an item. -/
def State.stagedItem (s : State) (o id : Nat) : Option Change :=
  s.journal.staged.find? fun c => c.owner == o && c.id == id

/-- IDs and lengths of an owner's items, committed and staged, in ascending order. -/
def State.itemList (s : State) (o : Nat) : List (Nat × Nat) :=
  ((applyChanges s.items (s.stagedOf o)).filter (·.owner == o)).map fun i => (i.id, i.value.length)

/-- What SET_READ finds: the value, and whether it is a staged one (R340). -/
def State.itemValue (s : State) (o id : Nat) : Option (List Byte) × Bool :=
  match s.stagedItem o id with
  | some c => (c.value, c.value.isSome)
  | none => ((findItem s.items o id).map (·.value), false)

/-- The reply of SET_READ for an item that was found. -/
def State.replyItem (s : State) (m : Nat) (p : Packet) (v : List Byte) (pending unreadable : Bool) : State :=
  let (t, st) := s.useBank (mailOwner m) (p.p64 2) v.length
  if p.p 1 < v.length then s.reply m St.badParam
  else if st ≠ St.ok then t.reply m st
  else if unreadable && !pending then s.reply m St.poisoned
  else (s.writeBankBytes (p.p64 2) v).reply m St.ok [BitVec.ofNat 32 v.length, BitVec.ofNat 32 (1 + 2 * pending.toNat)]

/-- SET_READ. `unreadable`: a committed item's page is uncorrectable in both copies. -/
def execSetRead (m : Fin 5) (unreadable : Bool) (s : State) : Out :=
  .next <| s.command m 0x20 fun p =>
    if s.recovering then s.reply m St.busy
    else if 65536 ≤ p.p 0 then s.reply m St.badParam
    else if (s.useBank (mailOwner m) (p.p64 2) 0).2 ≠ St.ok then
      (s.useBank (mailOwner m) (p.p64 2) 0).1.reply m (s.useBank (mailOwner m) (p.p64 2) 0).2
    else match s.itemValue (s.itemOwner p) (p.p 0) with
      | (none, _) => s.reply m St.ok [0, 0]
      | (some v, pending) => s.replyItem m p v pending unreadable

/-- A SET_COMMIT of owner `o` in another mailbox waits for its flash banks or for room: a change staged now belongs to the
next transaction, and waits (R350). -/
def State.committing (s : State) (m o : Nat) : Bool :=
  (List.range 5).any fun i => i != m && (s.running i).any fun p => p.opcode == 0x23 && p.progress == 1 && s.itemOwner p == o

/-- The reply of a staging command. -/
def State.replyStage (s : State) (m : Nat) (c : Change) : State :=
  let (st, s) := s.stage c
  s.reply m st (if st = St.ok then [BitVec.ofNat 32 s.pendingBytes] else [])

/-- SET_WRITE. -/
def execSetWrite (m : Fin 5) (s : State) : Out :=
  .next <| s.command m 0x21 fun p =>
    if s.recovering then s.reply m St.busy
    else if 65536 ≤ p.p 0 || 65536 ≤ p.p 1 then s.reply m St.badParam
    else
      let (s, st) := s.useBank (mailOwner m) (p.p64 2) (p.p 1)
      if st ≠ St.ok then s.reply m st
      else if s.committing m (s.itemOwner p) then s
      else match s.readBankBytes (p.p64 2) (p.p 1) with
        | (t, none) => t.reply m St.poisoned
        | (t, some v) => t.replyStage m { owner := s.itemOwner p, id := p.p 0, value := some v }

/-- SET_DELETE. -/
def execSetDelete (m : Fin 5) (s : State) : Out :=
  .next <| s.command m 0x22 fun p =>
    if s.recovering then s.reply m St.busy
    else if 65536 ≤ p.p 0 then s.reply m St.badParam
    else if s.committing m (s.itemOwner p) then s
    else s.replyStage m { owner := s.itemOwner p, id := p.p 0, value := none }

/-- SET_COMMIT: `fails0` and `fails1` attempts of the transaction end in a program failure in each copy first. It waits
while a copy lacks erased room or its flash banks are in use (R318, R346, 05 Table 5-5). -/
def execSetCommit (m : Fin 5) (fails0 fails1 : Nat) (s : State) : Out :=
  .next <| s.command m 0x23 fun p =>
    let o := s.itemOwner p
    let seq := fun s : State => twoWords (s.get .SLT_SET_SEQ_SEQ)
    if s.recovering then s.reply m St.busy
    else if (s.stagedOf o).isEmpty then s.reply m St.ok (seq s)
    else if s.journalWorn then s.reply m St.worn
    else if !s.admits 6 then s.replyEnergyRefused m 6
    else if !(s.roomFor (txnPages (s.stagedOf o) + 4) (fails0 + fails1) && s.logsFree) then
      s.setRunning m (some { p with progress := 1 })
    else
      let s := s.commitOwner o fails0 fails1
      s.reply m St.ok (seq s)

/-- SET_LIST. -/
def execSetList (m : Fin 5) (s : State) : Out :=
  .next <| s.command m 0x24 fun p =>
    if s.recovering then s.reply m St.busy
    else if 65536 ≤ p.p 0 then s.reply m St.badParam
    else
      let l := (s.itemList (s.itemOwner p)).filter fun i => decide (p.p 0 ≤ i.1)
      let shown := l.take 200
      s.reply m St.ok (BitVec.ofNat 32 (shown.length + 256 * (decide (200 < l.length)).toNat) ::
        shown.map fun i => BitVec.ofNat 32 (i.1 + 65536 * i.2))

/-! ## PAGE_STABILITY (R328) -/

/-- The pages of a check one after another. -/
def State.checkPages (s : State) (l times : Nat) (flips : Nat → List (List Nat)) : List Nat → State × List Stability
  | [] => (s, [])
  | page :: ps =>
    let (s, a) := s.readTimes l page {} ((List.range times).map fun i => (flips page).getD i [])
    let (s, as) := State.checkPages s l times flips ps
    (s, a :: as)

/-- The result of a check: CLASS, the highest correction count and the reads that differed. A block with both stable
programmed and stable erased pages reads as stable programmed. -/
def stabilityWord (l : List Stability) : Nat :=
  let cls := if l.any fun a => !a.erased && !a.programmed then 2 else if l.any (·.programmed) then 0 else 1
  cls + 4 * (l.map (·.highest)).foldl max 0 + 256 * min (l.map (·.differ)).sum 255

/-- PAGE_STABILITY. `flips` lists, page by page and read by read, the stored bits that read inverted. -/
def execPageStability (m : Fin 5) (flips : List (List (List Nat))) (s : State) : Out :=
  .next <| s.command m 0x25 fun p =>
    let page := bitsOf (p.p 0) 0 18
    let r := bitsOf (p.p 0) 18 4
    let l := page / 64
    let pages := if (p.p 0).testBit 22 then List.range 64 else [page % 64]
    if 2 ^ 23 ≤ p.p 0 || r = 1 || partitionOf l == .spares then s.reply m St.badParam
    else if !s.mayReadSlate (mailOwner m) l then s.reply m St.notOwner
    else if s.erasing l then s.reply m St.suspendedErase
    else if s.readHeld (s.flashBank l) false then s
    else
      let (s, as) := (s.suspendBank (s.flashBank l) false).checkPages l (if r = 0 then 4 else r)
        (fun q => flips.getD (if (p.p 0).testBit 22 then q else 0) []) pages
      let w := stabilityWord as
      let s := if w % 4 = 2 then s.putFlag .SLT_BLK_WEAR_UNSTABLE true l else s
      s.reply m (if w % 4 = 2 then St.unstable else St.ok) [BitVec.ofNat 32 w]

/-! ## The user area (R338, R348, R353) -/

/-- The command acts for the family of extent x. -/
def State.ownsExtent (s : State) (p : Packet) (x : Nat) : Bool :=
  SMap.look 0x10 s.journal.extentFamily x != 0 && s.top p.acts == SMap.look 0x10 s.journal.extentFamily x

/-- USR_WRITE: pages go from a bank into a block of an extent, one at a time. A stream from its flash bank holds it back
(Table 5-5), and so does another unit of its block. -/
def execUsrWrite (m : Fin 5) (s : State) : Out :=
  .next <| s.command m 0x26 fun p =>
    let x := p.p 0
    let off := p.p 1
    let base := (Partition.user x).base
    let l := base + off / 262144
    if 64 ≤ x || off % 4096 ≠ 0 || 0x80_0000 ≤ off || !sourceShape (p.p64 2) (p.p 4) ||
        262144 < off % 262144 + p.p 4 then s.reply m St.badParam
    else if !s.ownsExtent p x then s.reply m St.notOwner
    else if s.blockBusy l || s.streaming (s.flashBank l) then s
    else if off % 262144 / 4096 < s.nextPage l then s.reply m St.badParam
    else if s.flag .SLT_PART_USER_LOCK then s.reply m St.worn
    else if SMap.look false s.slate.retire l then s.reply m St.unstable [0]
    else s.startWrite m p base (off / 4096) (p.p64 2) (p.p 4) false

/-- USR_ERASE: one block of an extent. -/
def execUsrErase (m : Fin 5) (s : State) : Out :=
  .next <| s.command m 0x27 fun p =>
    let x := bitsOf (p.p 0) 0 6
    let l := (Partition.user x).base + bitsOf (p.p 0) 6 5
    if 2048 ≤ p.p 0 then s.reply m St.badParam
    else if !s.ownsExtent p x then s.reply m St.notOwner
    else if s.flag .SLT_PART_USER_LOCK then s.reply m St.worn
    else if s.blockBusy l then s
    else if !s.admits 5 then s.replyEnergyRefused m 5
    else (s.admitOp 5 m).unitErase m p l

/-- The user extent record as it would stand after a change. -/
def State.extentRecord (s : State) (x : Nat) (f : Byte) : List Byte :=
  let old := match s.systemItem 5 with
    | some b => if b.length = 64 then b else List.replicate 64 0x10
    | none => List.replicate 64 0x10
  old.set x f

/-- USR_EXTENT_SET: journalled, in force from the next boot. -/
def execUsrExtentSet (m : Fin 5) (fails0 fails1 : Nat) (s : State) : Out :=
  .next <| s.command m 0x28 fun p =>
    let f := bitsOf (p.p 0) 8 8
    if 65536 ≤ p.p 0 || bitsOf (p.p 0) 6 2 ≠ 0 || !(f == 0 || (decide (0x10 ≤ f) && decide (f ≤ 0x14))) then
      s.reply m St.badParam
    else s.replyJournal m 5 (s.extentRecord (bitsOf (p.p 0) 0 6) (BitVec.ofNat 8 f)) fails0 fails1

end Sys2Proof.Machine
end

