-- ==== Sys2Proof/Machine/SpineCmds.lean ====
section
/-! DEFINITION. The commands of the spine and of the region ports (spec/07; 03 R87, R105 to R113), and the generic accesses to
control registers (00 R12, R16). -/

namespace Sys2Proof.Machine

set_option Elab.async false

/-! ## Control registers (00 R12 to R16) -/

/-- The width of an access that a command makes at an offset. -/
def widthAt (off : BitVec 24) (wide : Bool) : Width :=
  if off.toNat % 4 ≠ 0 then .bad else if wide then .w64 else .w32

/-- A write of 32 or 64 bits to the control register space. -/
def execRegisterWrite (who : Requester) (off : BitVec 24) (wide : Bool) (data : BitVec 64) (s : State) : Out :=
  .next (s.access who off.toNat (widthAt off wide) (.write (data.toNat % (if wide then 2 ^ 64 else 2 ^ 32))))

/-- A read of 32 or 64 bits, with the latches of R12. -/
def execLatchingRead (who : Requester) (off : BitVec 24) (wide : Bool) (s : State) : Out :=
  .next (s.access who off.toNat (widthAt off wide) .read)

/-! ## Requests, credits, targets, responses -/

/-- A requester port takes a transaction from its consumer (07 R202). The JTAG port is no port of the spine; scrub
transactions, and self-test transfers within one bank group, stay inside the bank-group port (R200). A region port's
consumer is its crossing FIFO: its request takes the lowest free fabric tag and goes the way of INI_REQ (R109, R223). -/
def execRequestSubmit (who : Requester) (kind : TxnKind) (addr : BitVec 48) (beats : List BeatIn) (s : State) : Out :=
  if !s.coreOn then .next s
  else match who with
    | .jtag | .scrubber _ => .next s
    | .selftest g =>
      if portOf addr.toNat = 77 + g.val then .next s else .next (s.submit who.port who.owner kind addr.toNat beats .other)
    | .region p =>
      match (List.range 64).find? fun d => !(s.port p).busy.contains d with
      | none => .next s
      | some d =>
        if s.portReady p && (s.port p).opened.isNone && (kind == .read || kind == .write) &&
            s.iniReady p d (kind == .write) addr.toNat beats.length then
          .next (s.transferIni p { dtag := d, write := kind == .write, addr := addr.toNat, count := beats.length, beats := [] }
            beats)
        else .next s
    | _ => .next (s.submit who.port who.owner kind addr.toNat beats .other)

/-- The credit arbiter of target `t` grants a credit, if it has one (07 R208, R215). -/
def execCreditGrant (t : Fin 97) (s : State) : Out :=
  if s.coreOn && decide (0 < s.spine.credits t) then .next (s.grantCredit t) else .next s

/-- Target `t` takes the request at the head of its ingress queue, once what stands on the request plane has come in (01
R39, 07 R213). -/
def execSpineRequest (t : Fin 97) (s : State) : Out :=
  let s := s.flowRequests
  if !s.coreOn then .next s
  else match s.spine.ingress.find? fun x => portOf x.addr == t.val with
    | some x => .next (s.admitTxn x)
    | none => .next s

/-- Target `t` answers a FLUSH once every earlier write of its source to `t` is acknowledged (07 R205). At an endpoint the
host's completion answers it. -/
def execFlush (t : Fin 97) (s : State) : Out :=
  let s := s.flowRequests
  let here := s.spine.taken.filter fun x => portOf x.addr == t.val && !x.lost
  let free := fun f : Txn => !(s.spine.network.map (·.1) ++ here ++ s.spine.ingress).any fun w =>
    w.isWrite && w.src == f.src && portOf w.addr == t.val && decide (w.id < f.id)
  if !s.coreOn || (64 ≤ t.val && t.val < 68) then .next s
  else match here.find? fun x => x.kind == .flush && free x with
    | some x => .next (s.answerTxn x x.okWrite)
    | none => .next s

/-- The response with tag `tag` arrives at requester port `port`, once what stands on the response plane has come through
(07 R203, R213, R216, R224). -/
def execResponseArrival (port : Fin 97) (tag : Fin 2048) (s : State) : Out :=
  let s := s.flowResponses
  match s.spine.answered.find? fun a =>
    a.txn.src == port.val && a.txn.tag == tag.val && !a.txn.lost && !a.txn.freed && a.way.isEmpty with
  | some a => if s.coreOn then .next (s.arrive a) else .next s
  | none => .next s

/-- The requester's timer of transaction `id` expires (07 R216). -/
def execRequesterTimeout (id : Nat) (s : State) : Out :=
  match (s.spine.waiting ++ s.spine.issued).find? fun t => t.id == id && !t.expired with
  | some t => if s.coreOn then .next (s.expire t) else .next s
  | none => .next s

/-! ## Region ports (03 R105 to R113) -/

/-- The design of port p transfers beats of a request on INI_REQ, one in each cycle of the port clock in which VALID and
READY are high; the header is that of the request's first beat (R106, R107, R109, 07 R223). -/
def execIniReq (p : Fin 64) (dtag : Fin 64) (write : Bool) (addr : BitVec 48) (offered : IniBeats) (s : State) : Out :=
  if !s.portReady p then .next s
  else match s.openRequest p dtag.val write addr.toNat (offered.count.val + 1) with
    | none => .next s
    | some o => .next (s.transferIni p o offered.beats)

/-- The beats of a response that transfer on TGT_RSP, each with code `code`: one for a write. -/
def answerBeats (code : Nat) (data : List (BitVec 256)) : List (Nat × BitVec 256) :=
  if data.isEmpty then [(code, 0)] else data.map fun d => (code, d)

/-- Beats of the design's answer to the oldest request delivered to it transfer, as far as the crossing FIFO has room; the
last of exactly as many as the response has lets it cross (R106, R107, R110). A response of another length than R110 asks
for is not taken (DESIGN CHOICE, log entry 96). -/
def State.transferAnswer (s : State) (p : Nat) (t : Txn) (rest : List (Option Nat)) (bs : List (Nat × BitVec 256))
    (last : Bool) : State :=
  let r := s.port p
  let took := bs.take r.ansRoom
  let all := r.answering.getD [] ++ took
  if last && took.length = bs.length then
    if all.length = t.responseBeats then
      (s.putPort p { r with delivered := rest, answering := none }).designAnswer p t all
    else s
  else if t.responseBeats ≤ all.length then s
  else s.putPort p { r with answering := some all }

/-- The design of port p transfers beats of its answer to the oldest request delivered to it (R110). Until RESYNC_ACK they
are discarded (R113); those of an answer to a request that was answered on the design's behalf are discarded too. -/
def execTgtRsp (p : Fin 64) (code : Fin 16) (offered : RspBeats) (s : State) : Out :=
  let r := s.port p
  let bs := answerBeats code offered.data
  if !(s.regionRuns (p.val / 4) && s.portClocked p) then .next s
  else if r.resync then .next (s.bump .SPN_RP_TGT_TGT_DISC p bs.length)
  else match r.delivered with
    | [] => .next s
    | none :: rest => .next (if offered.last then s.putPort p { r with delivered := rest } else s)
    | some id :: rest =>
      match s.takenTxn id with
      | none => .next (if offered.last then s.putPort p { r with delivered := rest } else s)
      | some t => .next (s.transferAnswer p t rest bs offered.last)

/-- The request that port p's design owes an answer for longest: the oldest delivered one or, while RESYNC_ACK is owed, the
oldest that waits for it (R110, R113). -/
def RegionPort.owed (r : RegionPort) : Option Nat :=
  match r.delivered.findSome? id with
  | some id => some id
  | none => if r.resync then r.req.head?.map (·.1) else none

/-- The design of port p has not begun its answer to the oldest request within 8 µs (R110). -/
def execTargetResponseTimeout (p : Fin 64) (s : State) : Out :=
  let r := s.port p
  if r.answering.isSome then .next s
  else match r.owed with
    | none => .next s
    | some id =>
      match s.takenTxn id with
      | none => .next s
      | some t =>
        let s := s.putPort p { r with
          delivered := r.delivered.map fun d => if d = some id then none else d, req := r.req.filter (·.1 ≠ id) }
        .next ((s.bump .SPN_RP_TO_TGT_TIMEOUT p).answerTxn t (t.reject .timeout))

/-- The request at the head of port p's ingress queue, which passes its checks but cannot be delivered, has waited 8 µs
(07 R222). -/
def execIngressWaitTimeout (p : Fin 64) (s : State) : Out :=
  let s := s.flowRequests
  match s.spine.ingress.find? fun x => portOf x.addr == p.val with
  | none => .next s
  | some t =>
    if s.coreOn && s.regionCheck t.owner (p.val / 4) p == .ok then
      .next ((s.bump .SPN_RP_TO_TGT_TIMEOUT p).answerTxn t (t.reject .timeout))
    else .next s

/-- RESYNC_ACK: all tags are free, and the requests of before the fence count as answered (R113). -/
def execResyncAck (p : Fin 64) (s : State) : Out :=
  if s.regionRuns (p.val / 4) && (s.port p).resync then
    .next (s.putPort p { s.port p with resync := false, delivered := [], busy := [], opened := none, answering := none })
  else .next s

/-- The conditions of R87 have held for 1 µs at boundary channel c (R88). -/
def execChannelReopen (c : Fin 24) (s : State) : Out :=
  if s.channelMayOpen c then .next (s.putChannel c true) else .next s

/-! ## Watchdog and registers (07 R225 to R230) -/

/-- A wait of 10 µs at a watched unit (R225). -/
def execStallDetect (stalled : StallUnit) (s : State) : Out :=
  let s := match stalled with
    | .ingress _ => s.flowRequests
    | .hop .. => s
  if s.coreOn && watched stalled && !s.spine.isolated.contains stalled && s.waitsAt stalled then
    .next ((s.stall stalled).huStall stalled)
  else .next s

/-- A write of CLR = 1 to SPN_FAIR (R229). -/
def execSpnFairClr (who : Requester) (s : State) : Out := .next (s.writeAs who .SPN_FAIR 0 (BitVec.ofNat 32 (2 ^ 31)))

/-- A write to SPN_STALL_INJECT with ARM = 1 (R230). -/
def execSpnStallInject (who : Requester) (node : BitVec 5) (input : BitVec 4) (plane : Bool) (s : State) : Out :=
  .next (s.writeAs who .SPN_STALL_INJECT 0
    (BitVec.ofNat 32 (node.toNat + 2 ^ 5 * input.toNat + 2 ^ 9 * plane.toNat + 2 ^ 16)))

end Sys2Proof.Machine
end

