-- ==== Sys2Proof/Machine/TestCmds.lean ====
section
/-! DEFINITION. Self-test: slice tests, programs run on request, and the end of a program (spec/18). -/

namespace Sys2Proof.Machine

set_option Elab.async false

/-! ## Slice tests -/

/-- BST_SLICE (18 R491, R492, R496): the refusals in their order, then its pages one after another. -/
def execBstSlice (m : Fin 5) (s : State) : Out :=
  .next <| s.command m 0x50 fun p =>
    let n := bitsOf (p.p 0) 0 7
    let page := bitsOf (p.p 0) 7 7
    let count := bitsOf (p.p 0) 14 7 + 1
    let t := s.top (s.bankOwner n)
    if p.p 0 / 2 ^ 21 ≠ 0 || 128 < page + count then s.reply m St.badParam
    else if !((p.acts == t && t != 0) || s.isAdmin p.acts) then s.reply m St.notOwner
    else if s.isParking n || (s.parkFor n).isNone then s.reply m St.badParam
    else if !s.groupOn (groupOfBank n) then s.reply m St.poweredDown
    else if !s.admits 11 then s.replyEnergyRefused m 11
    else (s.admitOp 11 m.val).await m { p with note := [n, page, count, 0, 0] } .slice

/-- The next unit of the slice tests of bank group g (09 Table 9-4): the start of a page, a beat of the save, the march, the
clear, a beat of the restore, or the release. `found` is what the march finds: rows of the page that mismatch, with their
counts, in the order found. -/
def execSlicePage (g : Fin 16) (found : List (Nat × Nat)) (s : State) : Out :=
  if s.mode != .run then .next s
  else
    let cells := ((s.slice g).map fun t => pageCells t.page).getD []
    .next (s.sliceUnit g (found.filter fun f => cells.contains f.1 && 0 < f.2))

/-! ## Programs -/

/-- `n` words of 32 bits from a 4-byte-aligned address in a bank; `none` where a word is poisoned. -/
def State.readList (s : State) (addr n : Nat) : State × Option (List Word) :=
  let at0 := addr / 8 * 8
  match s.readBankBytes at0 (addr + 4 * n - at0) with
  | (s', some bs) =>
    let bs := bs.drop (addr - at0)
    (s', some ((List.range n).map fun i => BitVec.ofNat 32 (ofLe ((bs.drop (4 * i)).take 4))))
  | (s', none) => (s', none)

/-- A checked program is accepted as DEV_REBOOT would be, with class 12 where it writes the Slate die (18 R496). -/
def State.acceptProgram (s : State) (m : Fin 5) (p : Packet) (program : Nat) (steps : List Word) (force : Bool) : State :=
  let slate := program == 1 || steps.any fun w => w.toNat % 16 == 4
  if slate && !s.admits 12 then s.replyEnergyRefused m 12
  else match if force then none else s.offRefusal with
    | some (reason, refuser) => s.replyRefusal m 8 reason refuser 0
    | none =>
      let s := if slate then s.admitOp 12 0 else s
      let o : Orderly :=
        { cause := .program, mailbox := some m.val, restart := true, noTest := true, program := some program }
      ({ s with test := { s.test with steps } }.await m p .commit).acceptOff o force

/-- BST_PROG_RUN (18 R483, R493, R496): the steps are copied and checked, and the device then acts as for DEV_REBOOT. -/
def execBstProgRun (m : Fin 5) (s : State) : Out :=
  .next <| s.command m 0x51 fun p =>
    let program := bitsOf (p.p 0) 0 8
    let force := (p.p 0).testBit 8 || s.impliedForce
    let n := p.p 1
    let addr := p.p64 2
    if program = 0x80 && s.lc = lcDeployed then s.reply m St.lifecycleDenied
    else if p.p 0 / 512 ≠ 0 || !(program == 1 || program == 2 || program == 0x80) then s.reply m St.badParam
    else if program ≠ 0x80 then
      if n ≠ 0 || addr ≠ 0 then s.reply m St.badParam
      else s.acceptProgram m p program (programSteps program []) force
    else if n = 0 || 256 < n || addr % 4 ≠ 0 then s.reply m St.badParam
    else
      let (s, st) := s.useBank (mailOwner m) (addr / 8 * 8) (addr % 8 + 4 * n)
      if st ≠ St.ok then s.reply m st
      else match s.readList addr n with
        | (t, none) => t.reply m St.poisoned
        | (t, some steps) =>
          if !steps.all stepValid then t.reply m St.badParam else t.acceptProgram m p program steps force

/-- The mismatch counts of the steps as the engine reports them; a program cut short has a step that is not complete. -/
def State.testCounts (s : State) (counts : List (Option Nat)) : List (Option Nat) :=
  let cs := (List.range s.test.steps.length).map fun i => counts.getD i none
  if s.test.cut && cs.all (·.isSome) then cs.dropLast ++ [none] else cs

/-- What follows the end of a program: the loads of the boot after STARTUP, OFF after any other; in SAFE a shutdown ends. -/
def State.afterTest (s : State) (program : Nat) : State :=
  if s.mode == .holdup then s
  else match s.power.orderly with
    | some o =>
      if s.mode == .safe && o.cause == .shutdown then
        { s with power := { s.power with orderly := none } }.put .DEV_MODE_PHASE 0
      else s.orderlyOff o
    | none => if program = 2 && s.mode == .boot then s.startLoads else s

/-- A program ends, or has been stopped (18 R486 to R490, R494): its record and events are written, with the mismatch count
of each complete step and the failing addresses in the order found. -/
def execSelftestDone (counts : List (Option Nat)) (fails : List (Fin 6 × BitVec 24)) (s : State) : Out :=
  match s.test.program with
  | none => .next s
  | some program =>
    let cs := s.testCounts counts
    let r := s.testRecord program s.test.steps cs (fails.map fun f => (f.1.val, f.2.toNat))
    let s := (s.testBlockSteps s.test.steps cs).releaseOp 12 0 |>.releaseOp 13 0
    let startup := s.power.orderly.isNone && program == 2
    let s := { s with test := { program := none, steps := [], cut := false, record := some r } }.showTests.logTest r
    let s := if startup then s.showRecord 1 r else s
    let s := if r.outcome = outcomeFail then s.putFlag .BST_STAT_FAIL true else s
    let cleared := (s.mode == .boot || s.mode == .run) && decide (r.steps = r.length)
    let s := if cleared then s.forEach ((List.range 128).filter fun n => s.groupOn (groupOfBank n)) State.scrubRestart else s
    .next (s.afterTest program)

end Sys2Proof.Machine
end

