-- ==== Sys2Proof/Machine/Dispatch.lean ====
section
/-! DEFINITION. exec: one arm per command, each one direct call of its meaning. -/

namespace Sys2Proof.Machine

def exec (i : Instr) (s : State) : Host.Outcome State Fault Refusal :=
  match i with
  | .vinGood => Sys2Proof.Machine.execVinGood s
  | .timebaseSwitch => Sys2Proof.Machine.execTimebaseSwitch s
  | .imageCheck bad => Sys2Proof.Machine.execImageCheck bad s
  | .chunkArrival ix bad => Sys2Proof.Machine.execChunkArrival ix bad s
  | .frameWrite k misses => Sys2Proof.Machine.execFrameWrite k misses s
  | .loadComplete k => Sys2Proof.Machine.execLoadComplete k s
  | .wipeDone k => Sys2Proof.Machine.execWipeDone k s
  | .goldFallback => Sys2Proof.Machine.execGoldFallback s
  | .runEntry => Sys2Proof.Machine.execRunEntry s
  | .perstRelease k => Sys2Proof.Machine.execPerstRelease k s
  | .linkUp k gen width => Sys2Proof.Machine.execLinkUp k gen width s
  | .perstLow k => Sys2Proof.Machine.execPerstLow k s
  | .hotReset k => Sys2Proof.Machine.execHotReset k s
  | .linkDown k => Sys2Proof.Machine.execLinkDown k s
  | .functionLevelReset k => Sys2Proof.Machine.execFunctionLevelReset k s
  | .mailboxClearDone m => Sys2Proof.Machine.execMailboxClearDone m s
  | .linkPowerState k change => Sys2Proof.Machine.execLinkPowerState k change s
  | .barTlp k bar offset write ds => Sys2Proof.Machine.execBarTlp k bar offset write ds s
  | .spiRead addr words late => Sys2Proof.Machine.execSpiRead addr words late s
  | .spiWriteWord addr data => Sys2Proof.Machine.execSpiWriteWord addr data s
  | .spiStatus => Sys2Proof.Machine.execSpiStatus s
  | .spiUnknownOperation op => Sys2Proof.Machine.execSpiUnknownOperation op s
  | .spiCsRise => Sys2Proof.Machine.execSpiCsRise s
  | .mailboxEntryWrite who m word data => Sys2Proof.Machine.execMailboxEntryWrite who m word data s
  | .mbxReqTailWrite who m tail => Sys2Proof.Machine.execMbxReqTailWrite who m tail s
  | .mbxRspHeadWrite who m head => Sys2Proof.Machine.execMbxRspHeadWrite who m head s
  | .mbxClear who m irqEn => Sys2Proof.Machine.execMbxClear who m irqEn s
  | .packetStart => Sys2Proof.Machine.execPacketStart s
  | .nop m => Sys2Proof.Machine.execNop m s
  | .hostAttachGet m => Sys2Proof.Machine.execHostAttachGet m s
  | .hostAttachSet m fails0 fails1 => Sys2Proof.Machine.execHostAttachSet m fails0 fails1 s
  | .registerWrite who off wide data => Sys2Proof.Machine.execRegisterWrite who off wide data s
  | .latchingRead who off wide => Sys2Proof.Machine.execLatchingRead who off wide s
  | .requestSubmit who kind addr beats => Sys2Proof.Machine.execRequestSubmit who kind addr beats s
  | .creditGrant t => Sys2Proof.Machine.execCreditGrant t s
  | .spineRequest t => Sys2Proof.Machine.execSpineRequest t s
  | .flush t => Sys2Proof.Machine.execFlush t s
  | .responseArrival port tag => Sys2Proof.Machine.execResponseArrival port tag s
  | .requesterTimeout id => Sys2Proof.Machine.execRequesterTimeout id s
  | .iniReq p dtag write addr offered => Sys2Proof.Machine.execIniReq p dtag write addr offered s
  | .tgtRsp p code offered => Sys2Proof.Machine.execTgtRsp p code offered s
  | .targetResponseTimeout p => Sys2Proof.Machine.execTargetResponseTimeout p s
  | .ingressWaitTimeout p => Sys2Proof.Machine.execIngressWaitTimeout p s
  | .resyncAck p => Sys2Proof.Machine.execResyncAck p s
  | .channelReopen c => Sys2Proof.Machine.execChannelReopen c s
  | .stallDetect stalled => Sys2Proof.Machine.execStallDetect stalled s
  | .spineRateMeasure mtps => Sys2Proof.Machine.execSpineRateMeasure mtps s
  | .marginProbe percent => Sys2Proof.Machine.execMarginProbe percent s
  | .spnFairClr who => Sys2Proof.Machine.execSpnFairClr who s
  | .spnStallInject who node input plane => Sys2Proof.Machine.execSpnStallInject who node input plane s
  | .bnkOwnerHandover who n expect new clr => Sys2Proof.Machine.execBnkOwnerHandover who n expect new clr s
  | .attRegionParentHandover who k expect new wipe => Sys2Proof.Machine.execAttRegionParentHandover who k expect new wipe s
  | .attGroupParentHandover who g expect new clr => Sys2Proof.Machine.execAttGroupParentHandover who g expect new clr s
  | .clearOnHandover n => Sys2Proof.Machine.execClearOnHandover n s
  | .ownRead m => Sys2Proof.Machine.execOwnRead m s
  | .ownHandover m => Sys2Proof.Machine.execOwnHandover m s
  | .ownRecordGet m => Sys2Proof.Machine.execOwnRecordGet m s
  | .ownRecordSet m fails0 fails1 => Sys2Proof.Machine.execOwnRecordSet m fails0 fails1 s
  | .bankRead who n w => Sys2Proof.Machine.execBankRead who n w s
  | .bankWrite who n w data whole => Sys2Proof.Machine.execBankWrite who n w data whole s
  | .scrubStep n => Sys2Proof.Machine.execScrubStep n s
  | .scrubPassOverdue n => Sys2Proof.Machine.execScrubPassOverdue n s
  | .bankClear g => Sys2Proof.Machine.execBankClear g s
  | .bankClearDone g => Sys2Proof.Machine.execBankClearDone g s
  | .bnkInject who n word bitA bitB double => Sys2Proof.Machine.execBnkInject who n word bitA bitB double s
  | .bnkParkWrite who q bankA validA bankB validB => Sys2Proof.Machine.execBnkParkWrite who q bankA validA bankB validB s
  | .slicePage g found => Sys2Proof.Machine.execSlicePage g found s
  | .dmaDoorbell who r tail => Sys2Proof.Machine.execDmaDoorbell who r tail s
  | .ringEnable who r size vector => Sys2Proof.Machine.execRingEnable who r size vector s
  | .ringDisable who r => Sys2Proof.Machine.execRingDisable who r s
  | .ringHalt who r => Sys2Proof.Machine.execRingHalt who r s
  | .ringResume who r => Sys2Proof.Machine.execRingResume who r s
  | .dmaIssue p => Sys2Proof.Machine.execDmaIssue p s
  | .descriptorStart r ix => Sys2Proof.Machine.execDescriptorStart r ix s
  | .chainNext r ix => Sys2Proof.Machine.execChainNext r ix s
  | .completionWrite r => Sys2Proof.Machine.execCompletionWrite r s
  | .msixSend r => Sys2Proof.Machine.execMsixSend r s
  | .attKeyChange who e expect new => Sys2Proof.Machine.execAttKeyChange who e expect new s
  | .attMapWrite who e rd wr base limit => Sys2Proof.Machine.execAttMapWrite who e rd wr base limit s
  | .attSweep => Sys2Proof.Machine.execAttSweep s
  | .slateRead id flips => Sys2Proof.Machine.execSlateRead id flips s
  | .eraseResume l => Sys2Proof.Machine.execEraseResume l s
  | .slateIngressTimeout => Sys2Proof.Machine.execSlateIngressTimeout s
  | .pageProgramDone l pulses => Sys2Proof.Machine.execPageProgramDone l pulses s
  | .blockEraseDone l pulses badSpares => Sys2Proof.Machine.execBlockEraseDone l pulses badSpares s
  | .patrolRead flips => Sys2Proof.Machine.execPatrolRead flips s
  | .checkpoint fails0 fails1 => Sys2Proof.Machine.execCheckpoint fails0 fails1 s
  | .journalEraseAhead c => Sys2Proof.Machine.execJournalEraseAhead c s
  | .indexRebuild => Sys2Proof.Machine.execIndexRebuild s
  | .archiveWrite failed => Sys2Proof.Machine.execArchiveWrite failed s
  | .extentErase x => Sys2Proof.Machine.execExtentErase x s
  | .setRead m unreadable => Sys2Proof.Machine.execSetRead m unreadable s
  | .setWrite m => Sys2Proof.Machine.execSetWrite m s
  | .setDelete m => Sys2Proof.Machine.execSetDelete m s
  | .setCommit m fails0 fails1 => Sys2Proof.Machine.execSetCommit m fails0 fails1 s
  | .setList m => Sys2Proof.Machine.execSetList m s
  | .pageStability m flips => Sys2Proof.Machine.execPageStability m flips s
  | .usrWrite m => Sys2Proof.Machine.execUsrWrite m s
  | .usrErase m => Sys2Proof.Machine.execUsrErase m s
  | .usrExtentSet m fails0 fails1 => Sys2Proof.Machine.execUsrExtentSet m fails0 fails1 s
  | .ledgerSample vinMv iinMa intMv extMv charging domains => Sys2Proof.Machine.execLedgerSample vinMv iinMa intMv extMv charging domains s
  | .capacitanceMeasurement ext discharge current time drop => Sys2Proof.Machine.execCapacitanceMeasurement ext discharge current time drop s
  | .extHoldChargeTimeout => Sys2Proof.Machine.execExtHoldChargeTimeout s
  | .reserveShort fails => Sys2Proof.Machine.execReserveShort fails s
  | .reserveShortClear => Sys2Proof.Machine.execReserveShortClear s
  | .holdupEntry => Sys2Proof.Machine.execHoldupEntry s
  | .holdupRound fail => Sys2Proof.Machine.execHoldupRound fail s
  | .holdupOff => Sys2Proof.Machine.execHoldupOff s
  | .vinReturn => Sys2Proof.Machine.execVinReturn s
  | .nrgQuery m => Sys2Proof.Machine.execNrgQuery m s
  | .nrgSnapshotRead m bad => Sys2Proof.Machine.execNrgSnapshotRead m bad s
  | .nrgCapMeasure m => Sys2Proof.Machine.execNrgCapMeasure m s
  | .pwrDoze m => Sys2Proof.Machine.execPwrDoze m s
  | .dozeEntryComplete => Sys2Proof.Machine.execDozeEntryComplete s
  | .dozeWake source => Sys2Proof.Machine.execDozeWake source s
  | .dozeExit => Sys2Proof.Machine.execDozeExit s
  | .pwrRegion m => Sys2Proof.Machine.execPwrRegion m s
  | .pwrBankGroup m => Sys2Proof.Machine.execPwrBankGroup m s
  | .pwrQuad m => Sys2Proof.Machine.execPwrQuad m s
  | .devShutdown m => Sys2Proof.Machine.execDevShutdown m s
  | .devReboot m => Sys2Proof.Machine.execDevReboot m s
  | .orderlyCommit fails => Sys2Proof.Machine.execOrderlyCommit fails s
  | .restart nresetHigh vinGood => Sys2Proof.Machine.execRestart nresetHigh vinGood s
  | .vinOff => Sys2Proof.Machine.execVinOff s
  | .nresetIn => Sys2Proof.Machine.execNresetIn s
  | .pllApply who k m n => Sys2Proof.Machine.execPllApply who k m n s
  | .referenceWindow k khz => Sys2Proof.Machine.execReferenceWindow k khz s
  | .pllLock k => Sys2Proof.Machine.execPllLock k s
  | .pllQualified k => Sys2Proof.Machine.execPllQualified k s
  | .pllLoss k reference => Sys2Proof.Machine.execPllLoss k reference s
  | .pllSet m => Sys2Proof.Machine.execPllSet m s
  | .pllSetTimeout m => Sys2Proof.Machine.execPllSetTimeout m s
  | .pllBootSet m fails0 fails1 => Sys2Proof.Machine.execPllBootSet m fails0 fails1 s
  | .pllBandLoad m => Sys2Proof.Machine.execPllBandLoad m s
  | .tmbSample m => Sys2Proof.Machine.execTmbSample m s
  | .alarmArm who a vector clear => Sys2Proof.Machine.execAlarmArm who a vector clear s
  | .alarmDisarm who a vector clear => Sys2Proof.Machine.execAlarmDisarm who a vector clear s
  | .alarmFire a => Sys2Proof.Machine.execAlarmFire a s
  | .clrUncert who => Sys2Proof.Machine.execClrUncert who s
  | .lcPllApply who q p refsel m n khz => Sys2Proof.Machine.execLcPllApply who q p refsel m n khz s
  | .lcPllLoss q p => Sys2Proof.Machine.execLcPllLoss q p s
  | .lcPllLock q p => Sys2Proof.Machine.execLcPllLock q p s
  | .laneConfiguration who l setting => Sys2Proof.Machine.execLaneConfiguration who l setting s
  | .cdrLock l => Sys2Proof.Machine.execCdrLock l s
  | .alignment l => Sys2Proof.Machine.execAlignment l s
  | .adaptation l => Sys2Proof.Machine.execAdaptation l s
  | .txUnderrun l => Sys2Proof.Machine.execTxUnderrun l s
  | .rxOverflow l => Sys2Proof.Machine.execRxOverflow l s
  | .recoveredClockStart q ix => Sys2Proof.Machine.execRecoveredClockStart q ix s
  | .eyeScanStart who l phase voff log2Bits => Sys2Proof.Machine.execEyeScanStart who l phase voff log2Bits s
  | .eyeScanDone l errors => Sys2Proof.Machine.execEyeScanDone l errors s
  | .referenceOscillatorWindow complete refs umber => Sys2Proof.Machine.execReferenceOscillatorWindow complete refs umber s
  | .correctionHoldExpiry => Sys2Proof.Machine.execCorrectionHoldExpiry s
  | .slateReadReferenceWindow b image onesAsZero zerosAsOne => Sys2Proof.Machine.execSlateReadReferenceWindow b image onesAsZero zerosAsOne s
  | .energyMeterWindow complete vin int ext gain => Sys2Proof.Machine.execEnergyMeterWindow complete vin int ext gain s
  | .thermalWindow complete zones => Sys2Proof.Machine.execThermalWindow complete zones s
  | .thermalSample zones => Sys2Proof.Machine.execThermalSample zones s
  | .calInject who loop => Sys2Proof.Machine.execCalInject who loop s
  | .lockstepMismatch => Sys2Proof.Machine.execLockstepMismatch s
  | .safReq who => Sys2Proof.Machine.execSafReq who s
  | .safEnter m => Sys2Proof.Machine.execSafEnter m s
  | .safCfgCritWrite who regions => Sys2Proof.Machine.execSafCfgCritWrite who regions s
  | .safPllCritWrite who plls => Sys2Proof.Machine.execSafPllCritWrite who plls s
  | .safIoCritWrite who regions => Sys2Proof.Machine.execSafIoCritWrite who regions s
  | .safInject who diag index => Sys2Proof.Machine.execSafInject who diag index s
  | .eventLogEntry => Sys2Proof.Machine.execEventLogEntry s
  | .scrubCompare k struck => Sys2Proof.Machine.execScrubCompare k struck s
  | .scrubRepair k misses bad => Sys2Proof.Machine.execScrubRepair k misses bad s
  | .cfgScrubInject who frame => Sys2Proof.Machine.execCfgScrubInject who frame s
  | .scrubQuery m => Sys2Proof.Machine.execScrubQuery m s
  | .ldReload m bad => Sys2Proof.Machine.execLdReload m bad s
  | .reloadFence => Sys2Proof.Machine.execReloadFence s
  | .imgDirRead m => Sys2Proof.Machine.execImgDirRead m s
  | .imgAlloc m => Sys2Proof.Machine.execImgAlloc m s
  | .imgWrite m => Sys2Proof.Machine.execImgWrite m s
  | .imgCommit m bad => Sys2Proof.Machine.execImgCommit m bad s
  | .imgSetState m => Sys2Proof.Machine.execImgSetState m s
  | .imgSelect m => Sys2Proof.Machine.execImgSelect m s
  | .imgRegionSelect m => Sys2Proof.Machine.execImgRegionSelect m s
  | .bstSlice m => Sys2Proof.Machine.execBstSlice m s
  | .bstProgRun m => Sys2Proof.Machine.execBstProgRun m s
  | .selftestDone counts fails => Sys2Proof.Machine.execSelftestDone counts fails s
  | .lcAdvance m => Sys2Proof.Machine.execLcAdvance m s
  | .lcKeySet m good => Sys2Proof.Machine.execLcKeySet m good s
  | .lcRevoke m => Sys2Proof.Machine.execLcRevoke m s
  | .lcImageKeySet m => Sys2Proof.Machine.execLcImageKeySet m s
  | .lcGoldWrite m => Sys2Proof.Machine.execLcGoldWrite m s
  | .lcGoldCommit m bad => Sys2Proof.Machine.execLcGoldCommit m bad s
  | .testLogicReset => Sys2Proof.Machine.execTestLogicReset s
  | .extest pins load => Sys2Proof.Machine.execExtest pins load s
  | .samplePreload pins load => Sys2Proof.Machine.execSamplePreload pins load s
  | .idcode => Sys2Proof.Machine.execIdcode s
  | .clamp => Sys2Proof.Machine.execClamp s
  | .highz => Sys2Proof.Machine.execHighz s
  | .extestPulse pins load => Sys2Proof.Machine.execExtestPulse pins load s
  | .extestTrain pins load => Sys2Proof.Machine.execExtestTrain pins load s
  | .bypass => Sys2Proof.Machine.execBypass s
  | .jtagReg offset write data => Sys2Proof.Machine.execJtagReg offset write data s
  | .jtagLoad bytes => Sys2Proof.Machine.execJtagLoad bytes s
  | .outputShort n => Sys2Proof.Machine.execOutputShort n s
  | .gioRearm who b pins => Sys2Proof.Machine.execGioRearm who b pins s
  | .fieldOvercurrent n mA => Sys2Proof.Machine.execFieldOvercurrent n mA s
  | .groupOverload g mA => Sys2Proof.Machine.execGroupOverload g mA s
  | .inrushWindowEnd n => Sys2Proof.Machine.execInrushWindowEnd n s
  | .fioRearm who g pins => Sys2Proof.Machine.execFioRearm who g pins s
  | .fieldInputChange n value => Sys2Proof.Machine.execFieldInputChange n value s
  | .wireBreak n broken => Sys2Proof.Machine.execWireBreak n broken s
  | .openLoadTest n mV => Sys2Proof.Machine.execOpenLoadTest n mV s
  | .openLoad n isOpen => Sys2Proof.Machine.execOpenLoad n isOpen s
  | .vfieldGood g mV => Sys2Proof.Machine.execVfieldGood g mV s
  | .vfieldUndervoltage g mV => Sys2Proof.Machine.execVfieldUndervoltage g mV s
  | .vfieldReversal g mV => Sys2Proof.Machine.execVfieldReversal g mV s
  | .pcieCompletion id data => Sys2Proof.Machine.execPcieCompletion id data s
  | .pcieCompletionTimeout id => Sys2Proof.Machine.execPcieCompletionTimeout id s
  | .retentionLoss => Sys2Proof.Machine.execRetentionLoss s
  | .cdrLockLoss l => Sys2Proof.Machine.execCdrLockLoss l s
  | .alignmentLoss l => Sys2Proof.Machine.execAlignmentLoss l s
  | .fabricClockEdge k rising falling pads lanes rspReady reqReady => Sys2Proof.Machine.execFabricClockEdge k rising falling pads lanes rspReady reqReady s

end Sys2Proof.Machine
end

