-- ==== Sys2Proof/Safety.lean ====
section
/-! DEFINITION. What claims about runs are stated in: outcomes of a step, states a run reaches, and the canonical form of
sparse data. -/

namespace Sys2Proof.Machine

set_option Elab.async false

/-- `t` follows from `s` in one step. -/
def Steps (s t : State) : Prop := step s = .next t

/-- A command completes: its outcome is a next state. -/
def Completes (c : Instr) (s : State) : Prop := ∃ t, exec c s = .next t

/-- A property that every step keeps. -/
def Invariant (inv : State → Prop) : Prop := ∀ s t, inv s → Steps s t → inv t

/-- `t` can be reached from `s` by steps and by commands that arrive at the end of the queue. -/
inductive Reaches : State → State → Prop
  | here (s : State) : Reaches s s
  | step (s t u : State) : Reaches s t → Steps t u → Reaches s u
  | arrive (s t : State) (c : Instr) : Reaches s t → Reaches s { t with pending := t.pending ++ [c] }

/-- The packet of mailbox m with opcode `op` runs: it awaits nothing, the MGC runs, and the mode permits the command (02 R71,
13 R388, R393, 22 R560). -/
structure CommandRuns (s : State) (m op : Nat) (p : Packet) : Prop where
  running : s.running m = some p
  opcode : p.opcode = op
  fresh : p.wait = .nothing
  awake : s.power.mgcHalted = false
  uncommitted : s.power.orderly.any (·.committed) = false
  phase : s.get .DEV_MODE_PHASE ≠ 1
  mode : s.mode = .boot ∨ s.mode = .run ∨ (s.mode = .safe ∧ (opInfo s.lc op).any (·.safe) = true)

/-- A journal record of the MGC can be written now (11 R339 to R352): the copies are not being rebuilt, not both locked, have
room for the transaction and its failed pages, the item can be staged, giving `u`, and the ledger admits the commit. -/
structure JournalTakes (s : State) (id : Nat) (value : List Byte) (fails0 fails1 : Nat) (u : State) : Prop where
  ready : (s.recovering && s.mode == .run) = false
  free : s.logsFree = true
  sound : s.journalWorn = false
  room : s.roomFor (txnPages (s.stagedOf 0x01 ++ [{ owner := 0x01, id, value := some value }]) + 4)
    (fails0 + fails1) = true
  staged : s.stage { owner := 0x01, id, value := some value } = (St.ok, u)
  energy : u.admits 6 = true

/-- The port issues writes of requester `who`: the JTAG port does so in PROVISIONED alone (19 R511, Table 19-6a). -/
def WriteIssues (s : State) (who : Requester) : Prop := who = .jtag → s.lc = lcProvisioned

/-- The port issues reads of requester `who`: the JTAG port does so in PROVISIONED and RETURNED (19 Table 19-6a). -/
def ReadIssues (s : State) (who : Requester) : Prop := who = .jtag → s.jtagIssues = true

/-- Writes of `who` to register `r` are decided by the register itself: the device is not in OFF, the requester issues them,
and SAFE does not bar them (17 R467). -/
structure RegisterOpen (s : State) (who : Requester) (r : Reg) : Prop where
  powered : s.mode ≠ .off
  issues : WriteIssues s who
  safe : s.mode = .safe → r.writableInSafe = true ∨ r.compareAndSet = true

/-- The state once an access has been answered OK with nothing read. -/
def State.acked (s : State) : State := { s with answer := some { codes := [.ok], words := [] } }

/-- The memories keep their canonical form: the register fields, the banks' rows and poison, the Slate die's words and
pages, the mailbox rings. -/
structure MemoryForm (s : State) : Prop where
  regs : SMap.wf 0 s.regs
  rows : SMap.wf 0 s.banks.row
  poison : SMap.wf 0 s.banks.poison
  words : SMap.wf (BitVec.allOnes 64) s.slate.word
  pages : SMap.wf .erased s.slate.page
  requests : SMap.wf 0 s.mail.request
  replies : SMap.wf 0 s.mail.reply

end Sys2Proof.Machine
end

