-- ==== Sys2Proof/Certificates/Slice0/Obligations.lean ====
section
/-! DEFINITION. The statements for the provers: what the commands, grouped by family, do and leave alone; what a step does;
what every step keeps. -/

open Sys2Proof Sys2Proof.Machine

/-- A step executes the command at the front of the queue with the rest of the queue -/
def Obligations.StepRunsFrontCommand : Prop :=
  ∀ (c : Instr) (rest : List Instr) (s : State),
    step { s with pending := c :: rest } = exec c { s with pending := rest }

/-- On an empty queue a step lets time pass: nothing in OFF, else a tick of the timebase and a word time of the lanes (the model's choice, log entry 4) -/
def Obligations.IdleStepPassesTime : Prop :=
  ∀ s : State, s.pending = [] →
    step s = .next s.idle ∧ (s.mode = .off → s.idle = s) ∧ (s.mode ≠ .off → s.idle = s.tick.laneTick)

/-- No command changes the queue of waiting commands -/
def Obligations.ExecLeavesQueueAlone : Prop :=
  ∀ (c : Instr) (s t : State), exec c s = .next t → t.pending = s.pending

/-- A fuse flag that reads set stays set over every step, whatever the command -/
def Obligations.FusesOnlyRise : Prop :=
  ∀ (n : Nat), Invariant fun s => s.fuse n = true

/-- At reset the first life-cycle state bit reads set and the device is in OFF -/
def Obligations.ResetBlowsFirstStateBit : Prop :=
  State.reset.fuse 0 = true ∧ State.reset.mode = .off ∧ State.reset.pending = [] ∧ MemoryForm State.reset

/-- An authorised handover write in RUN replaces the holder and starts the flag's action -/
def Obligations.HandoverByRegisterReplacesHolder : Prop :=
  ∀ (s : State) (who : Requester) (expect new : BitVec 8) (flag : Bool) (r : Resource),
    s.mode = .run → WriteIssues s who → expect.toNat = s.holder r → s.mayHandOver r who.owner expect.toNat new.toNat = true →
    r.eligible new.toNat = true → s.handoverBusy r = false →
    (∀ n : Fin 128, r = .bank n → exec (.bnkOwnerHandover who n expect new flag) s =
      .next (s.handedOver r who.owner expect.toNat new.toNat flag).acked) ∧
    (∀ k : Fin 16, r = .region k → (flag && s.loading k) = false →
      exec (.attRegionParentHandover who k expect new flag) s =
        .next (s.handedOver r who.owner expect.toNat new.toNat flag).acked) ∧
    (∀ g : Fin 64, r = .group g → exec (.attGroupParentHandover who g expect new flag) s =
      .next (s.handedOver r who.owner expect.toNat new.toNat flag).acked)

/-- A handover write that fails a step of R238 changes no owner and is counted as failed -/
def Obligations.HandoverByRegisterIsRefusedInOrder : Prop :=
  ∀ (s : State) (who : Requester) (n : Fin 128) (expect new : BitVec 8) (flag : Bool), s.mode ≠ .off → WriteIssues s who →
    let failed := s.bump .ATT_HO_CNT_FAILED
    let away := expect.toNat ≠ s.holder (.bank n) ∨ s.mayHandOver (.bank n) who.owner expect.toNat new.toNat = false
    (away → exec (.bnkOwnerHandover who n expect new flag) s =
      .next { failed with answer := some { codes := [.notown], words := [] } }) ∧
    (¬away → (Resource.bank n).eligible new.toNat = false ∨ s.mode ≠ .run ∨ s.handoverBusy (.bank n) = true →
      exec (.bnkOwnerHandover who n expect new flag) s =
        .next { failed.captureDecerr who.owner (0x3_0000_0000 + Reg.addr .BNK_OWNER n) true true with
          answer := some { codes := [.decerr], words := [] } })

/-- Submission, credit, admission, FLUSH, response and timer commands of the spine complete with their effect -/
def Obligations.SpineTransactionsMove : Prop :=
  (∀ (who : Requester) (kind : TxnKind) (addr : BitVec 48) (beats : List BeatIn) (s : State),
    s.mode ≠ .off → who ≠ .jtag → (∀ g, who ≠ .scrubber g) → (∀ p, who ≠ .region p) → (∀ g : Fin 16, who = .selftest g
      → portOf addr.toNat ≠ 77 + g.val) → sendable who.port kind addr.toNat beats.length = true →
    exec (.requestSubmit who kind addr beats) s = .next (s.enqueue who.port who.owner kind addr.toNat beats .other)) ∧
  (∀ (who : Requester) (kind : TxnKind) (addr : BitVec 48) (beats : List BeatIn) (s : State),
    s.mode ≠ .off → who ≠ .jtag → (∀ g, who ≠ .scrubber g) → (∀ p, who ≠ .region p) → (∀ g : Fin 16, who = .selftest g
      → portOf addr.toNat ≠ 77 + g.val) → sendable who.port kind addr.toNat beats.length = false →
    exec (.requestSubmit who kind addr beats) s = .next ((s.captureDecerr who.owner addr.toNat (kind == .write)
      false).refuseTxn
      { id := s.spine.nextId, src := who.port, owner := who.owner, kind, addr := addr.toNat, beats, user := .other })) ∧
  (∀ (p d : Fin 64) (kind : TxnKind) (addr : BitVec 48) (beats : List BeatIn) (s : State),
    s.mode ≠ .off → ((List.range 64).find? fun e => !(s.port p).busy.contains e) = some d.val → s.portReady p = true →
      (s.port p).opened = none → (kind = .read ∨ kind = .write) → s.iniReady p d (kind == .write) addr.toNat
      beats.length = true →
    exec (.requestSubmit (.region p) kind addr beats) s = .next (s.transferIni p
      { dtag := d, write := kind == .write, addr := addr.toNat, count := beats.length, beats := [] } beats)) ∧
  (∀ (who : Requester) (kind : TxnKind) (addr : BitVec 48) (beats : List BeatIn) (s : State),
    who = .jtag ∨ (∃ g, who = .scrubber g) ∨ (∃ g : Fin 16, who = .selftest g ∧ portOf addr.toNat = 77 + g.val) →
    exec (.requestSubmit who kind addr beats) s = .next (s)) ∧
  (∀ (t : Fin 97) (s : State),
    s.mode ≠ .off → 0 < s.spine.credits t →
    exec (.creditGrant t) s = .next (s.grantCredit t)) ∧
  (∀ (t : Fin 97) (u : State) (x : Txn) (s : State),
    s.mode ≠ .off → u = s.flowRequests → (u.spine.ingress.find? fun y => portOf y.addr == t.val) = some x →
    exec (.spineRequest t) s = .next (u.admitTxn x)) ∧
  (∀ (t : Fin 97) (u : State) (x : Txn) (here : List Txn) (s : State),
    s.mode ≠ .off → u = s.flowRequests → (64 ≤ t.val && decide (t.val < 68)) = false → (here = u.spine.taken.filter
      fun y => portOf y.addr == t.val && !y.lost) → (here.find? fun y => y.kind == .flush && !(u.spine.network.map
      (·.1) ++ here ++ u.spine.ingress).any fun w => w.isWrite && w.src == y.src && portOf w.addr == t.val && decide
      (w.id < y.id)) = some x →
    exec (.flush t) s = .next (u.answerTxn x x.okWrite)) ∧
  (∀ (port : Fin 97) (tag : Fin 2048) (u : State) (a : Answered) (s : State),
    s.mode ≠ .off → u = s.flowResponses → (u.spine.answered.find? fun b => b.txn.src == port.val && b.txn.tag ==
      tag.val && !b.txn.lost && !b.txn.freed && b.way.isEmpty) = some a →
    exec (.responseArrival port tag) s = .next (u.arrive a)) ∧
  (∀ (id : Nat) (t : Txn) (s : State),
    s.mode ≠ .off → ((s.spine.waiting ++ s.spine.issued).find? fun x => x.id == id && !x.expired) = some t →
    exec (.requesterTimeout id) s = .next (s.expire t))

/-- The region ports' commands complete: request in, answer out, both timers, RESYNC_ACK, channel reopening, stall detection -/
def Obligations.RegionPortsAnswer : Prop :=
  (∀ (p dtag : Fin 64) (write : Bool) (addr : BitVec 48) (offered : IniBeats) (o : IniOpen) (s : State),
    s.portReady p = true → s.openRequest p dtag write addr.toNat (offered.count.val + 1) = some o →
    exec (.iniReq p dtag write addr offered) s = .next (s.transferIni p o offered.beats)) ∧
  (∀ (p : Fin 64) (code : Fin 16) (offered : RspBeats) (id : Nat) (rest : List (Option Nat)) (t : Txn) (s : State),
    s.regionRuns (p.val / 4) = true → s.portClocked p = true → (s.port p).resync = false → (s.port p).delivered = some
      id :: rest → s.takenTxn id = some t →
    exec (.tgtRsp p code offered) s = .next (s.transferAnswer p t rest (answerBeats code offered.data) offered.last)) ∧
  (∀ (p : Fin 64) (id : Nat) (t : Txn) (s : State),
    (s.port p).answering = none → (s.port p).owed = some id → s.takenTxn id = some t →
    exec (.targetResponseTimeout p) s = .next (((s.putPort p
      { s.port p with delivered := (s.port p).delivered.map (fun d => if d = some id then none else d), req := (s.port p).req.filter (·.1 ≠ id) }).bump
      .SPN_RP_TO_TGT_TIMEOUT p).answerTxn t (t.reject .timeout))) ∧
  (∀ (p : Fin 64) (u : State) (t : Txn) (s : State),
    s.mode ≠ .off → u = s.flowRequests → (u.spine.ingress.find? fun x => portOf x.addr == p.val) = some t →
      u.regionCheck t.owner (p.val / 4) p = .ok →
    exec (.ingressWaitTimeout p) s = .next ((u.bump .SPN_RP_TO_TGT_TIMEOUT p).answerTxn t (t.reject .timeout))) ∧
  (∀ (p : Fin 64) (s : State),
    s.regionRuns (p.val / 4) = true → (s.port p).resync = true →
    exec (.resyncAck p) s = .next (s.putPort p
      { s.port p with resync := false, delivered := [], busy := [], opened := none, answering := none })) ∧
  (∀ (c : Fin 24) (a ea b eb : Nat) (s : State),
    channelSides c = ((a, ea), (b, eb)) → s.coreOn = true → s.loaded a = true → s.loaded b = true → s.fenced a = false
      → s.fenced b = false → s.regionDark a = false → s.regionDark b = false → s.parent a = s.parent b →
    exec (.channelReopen c) s = .next (if s.channelEnabled a ea = true ∧ s.channelEnabled b eb = true then
      s.putChannel c true else s)) ∧
  (∀ (c : Fin 24) (s : State),
    s.channelMayOpen c = false →
    exec (.channelReopen c) s = .next (s)) ∧
  (∀ (n : Fin 21) (i : Fin 16) (plane : Bool) (s : State),
    s.mode ≠ .off → watched (.hop n i plane) = true → .hop n i plane ∉ s.spine.isolated → s.waitsAt (.hop n i plane) =
      true →
    exec (.stallDetect (.hop n i plane)) s = .next ((s.stall (.hop n i plane)).huStall (.hop n i plane))) ∧
  (∀ (p : Fin 97) (u : State) (s : State),
    s.mode ≠ .off → u = s.flowRequests → watched (.ingress p) = true → .ingress p ∉ u.spine.isolated → u.waitsAt
      (.ingress p) = true →
    exec (.stallDetect (.ingress p)) s = .next ((u.stall (.ingress p)).huStall (.ingress p)))

/-- Accepted writes of SPN_FAIR, SPN_STALL_INJECT, BNK_INJECT and BNK_PARK leave exactly the values they name -/
def Obligations.SpineAndBankRegisterWrites : Prop :=
  (∀ (who : Requester) (s : State),
    RegisterOpen s who .SPN_FAIR → s.maintains who.owner = true →
    exec (.spnFairClr who) s = .next (((s.put .SPN_FAIR_LINK_WAIT_MAX 0).put .SPN_FAIR_CREDIT_WAIT_MAX 0).acked)) ∧
  (∀ (who : Requester) (node : BitVec 5) (input : BitVec 4) (plane : Bool) (s : State),
    RegisterOpen s who .SPN_STALL_INJECT → s.maintains who.owner = true → nodeInput node.toNat input.toNat plane =
      true →
    exec (.spnStallInject who node input plane) s = .next (((((s.put .SPN_STALL_INJECT_NODE node.toNat).put
      .SPN_STALL_INJECT_INPUT input.toNat).putFlag .SPN_STALL_INJECT_PLANE plane).putFlag .SPN_STALL_INJECT_ARM
      true).acked)) ∧
  (∀ (who : Requester) (n : Fin 128) (word : BitVec 16) (bitA bitB : BitVec 7) (double : Bool) (s : State),
    RegisterOpen s who .BNK_INJECT → (s.maintains who.owner = true ∨ (who.owner = s.top (s.bankOwner n) ∧ s.top
      (s.bankOwner n) ≠ 0)) → bitA.toNat ≤ 71 → (double = true → bitB.toNat ≤ 71 ∧ bitA ≠ bitB) → s.shieldedWord n
      word.toNat = false →
    exec (.bnkInject who n word bitA bitB double) s = .next ((((((s.put .BNK_INJECT_WORD word.toNat n).put
      .BNK_INJECT_BIT_A bitA.toNat n).put .BNK_INJECT_BIT_B bitB.toNat n).putFlag .BNK_INJECT_DOUBLE double n).flipRow
      n word.toNat (BitVec.ofNat 72 (2 ^ bitA.toNat + if double then 2 ^ bitB.toNat else 0))).acked)) ∧
  (∀ (who : Requester) (q : Fin 4) (a : Fin 128) (va : Bool) (b : Fin 128) (vb : Bool) (s : State),
    RegisterOpen s who .BNK_PARK → s.maintains who.owner = true → s.get .BNK_PARK_IN_USE q = 0 → (va = true →
      s.mayPark q a = true) → (vb = true → s.mayPark q b = true) → (va = true → vb = true → groupOfBank a ≠
      groupOfBank b) →
    exec (.bnkParkWrite who q a va b vb) s = .next (((((s.put .BNK_PARK_BANK_A a q).putFlag .BNK_PARK_VALID_A va
      q).put .BNK_PARK_BANK_B b q).putFlag .BNK_PARK_VALID_B vb q).acked))

/-- Links come up, enter and leave D3hot and L1, and go down; PERST, hot reset, link down and FLR are host resets -/
def Obligations.LinkEventsResetTheHost : Prop :=
  (∀ (k : Fin 4) (s : State),
    (s.endpoint k).perstHigh = false →
    exec (.perstRelease k) s = .next ((s.putEndpoint k { s.endpoint k with perstHigh := true }).linkActivity k)) ∧
  (∀ (k : Fin 4) (s : State),
    (s.endpoint k).perstHigh = true →
    exec (.perstRelease k) s = .next (s)) ∧
  (∀ (k : Fin 4) (gen : Fin 6) (width : Fin 9) (s : State),
    s.mode ≠ .off → s.flag .MBX_EP_STAT_ENABLED k = true → (s.endpoint k).perstHigh = true → s.linkUp k = false → 1 ≤
      gen.val → gen.val ≤ s.get .MBX_EP_STAT_CFG_GEN k → width.val ∈ [1, 2, 4, 8] → width.val ≤ 2 ^ s.get
      .MBX_EP_STAT_CFG_WIDTH k →
    exec (.linkUp k gen width) s = .next ((((s.putFlag .MBX_EP_STAT_LINK_UP true k).put .MBX_EP_STAT_GEN gen k).put
      .MBX_EP_STAT_WIDTH width k).linkActivity k)) ∧
  (∀ (k : Fin 4) (gen : Fin 6) (width : Fin 9) (s : State),
    s.mode = .off ∨ s.flag .MBX_EP_STAT_ENABLED k = false ∨ (s.endpoint k).perstHigh = false ∨ s.linkUp k = true ∨
      gen.val = 0 ∨ s.get .MBX_EP_STAT_CFG_GEN k < gen.val ∨ width.val ∉ [1, 2, 4, 8] ∨ 2 ^ s.get
      .MBX_EP_STAT_CFG_WIDTH k < width.val →
    exec (.linkUp k gen width) s = .next (s)) ∧
  (∀ (k : Fin 4) (s : State),
    s.mode ≠ .off → (s.endpoint k).perstHigh = true →
    exec (.perstLow k) s = .next ((((s.putEndpoint k { s.endpoint k with perstHigh := false }).dropLink k).hostReset k
      1).linkActivity k)) ∧
  (∀ (k : Fin 4) (s : State),
    s.mode = .off → (s.endpoint k).perstHigh = true →
    exec (.perstLow k) s = .next (s.putEndpoint k { s.endpoint k with perstHigh := false })) ∧
  (∀ (k : Fin 4) (s : State),
    (s.endpoint k).perstHigh = false →
    exec (.perstLow k) s = .next (s)) ∧
  (∀ (k : Fin 4) (s : State),
    s.mode ≠ .off → s.linkUp k = true →
    exec (.hotReset k) s = .next (((s.dropLink k).hostReset k 2).linkActivity k)) ∧
  (∀ (k : Fin 4) (s : State),
    s.mode ≠ .off → s.linkUp k = true →
    exec (.linkDown k) s = .next (((s.dropLink k).hostReset k 3).linkActivity k)) ∧
  (∀ (k : Fin 4) (s : State),
    s.mode ≠ .off → s.linkUp k = true →
    exec (.functionLevelReset k) s = .next (s.hostReset k 4)) ∧
  (∀ (k : Fin 4) (c : Instr) (s : State),
    s.mode = .off ∨ s.linkUp k = false → (c = .hotReset k ∨ c = .linkDown k ∨ c = .functionLevelReset k ∨ ∃ x, c =
      .linkPowerState k x) →
    exec c s = .next (s)) ∧
  (∀ (k : Fin 4) (s : State),
    s.mode ≠ .off → s.linkUp k = true →
    exec (.linkPowerState k .enterD3hot) s = .next (s.putEndpoint k { s.endpoint k with d3hot := true })) ∧
  (∀ (k : Fin 4) (s : State),
    s.mode ≠ .off → s.linkUp k = true →
    exec (.linkPowerState k .leaveD3hot) s = .next (s.putEndpoint k { s.endpoint k with d3hot := false })) ∧
  (∀ (k : Fin 4) (s : State),
    s.mode ≠ .off → s.linkUp k = true →
    exec (.linkPowerState k .enterL1) s = .next (s.putEndpoint k { s.endpoint k with aspmL1 := true })) ∧
  (∀ (k : Fin 4) (s : State),
    s.mode ≠ .off → s.linkUp k = true → (s.endpoint k).aspmL1 = true →
    exec (.linkPowerState k .leaveL1) s = .next ((s.putEndpoint k { s.endpoint k with aspmL1 := false }).linkActivity
      k)) ∧
  (∀ (k : Fin 4) (s : State),
    s.mode ≠ .off → s.linkUp k = true → (s.endpoint k).aspmL1 = false →
    exec (.linkPowerState k .leaveL1) s = .next (s))

/-- BAR TLPs, SPI transactions and PCIe completions do what R52 to R61, R205 and R217 say -/
def Obligations.HostTransfersComplete : Prop :=
  (∀ (k : Fin 4) (bar : Bar) (offset : BitVec 32) (write : Bool) (ds : List (BitVec 4 × BitVec 32)) (u : State) (s :
    State),
    s.mode ≠ .off → s.linkUp k = true → s.flag .MBX_EP_STAT_ENABLED k = true → u = (if (s.endpoint k).aspmL1 then
      (s.putEndpoint k { s.endpoint k with aspmL1 := false }).linkActivity k else s) → ((s.endpoint k).d3hot = false ∨
      bar = .config) →
    exec (.barTlp k bar offset write ds) s = .next (u.barTlp k bar (offset.toNat / 4 * 4) write ds)) ∧
  (∀ (k : Fin 4) (bar : Bar) (offset : BitVec 32) (write : Bool) (ds : List (BitVec 4 × BitVec 32)) (u : State) (s :
    State),
    s.mode ≠ .off → s.linkUp k = true → s.flag .MBX_EP_STAT_ENABLED k = true → u = (if (s.endpoint k).aspmL1 then
      (s.putEndpoint k { s.endpoint k with aspmL1 := false }).linkActivity k else s) → (s.endpoint k).d3hot = true →
      bar ≠ .config →
    exec (.barTlp k bar offset write ds) s = .next (if write then u.reportAer k else u.completeTo k
      { codes := [], words := [], unsupported := true })) ∧
  (∀ (addr : BitVec 24) (words : Nat) (late : Bool) (s : State),
    s.mode ≠ .off → s.hosts.spi.op = none →
    exec (.spiRead addr words late) s = .next ((s.spiReadWords addr.toNat words).1.putSpi
      { (s.spiReadWords addr.toNat words).1.hosts.spi with op := some .read, out := List.replicate 4 0 ++ (s.spiReadWords addr.toNat words).2 ++ (if late then List.replicate 5 0xFF else []) })) ∧
  (∀ (addr : BitVec 24) (data : BitVec 32) (s : State),
    s.mode ≠ .off → s.hosts.spi.op = none →
    exec (.spiWriteWord addr data) s = .next ((s.putSpi
      { s.hosts.spi with op := some .write, next := addr.toNat + 4, out := List.replicate 8 0 }).spiWriteWord
      addr.toNat data)) ∧
  (∀ (addr : BitVec 24) (data : BitVec 32) (s : State),
    s.mode ≠ .off → s.hosts.spi.op = some .write →
    exec (.spiWriteWord addr data) s = .next ((s.putSpi
      { s.hosts.spi with next := s.hosts.spi.next + 4, out := s.hosts.spi.out ++ List.replicate 4 0 }).spiWriteWord
      s.hosts.spi.next data)) ∧
  (∀ (s : State),
    s.mode ≠ .off → s.hosts.spi.op = none →
    exec (.spiStatus) s = .next (s.putSpi
      { s.hosts.spi with op := some .status, out := leBytes 1 s.hosts.spi.lastWrite ++ leBytes 2 s.hosts.spi.nonOk, nonOk := 0 })) ∧
  (∀ (op : BitVec 8) (s : State),
    s.mode ≠ .off → s.hosts.spi.op = none → op ≠ 0x0B → op ≠ 0x02 → op ≠ 0x05 →
    exec (.spiUnknownOperation op) s = .next (s.putSpi { s.hosts.spi with op := some .unknown, out := [0] })) ∧
  (∀ (s : State),
    exec .spiCsRise s = .next (s.putSpi { s.hosts.spi with op := none })) ∧
  (∀ (id : Nat) (data : List (BitVec 256)) (t : Txn) (s : State),
    (s.spine.taken.find? fun x => x.id == id && decide (64 ≤ portOf x.addr) && decide (portOf x.addr < 68) && !x.lost)
      = some t → (t.kind = .read → data.length = t.beats.length) →
    exec (.pcieCompletion id data) s = .next (s.answerTxn t (t.okBeats data))) ∧
  (∀ (id : Nat) (t : Txn) (s : State),
    (s.spine.taken.find? fun x => x.id == id && decide (64 ≤ portOf x.addr) && decide (portOf x.addr < 68) && !x.lost)
      = some t →
    exec (.pcieCompletionTimeout id) s = .next (s.answerTxn t (t.reject .timeout)))

/-- A mailbox's own host writes its request ring, doorbell and reply head, and clears it -/
def Obligations.MailboxRegistersAndRings : Prop :=
  (∀ (who : Requester) (m : Fin 5) (w : Fin 4096) (data : BitVec 32) (s : State),
    s.mode ≠ .off → mayUseMail m who.owner = true → s.clearingMail m = false → ¬(w.val / 16 + 65536 - s.get
      .MBX_REQ_HEAD_HEAD m) % 256 < s.occupancy m → WriteIssues s who →
    exec (.mailboxEntryWrite who m w data) s = .next
      (({ s with mail := { s.mail with request := SMap.put (0 : Word) s.mail.request (4096 * m.val + w.val) (BitVec.ofNat 32 data.toNat) } }
      : State).acked)) ∧
  (∀ (who : Requester) (m : Fin 5) (tail : BitVec 16) (s : State),
    s.mode ≠ .off → mayUseMail m who.owner = true → s.clearingMail m = false → (tail.toNat + 65536 - s.get
      .MBX_REQ_HEAD_HEAD m) % 65536 ≤ 256 → s.occupancy m ≤ (tail.toNat + 65536 - s.get .MBX_REQ_HEAD_HEAD m) % 65536
      → WriteIssues s who →
    exec (.mbxReqTailWrite who m tail) s = .next (((s.put .MBX_REQ_TAIL_TAIL tail.toNat m).wake 1 m).acked)) ∧
  (∀ (who : Requester) (m : Fin 5) (head : BitVec 16) (s : State),
    s.mode ≠ .off → mayUseMail m who.owner = true → s.clearingMail m = false → (head.toNat + 65536 - s.get
      .MBX_RSP_HEAD_HEAD m) % 65536 ≤ (s.get .MBX_RSP_TAIL_TAIL m + 65536 - s.get .MBX_RSP_HEAD_HEAD m) % 65536 →
      WriteIssues s who →
    exec (.mbxRspHeadWrite who m head) s = .next ((s.put .MBX_RSP_HEAD_HEAD head.toNat m).acked)) ∧
  (∀ (who : Requester) (m : Fin 5) (irqEn : Bool) (t : State) (s : State),
    s.mode ≠ .off → mayUseMail m who.owner = true → s.clearingMail m = false → t = (if m.val < 4 then s.putFlag
      .MBX_CTL_IRQ_EN irqEn m else s).clearMail m → WriteIssues s who →
    exec (.mbxClear who m irqEn) s = .next
      ({ t with answer := none, mail := { t.mail with clearAck := SMap.put 0 t.mail.clearAck m 1 } })) ∧
  (∀ (m : Fin 5) (s : State),
    s.clearingMail m = true → SMap.look 0 s.mail.clearAck m = 1 →
    exec (.mailboxClearDone m) s = .next
      (({ s with mail := { s.mail with clearing := SMap.put false s.mail.clearing m false, clearAck := SMap.put 0 s.mail.clearAck m 0 } }
      : State).acked))

/-- A packet is taken in turn; NOP and the host attachment commands reply as R72 and R73 say -/
def Obligations.PacketsStartAndSimpleCommandsReply : Prop :=
  (∀ (m : Nat) (s : State),
    s.takesPackets = true → s.nextMailbox = some m →
    exec .packetStart s = .next (s.takePacket m)) ∧
  (∀ (m : Fin 5) (p : Packet) (s : State),
    CommandRuns s m 0x00 p →
    exec (.nop m) s = .next (s.reply m St.ok p.params)) ∧
  (∀ (m : Fin 5) (p : Packet) (s : State),
    CommandRuns s m 0x0E p →
    exec (.hostAttachGet m) s = .next (s.reply m St.ok (s.storedAttachment.map (BitVec.ofNat 32 ·)))) ∧
  (∀ (m : Fin 5) (f0 f1 : Nat) (p : Packet) (u : State) (s : State),
    CommandRuns s m 0x0F p → (∀ i < 4, attachmentWord (p.p i) = true) → JournalTakes s 1 (wordBytes (p.params.take 4))
      f0 f1 u →
    exec (.hostAttachSet m f0 f1) s = .next ((u.commitOwner 0x01 f0 f1).reply m St.ok))

/-- A permitted read of a bank word returns the word or POISON; a whole write stores it; a partial write gives NARROW -/
def Obligations.BankAccessesAnswer : Prop :=
  (∀ (who : Requester) (n : Fin 128) (w : BitVec 16) (d : DWord) (t : State) (s : State),
    s.bankCheck who.owner n = .ok → s.bankRead n w.toNat = (t, some d) →
    exec (.bankRead who n w) s = .next (t.answerWord .ok (twoWords d.toNat))) ∧
  (∀ (who : Requester) (n : Fin 128) (w : BitVec 16) (t : State) (s : State),
    s.bankCheck who.owner n = .ok → s.bankRead n w.toNat = (t, none) →
    exec (.bankRead who n w) s = .next (t.answerWord .poison (List.replicate 2 (BitVec.allOnes 32)))) ∧
  (∀ (who : Requester) (n : Fin 128) (w : BitVec 16) (data : BitVec 64) (s : State),
    s.bankCheck who.owner n = .ok →
    exec (.bankWrite who n w data true) s = .next ((s.bankWrite n [(w.toNat, data)]).answerWord .ok [])) ∧
  (∀ (who : Requester) (n : Fin 128) (w : BitVec 16) (data : BitVec 64) (s : State),
    s.bankCheck who.owner n = .ok →
    exec (.bankWrite who n w data false) s = .next (s.answerWord .narrow []))

/-- An access to a bank by an owner without the right changes nothing and answers NOTOWN; a dark bank answers DARK and is counted -/
def Obligations.BankAccessesAreRefused : Prop :=
  ∀ (who : Requester) (n : Fin 128) (w : BitVec 16) (data : BitVec 64) (whole : Bool) (s : State),
    (s.mayUseBank who.owner n = false →
      exec (.bankRead who n w) s = .next (s.answerWord .notown (List.replicate 2 (BitVec.allOnes 32))) ∧
      exec (.bankWrite who n w data whole) s = .next (s.answerWord .notown [])) ∧
    (s.mayUseBank who.owner n = true → s.bankDark n = true → s.mode ≠ .off →
      exec (.bankRead who n w) s =
        .next ((s.bump .SPN_DARK_CNT_COUNT).answerWord .dark (List.replicate 2 (BitVec.allOnes 32))) ∧
      exec (.bankWrite who n w data whole) s = .next ((s.bump .SPN_DARK_CNT_COUNT).answerWord .dark []))

/-- Scrub steps, clears, slice tests and the clear of a handover advance as the bank chapter says -/
def Obligations.ScrubbersAndClearsRun : Prop :=
  (∀ (n : Fin 128) (s : State),
    s.clearHolds n = false → s.scrubs n = true → s.headWaits n = false → (s.sliceOver n (512 * s.get
      .BNK_SCRUB_NEXT_PAGE n)).isSome = false →
    exec (.scrubStep n) s = .next ((s.scrubPage n (s.get .BNK_SCRUB_NEXT_PAGE n)).scrubAdvance n)) ∧
  (∀ (n : Fin 128) (s : State),
    s.clearHolds n = false → s.scrubs n = true → s.headWaits n = false → (s.sliceOver n (512 * s.get
      .BNK_SCRUB_NEXT_PAGE n)).isSome = true →
    exec (.scrubStep n) s = .next (s.scrubAdvance n)) ∧
  (∀ (n : Fin 128) (s : State),
    s.clearHolds n = true →
    exec (.scrubStep n) s = .next
      ({ s with banks := { s.banks with deferred := SMap.put false s.banks.deferred n true } })) ∧
  (∀ (n : Fin 128) (s : State),
    s.clearHolds n = false → s.scrubs n = false ∨ s.headWaits n = true →
    exec (.scrubStep n) s = .next (s)) ∧
  (∀ (n : Fin 128) (s : State),
    s.scrubs n = true →
    exec (.scrubPassOverdue n) s = .next (s.danger 4 n none (s.bankOwner n) false)) ∧
  (∀ (g : Fin 16) (n : Nat) (rest : List Nat) (s : State),
    s.enginesRun = true → s.groupOn g = true → s.flag .BNK_CLR_STAT_ACTIVE g = false → (∀ b ∈ banksOfGroup g,
      s.headWaits b = false) → s.clears g = n :: rest →
    exec (.bankClear g) s = .next ((s.deferredStep n).startClear g)) ∧
  (∀ (g : Fin 16) (s : State),
    s.enginesRun = true → s.flag .BNK_CLR_STAT_ACTIVE g = true →
    exec (.bankClearDone g) s = .next (s.endClear g)) ∧
  (∀ (n : Fin 128) (s : State),
    s.enginesRun = true → s.groupOn (groupOfBank n) = true → s.flag .BNK_OWNER_CLEARING n = true → (s.clears
      (groupOfBank n)).head? = some n.val →
    exec (.clearOnHandover n) s = .next ((s.startClear (groupOfBank n)).endClear (groupOfBank n))) ∧
  (∀ (g : Fin 16) (found : List (Nat × Nat)) (t : SliceTest) (s : State),
    s.mode = .run → s.slice g = some t →
    exec (.slicePage g found) s = .next (s.sliceUnit g (found.filter fun f => (pageCells t.page).contains f.1 && 0 <
      f.2)))

/-- OWN_READ, OWN_HANDOVER, OWN_RECORD_GET and OWN_RECORD_SET reply as R248 to R250 say -/
def Obligations.OwnershipCommandsReply : Prop :=
  (∀ (m : Fin 5) (p : Packet) (s : State),
    CommandRuns s m 0x70 p →
    exec (.ownRead m) s = .next (s.reply m St.ok s.ownershipNow)) ∧
  (∀ (m : Fin 5) (p : Packet) (s : State),
    CommandRuns s m 0x72 p →
    exec (.ownRecordGet m) s = .next (s.reply m St.ok s.storedOwnership)) ∧
  (∀ (m : Fin 5) (f0 f1 : Nat) (p : Packet) (u : State) (s : State),
    CommandRuns s m 0x73 p → ownershipValid p.params = true → JournalTakes s 2 (wordBytes p.params) f0 f1 u →
    exec (.ownRecordSet m f0 f1) s = .next ((u.commitOwner 0x01 f0 f1).reply m St.ok)) ∧
  (∀ (m : Fin 5) (p : Packet) (r : Resource) (t : State) (s : State),
    CommandRuns s m 0x71 p → resourceOf (bitsOf (p.p 0) 0 2) (bitsOf (p.p 0) 8 7) = some r → bitsOf (p.p 0) 2 6 = 0 →
      p.p 0 < 2 ^ 15 → p.p 1 < 2 ^ 17 → p.target = 0 → s.handOver r (mailOwner m) (bitsOf (p.p 1) 0 8) (bitsOf (p.p 1)
      8 8) ((p.p 1).testBit 16) = .done t →
    exec (.ownHandover m) s = .next (if t.handoverBusy r then t.await m p r.wait else t.reply m St.ok [BitVec.ofNat 32
      (t.holder r)]))

/-- The doorbell and the control writes of a DMA ring move it between the states of R287 -/
def Obligations.RingRegisterWrites : Prop :=
  (∀ (who : Requester) (r : Fin 8192) (tail : BitVec 32) (s : State),
    RegisterOpen s who .DMA_RING_TAIL → (s.writesRing r who.owner = true ∨ (s.top (ringOwner r) ≠ 0 ∧ s.top who.owner
      = s.top (ringOwner r))) → s.ringState r ≠ 0 → (tail.toNat + 2 ^ 32 - s.get .DMA_RING_HEAD_HEAD r) % 2 ^ 32 ≤
      s.ringSize r → s.ringOccupancy r ≤ (tail.toNat + 2 ^ 32 - s.get .DMA_RING_HEAD_HEAD r) % 2 ^ 32 →
    exec (.dmaDoorbell who r tail) s = .next (((s.put .DMA_RING_TAIL_TAIL tail.toNat r).wake 1 r).acked)) ∧
  (∀ (who : Requester) (r : Fin 8192) (size : BitVec 5) (vector : BitVec 11) (s : State),
    RegisterOpen s who .DMA_RING_CTL → s.writesRing r who.owner = true → s.ringState r = 0 → vector ≠ 0 → 4 ≤
      size.toNat → size.toNat ≤ 16 → s.get .DMA_RING_BASE_BASE r % 4096 = 0 → s.get .DMA_RING_CQ_CQ r % 4096 = 0 →
    exec (.ringEnable who r size vector) s = .next ((((((((s.put .DMA_RING_CTL_SIZE_LOG2 size.toNat r).put
      .DMA_RING_CTL_VECTOR vector.toNat r).putFlag .DMA_RING_CTL_ENABLE true r).put .DMA_RING_HEAD_HEAD 0 r).put
      .DMA_RING_TAIL_TAIL 0 r).putRing r { lastIrq := (s.ring r).lastIrq }).put .DMA_RING_STAT_STATE 1 r).put
      .DMA_RING_STAT_HALT_CAUSE 0 r |>.acked)) ∧
  (∀ (who : Requester) (r : Fin 8192) (s : State),
    RegisterOpen s who .DMA_RING_CTL → s.writesRing r who.owner = true → s.ringState r = 1 → s.get
      .DMA_RING_CTL_VECTOR r ≠ 0 → s.get .DMA_RING_CTL_VECTOR r < 2048 → s.get .DMA_RING_CTL_SIZE_LOG2 r < 32 →
    exec (.ringHalt who r) s = .next (((((s.put .DMA_RING_CTL_SIZE_LOG2 (s.get .DMA_RING_CTL_SIZE_LOG2 r) r).put
      .DMA_RING_CTL_VECTOR (s.get .DMA_RING_CTL_VECTOR r) r).putFlag .DMA_RING_CTL_ENABLE true r).haltRing r 2
      false).acked)) ∧
  (∀ (who : Requester) (r : Fin 8192) (s : State),
    RegisterOpen s who .DMA_RING_CTL → s.writesRing r who.owner = true → s.ringState r = 3 → s.get
      .DMA_RING_CTL_VECTOR r ≠ 0 → s.get .DMA_RING_CTL_VECTOR r < 2048 → s.get .DMA_RING_CTL_SIZE_LOG2 r < 32 →
    exec (.ringDisable who r) s = .next ((((((s.put .DMA_RING_CTL_SIZE_LOG2 (s.get .DMA_RING_CTL_SIZE_LOG2 r) r).put
      .DMA_RING_CTL_VECTOR (s.get .DMA_RING_CTL_VECTOR r) r).putFlag .DMA_RING_CTL_ENABLE false r).putRing r
      { lastIrq := (s.ring r).lastIrq }).put .DMA_RING_STAT_STATE 0 r).acked)) ∧
  (∀ (who : Requester) (r : Fin 8192) (u : State) (s : State),
    RegisterOpen s who .DMA_RING_CTL → s.writesRing r who.owner = true → s.ringState r = 3 → s.get
      .DMA_RING_CTL_VECTOR r ≠ 0 → s.get .DMA_RING_CTL_VECTOR r < 2048 → s.get .DMA_RING_CTL_SIZE_LOG2 r < 32 → u =
      ((s.put .DMA_RING_CTL_SIZE_LOG2 (s.get .DMA_RING_CTL_SIZE_LOG2 r) r).put .DMA_RING_CTL_VECTOR (s.get
      .DMA_RING_CTL_VECTOR r) r).putFlag .DMA_RING_CTL_ENABLE true r →
    exec (.ringResume who r) s = .next ((((u.putRing r
      { u.ring r with next := u.get .DMA_RING_HEAD_HEAD r, jobs := [], cut := false, stuck := false }).put
      .DMA_RING_STAT_STATE 1 r).put .DMA_RING_STAT_HALT_CAUSE 0 r).acked))

/-- While DMA runs, ports issue, descriptors start, chains go on, completions retire and vectors are sent -/
def Obligations.DmaEngineSteps : Prop :=
  (∀ (p : Fin 8) (s : State),
    s.dmaRuns = true →
    exec (.dmaIssue p) s = .next (s.portIssue p)) ∧
  (∀ (r : Fin 8192) (ix : Fin 8) (j : DmaJob) (d : Descriptor) (s : State),
    s.dmaRuns = true → s.job r ix = some j → j.phase = .start → j.desc = some d →
    exec (.descriptorStart r ix) s = .next (s.startDescriptor r ix j d)) ∧
  (∀ (r : Fin 8192) (ix : Fin 8) (j : DmaJob) (s : State),
    s.dmaRuns = true → s.job r ix = some j → j.phase = .ended →
    exec (.chainNext r ix) s = .next ((s.chainNext r ix j).settleRing r)) ∧
  (∀ (r : Fin 8192) (j : DmaJob) (s : State),
    s.dmaRuns = true → s.job r 0 = some j → j.phase = .acked →
    exec (.completionWrite r) s = .next (s.retireSlot r j)) ∧
  (∀ (r : Fin 8192) (k : Nat) (t : State) (s : State),
    s.dmaRuns = true → s.flag .DMA_RING_STAT_IRQ_PENDING r = true → s.holdoffOver r = true → t = s.putFlag
      .DMA_RING_STAT_IRQ_PENDING false r → t.ringHost r = some k →
    exec (.msixSend r) s = .next ((t.putRing r { t.ring r with lastIrq := some t.now }).sendMsix k (t.get
      .DMA_RING_CTL_VECTOR r))) ∧
  (∀ (s : State),
    s.mode ≠ .off →
    exec .attSweep s = .next (s.sweep))

/-- A host claims a free translation entry within its quota, releases its own, and maps the entries it claimed -/
def Obligations.TranslationTableWrites : Prop :=
  (∀ (who : Requester) (e : Fin 32768) (expect new : BitVec 8) (s : State),
    RegisterOpen s who .ATT_ENT_KEY → s.get .ATT_ENT_KEY_KEY e = 0 → expect.toNat = 0 → isTop who.owner = true →
      (isRegion new.toNat = true ∨ isGroup new.toNat = true) → s.top new.toNat = who.owner → s.get .ATT_QUOTA_USED
      (who.owner - 0x10) < s.get .ATT_QUOTA_LIMIT (who.owner - 0x10) →
    exec (.attKeyChange who e expect new) s = .next ((((s.chargeEntry e (who.owner - 0x10 + 1)).put .ATT_ENT_KEY_KEY
      new.toNat e).zeroMap e).acked)) ∧
  (∀ (who : Requester) (e : Fin 32768) (expect new : BitVec 8) (s : State),
    RegisterOpen s who .ATT_ENT_KEY → expect.toNat = s.get .ATT_ENT_KEY_KEY e → expect.toNat ≠ 0 → who.owner = s.top
      expect.toNat → new = 0 →
    exec (.attKeyChange who e expect new) s = .next ((s.freeEntry e).acked)) ∧
  (∀ (who : Requester) (e : Fin 32768) (rd wr : Bool) (base : BitVec 32) (limit : BitVec 16) (s : State),
    RegisterOpen s who .ATT_ENT_MAP → s.get .ATT_ENT_KEY_KEY e ≠ 0 → who.owner = s.top (s.get .ATT_ENT_KEY_KEY e) →
      0x10 ≤ who.owner → who.owner ≤ 0x13 → 4096 * base.toNat + 4096 * (limit.toNat + 1) ≤ 2 ^ 44 →
    exec (.attMapWrite who e rd wr base limit) s = .next (((((s.putFlag .ATT_ENT_MAP_RD rd e).putFlag .ATT_ENT_MAP_WR
      wr e).put .ATT_ENT_MAP_BASE base.toNat e).put .ATT_ENT_MAP_LIMIT limit.toNat e).acked))

/-- Window reads are served or time out, suspended erases resume, and the patrol advances -/
def Obligations.SlateReadsAndPatrol : Prop :=
  (∀ (id : Nat) (flips : List Nat) (t : Txn) (off : Nat) (s : State),
    s.takenTxn id = some t → decodeAddr t.addr = some (.slate off) → t.kind = .read →
    exec (.slateRead id flips) s = .next ((s.slateResponse t off flips).releaseUnits)) ∧
  (∀ (l : Fin 4096) (s : State),
    exec (.eraseResume l) s = .next (s.setUnits (s.slate.units.map fun u => if u.block == l.val && s.mayResume u then
      { u with suspended := false, since := s.now } else u))) ∧
  (∀ (u : State) (t : Txn) (off : Nat) (s : State),
    u = s.flowRequests → (u.spine.ingress.find? fun x => portOf x.addr == 95) = some t → decodeAddr t.addr = some
      (.slate off) → t.kind = .read → u.slateCheck t.owner off false = .ok → u.slateQueueFull (u.flashBank (off /
      0x4_0000)) = true →
    exec .slateIngressTimeout s = .next ((u.bump .SLT_QUEUE_QFULL_TIMEOUTS).answerTxn t (t.reject .timeout))) ∧
  (∀ (flips : List Nat) (s : State),
    (s.mode = .boot ∨ s.mode = .run ∨ s.mode = .safe) → s.flag .SLT_STAT_MAP_LOADED = true → ((List.range (262144 -
      s.get .SLT_PATROL_NEXT_PAGE)).map (s.get .SLT_PATROL_NEXT_PAGE + ·)).find? s.patrolled = none →
    exec (.patrolRead flips) s = .next (s.endPatrol)) ∧
  (∀ (flips : List Nat) (n : Nat) (t : State) (r : PageRead) (ws : List DWord) (s : State),
    (s.mode = .boot ∨ s.mode = .run ∨ s.mode = .safe) → s.flag .SLT_STAT_MAP_LOADED = true → ((List.range (262144 -
      s.get .SLT_PATROL_NEXT_PAGE)).map (s.get .SLT_PATROL_NEXT_PAGE + ·)).find? s.patrolled = some n → s.readHeld
      (s.flashBank (n / 64)) false = false → s.readWaits (s.flashBank (n / 64)) = false → (s.suspendBank (s.flashBank
      (n / 64)) false).readPage (n / 64) (n % 64) flips = (t, r, ws) → n + 1 ≠ 262144 →
    exec (.patrolRead flips) s = .next ((t.noteRead (n / 64) (n % 64) r).put .SLT_PATROL_NEXT_PAGE (n + 1)))

/-- A running program or erase ends after its pulses, verified or failed, and what it served goes on -/
def Obligations.ProgramsAndErasesEnd : Prop :=
  (∀ (l : Fin 4096) (pulses : BitVec 6) (u : FlashUnit) (v : State) (s : State),
    (s.slate.units.find? fun u => !u.erase && u.runs && u.block == l.val) = some u → pulses.toNat ≤ 31 → v = s.setKind
      u.block u.page .programmed →
    exec (.pageProgramDone l pulses) s = .next ((((v.notePulses u.block pulses.toNat).setUnits (v.slate.units.erase
      u)).unitEnds u true).releaseUnits)) ∧
  (∀ (l : Fin 4096) (pulses : BitVec 6) (u : FlashUnit) (v : State) (s : State),
    (s.slate.units.find? fun u => !u.erase && u.runs && u.block == l.val) = some u → 31 < pulses.toNat → v =
      s.failPage u.block u.page →
    exec (.pageProgramDone l pulses) s = .next ((((v.notePulses u.block pulses.toNat).setUnits (v.slate.units.erase
      u)).unitEnds u false).releaseUnits)) ∧
  (∀ (l : Fin 4096) (pulses : BitVec 4) (bad : Nat) (u : FlashUnit) (t : State) (s : State),
    (s.slate.units.find? fun u => u.erase && u.runs && u.block == l.val) = some u → t = (s.setUnits
      (s.slate.units.erase u)).eraseEnds u.block pulses.toNat bad →
    exec (.blockEraseDone l pulses bad) s = .next ((t.unitEnds u (t.blockState u.block ≠ 2)).releaseUnits))

/-- The MGC's background work on the store in RUN: index, checkpoint, erase ahead, archive, extents -/
def Obligations.JournalUpkeep : Prop :=
  (∀ (t : State) (s : State),
    s.storeWork = true → s.journal.indexed = false → t = { s with journal := { s.journal with indexed := true } } →
    exec .indexRebuild s = .next (if t.copiesDiffer then t else t.settingsReady)) ∧
  (∀ (f0 f1 : Nat) (s : State),
    s.storeWork = true → s.checkpointDue = true → s.journalWorn = false → s.admits 6 = true → s.roomFor (txnPages
      s.checkpointChanges + (4095 + s.pendingBytes) / 4096 + 4) (f0 + f1) = true → s.logsFree = true →
    exec (.checkpoint f0 f1) s = .next (if (s.writeBoth 0x01 s.checkpointChanges true f0 f1).recovering then
      (s.writeBoth 0x01 s.checkpointChanges true f0 f1).settingsReady else s.writeBoth 0x01 s.checkpointChanges true
      f0 f1)) ∧
  (∀ (c : Fin 2) (l : Nat) (s : State),
    s.storeWork = true → s.copyOut c = false → (s.copy c).ahead < (s.copy c).free → (s.slate.units.any fun u => u.user
      == .ahead c.val) = false → s.admits 1 = true → l = (Partition.settings c.val).base + ((s.copy c).block + 1 +
      (s.copy c).ahead) % 64 →
    exec (.journalEraseAhead c) s = .next ((s.admitOp 1 l).startErase l (.ahead c.val) (some 1) (s.streaming
      (s.flashBank l)))) ∧
  (∀ (failed : Bool) (s : State),
    s.storeWork = true → s.bit .SLT_PART_LOG_LOCK 0 = false → s.archiveErase = none → 1024 ≤ s.unarchived.length →
      s.archiveReady = true → s.archiveFree = true → s.admits 0 = true →
    exec (.archiveWrite failed) s = .next (if failed then s.failArchive else s.writeArchivePage)) ∧
  (∀ (failed : Bool) (l : Nat) (s : State),
    s.storeWork = true → s.bit .SLT_PART_LOG_LOCK 0 = false → s.archiveErase = some l → s.admits 1 = true →
    exec (.archiveWrite failed) s = .next ((s.admitOp 1 l).startErase l .archive (some 1) (s.streaming (s.flashBank
      l)))) ∧
  (∀ (x : Fin 64) (l : Nat) (s : State),
    s.storeWork = true → SMap.look 0 s.journal.extentLeft x.val ≠ 0 → s.flag .SLT_PART_USER_LOCK = false → l =
      (Partition.user x.val).base + (32 - SMap.look 0 s.journal.extentLeft x.val) → s.blockBusy l = false → s.admits 1
      = true →
    exec (.extentErase x) s = .next ((s.admitOp 1 l).startErase l (.extent x.val) (some 1) (s.streaming (s.flashBank
      l))))

/-- SET_READ, SET_WRITE, SET_DELETE, SET_COMMIT and SET_LIST act on the sender's items and reply -/
def Obligations.SettingsCommandsReply : Prop :=
  (∀ (m : Fin 5) (bad : Bool) (p : Packet) (v : List Byte) (pending : Bool) (s : State),
    CommandRuns s m 0x20 p → s.recovering = false → p.p 0 < 65536 → (s.useBank (mailOwner m) (p.p64 2) 0).2 = St.ok →
      s.itemValue (s.itemOwner p) (p.p 0) = (some v, pending) → v.length ≤ p.p 1 → (s.useBank (mailOwner m) (p.p64 2)
      v.length).2 = St.ok → (bad && !pending) = false →
    exec (.setRead m bad) s = .next ((s.writeBankBytes (p.p64 2) v).reply m St.ok [BitVec.ofNat 32 v.length,
      BitVec.ofNat 32 (1 + 2 * pending.toNat)])) ∧
  (∀ (m : Fin 5) (bad : Bool) (p : Packet) (x : Bool) (s : State),
    CommandRuns s m 0x20 p → s.recovering = false → p.p 0 < 65536 → (s.useBank (mailOwner m) (p.p64 2) 0).2 = St.ok →
      s.itemValue (s.itemOwner p) (p.p 0) = (none, x) →
    exec (.setRead m bad) s = .next (s.reply m St.ok [0, 0])) ∧
  (∀ (m : Fin 5) (p : Packet) (w t u : State) (v : List Byte) (s : State),
    CommandRuns s m 0x21 p → s.recovering = false → p.p 0 < 65536 → p.p 1 < 65536 → s.useBank (mailOwner m) (p.p64 2)
      (p.p 1) = (w, St.ok) → w.committing m (w.itemOwner p) = false → w.readBankBytes (p.p64 2) (p.p 1) = (t, some v)
      → t.stage { owner := w.itemOwner p, id := p.p 0, value := some v } = (St.ok, u) →
    exec (.setWrite m) s = .next (u.reply m St.ok [BitVec.ofNat 32 u.pendingBytes])) ∧
  (∀ (m : Fin 5) (p : Packet) (u : State) (s : State),
    CommandRuns s m 0x22 p → s.recovering = false → p.p 0 < 65536 → s.committing m (s.itemOwner p) = false → s.stage
      { owner := s.itemOwner p, id := p.p 0, value := none } = (St.ok, u) →
    exec (.setDelete m) s = .next (u.reply m St.ok [BitVec.ofNat 32 u.pendingBytes])) ∧
  (∀ (m : Fin 5) (f0 f1 : Nat) (p : Packet) (u : State) (s : State),
    CommandRuns s m 0x23 p → s.recovering = false → s.stagedOf (s.itemOwner p) ≠ [] → s.journalWorn = false → s.admits
      6 = true → s.roomFor (txnPages (s.stagedOf (s.itemOwner p)) + 4) (f0 + f1) = true → s.logsFree = true → u =
      s.commitOwner (s.itemOwner p) f0 f1 →
    exec (.setCommit m f0 f1) s = .next (u.reply m St.ok (twoWords (u.get .SLT_SET_SEQ_SEQ)))) ∧
  (∀ (m : Fin 5) (f0 f1 : Nat) (p : Packet) (s : State),
    CommandRuns s m 0x23 p → s.recovering = false → s.stagedOf (s.itemOwner p) = [] →
    exec (.setCommit m f0 f1) s = .next (s.reply m St.ok (twoWords (s.get .SLT_SET_SEQ_SEQ)))) ∧
  (∀ (m : Fin 5) (f0 f1 : Nat) (p : Packet) (s : State),
    CommandRuns s m 0x23 p → s.recovering = false → s.stagedOf (s.itemOwner p) ≠ [] → s.journalWorn = false → s.admits
      6 = true → s.roomFor (txnPages (s.stagedOf (s.itemOwner p)) + 4) (f0 + f1) = false ∨ s.logsFree = false →
    exec (.setCommit m f0 f1) s = .next (s.setRunning m (some { p with progress := 1 }))) ∧
  (∀ (m : Fin 5) (p : Packet) (l : List (Nat × Nat)) (s : State),
    CommandRuns s m 0x24 p → s.recovering = false → p.p 0 < 65536 → l = (s.itemList (s.itemOwner p)).filter (fun i =>
      decide (p.p 0 ≤ i.1)) →
    exec (.setList m) s = .next (s.reply m St.ok (BitVec.ofNat 32 ((l.take 200).length + 256 * (decide (200 <
      l.length)).toNat) :: (l.take 200).map fun i => BitVec.ofNat 32 (i.1 + 65536 * i.2))))

/-- PAGE_STABILITY, USR_WRITE, USR_ERASE and USR_EXTENT_SET start or complete their work on the flash -/
def Obligations.UserAreaCommands : Prop :=
  (∀ (m : Fin 5) (flips : List (List (List Nat))) (p : Packet) (l : Nat) (t : State) (as : List Stability) (s :
    State),
    CommandRuns s m 0x25 p → p.p 0 < 2 ^ 23 → bitsOf (p.p 0) 18 4 ≠ 1 → l = bitsOf (p.p 0) 0 18 / 64 → partitionOf l ≠
      .spares → s.mayReadSlate (mailOwner m) l = true → s.erasing l = false → s.readHeld (s.flashBank l) false = false
      → (s.suspendBank (s.flashBank l) false).checkPages l (if bitsOf (p.p 0) 18 4 = 0 then 4 else bitsOf (p.p 0) 18
      4) (fun q => flips.getD (if (p.p 0).testBit 22 then q else 0) []) (if (p.p 0).testBit 22 then List.range 64 else
      [bitsOf (p.p 0) 0 18 % 64]) = (t, as) → stabilityWord as % 4 ≠ 2 →
    exec (.pageStability m flips) s = .next (t.reply m St.ok [BitVec.ofNat 32 (stabilityWord as)])) ∧
  (∀ (m : Fin 5) (p : Packet) (u t : State) (l : Nat) (bs : List Byte) (s : State),
    CommandRuns s m 0x26 p → p.p 0 < 64 → p.p 1 % 4096 = 0 → p.p 1 < 0x80_0000 → sourceShape (p.p64 2) (p.p 4) = true
      → p.p 1 % 262144 + p.p 4 ≤ 262144 → s.ownsExtent p (p.p 0) = true → l = (Partition.user (p.p 0)).base + p.p 1 /
      262144 → s.blockBusy l = false → s.streaming (s.flashBank l) = false → s.nextPage l ≤ p.p 1 % 262144 / 4096 →
      s.flag .SLT_PART_USER_LOCK = false → SMap.look false s.slate.retire l = false → s.useBank (mailOwner m) (p.p64
      2) (p.p 4) = (u, St.ok) → u.readBankBytes (p.p64 2) (p.p 4) = (t, some bs) → t.admits (opClass p.opcode) = true
      →
    exec (.usrWrite m) s = .next ((t.admitOp (opClass p.opcode) m).nextUnit m
      { p with note := [(Partition.user (p.p 0)).base, p.p 1 / 4096, p.p 4 / 4096] ++ (wordsOf bs (p.p 4 / 8)).map (·.toNat) }
      false)) ∧
  (∀ (m : Fin 5) (p : Packet) (x l : Nat) (s : State),
    CommandRuns s m 0x27 p → p.p 0 < 2048 → x = bitsOf (p.p 0) 0 6 → s.ownsExtent p x = true → l = (Partition.user
      x).base + bitsOf (p.p 0) 6 5 → s.flag .SLT_PART_USER_LOCK = false → s.blockBusy l = false → s.admits 5 = true →
    exec (.usrErase m) s = .next ((s.admitOp 5 m).unitErase m p l)) ∧
  (∀ (m : Fin 5) (f0 f1 f : Nat) (p : Packet) (u : State) (s : State),
    CommandRuns s m 0x28 p → p.p 0 < 65536 → bitsOf (p.p 0) 6 2 = 0 → f = bitsOf (p.p 0) 8 8 → (f = 0 ∨ (0x10 ≤ f ∧ f
      ≤ 0x14)) → JournalTakes s 5 (s.extentRecord (bitsOf (p.p 0) 0 6) (BitVec.ofNat 8 f)) f0 f1 u →
    exec (.usrExtentSet m f0 f1) s = .next ((u.commitOwner 0x01 f0 f1).reply m St.ok))

/-- Samples of the ledger, capacitance measurements and RESERVE_SHORT -/
def Obligations.EnergyIsMeasuredAndBanksAreSized : Prop :=
(∀ (vinMv iinMa intMv extMv : BitVec 16) (charging : Bool) (domains : List (Fin 64 × Nat)) (s t u v : State),
    s.mode ≠ .off → vinMv.toNat ≤ 45000 → t = s.sampleVin vinMv.toNat iinMa.toNat →
    u = ((t.put .NRG_BANK_INT_MV intMv.toNat).put .NRG_BANK_EXT_MV extMv.toNat).countEnergy 0
      (vinMv.toNat * iinMa.toNat) →
    v = domains.foldl (fun w d => if d.1.val = 0 then w else w.countEnergy d.1.val d.2) u →
    exec (.ledgerSample vinMv iinMa intMv extMv charging domains) s =
      .next ((v.putFlag .NRG_STAT_VIN_LOW (decide (vinMv.toNat < 8000))).putFlag .NRG_STAT_EXT_CHARGING
        charging).recompute.capTimeouts) ∧
(∀ (vinMv iinMa intMv extMv : BitVec 16) (charging : Bool) (domains : List (Fin 64 × Nat)) (s : State),
    s.mode ≠ .off → 45000 < vinMv.toNat →
    exec (.ledgerSample vinMv iinMa intMv extMv charging domains) s = .fault .beyondRatings) ∧
  (∀ (ext : Bool) (current time drop : Nat) (s : State),
    s.mode ≠ .off → s.mode ≠ .holdup →
    exec (.capacitanceMeasurement ext false current time drop) s = .next (s.takeCapacitance ext (current * time / 400)
      1)) ∧
  (∀ (ext : Bool) (current time drop : Nat) (t : State) (cap : Nat) (s : State),
    (s.mode = .boot ∨ s.mode = .run) → s.loadAllowed ext = true → s.dischargeCapacitance ext drop = (t, cap) →
      t.capWaiter ext = none →
    exec (.capacitanceMeasurement ext true current time drop) s = .next (t.takeCapacitance ext cap 2)) ∧
  (∀ (ext : Bool) (current time drop m : Nat) (p : Packet) (t : State) (cap : Nat) (s : State),
    (s.mode = .boot ∨ s.mode = .run) → s.loadAllowed ext = true → s.dischargeCapacitance ext drop = (t, cap) →
      t.capWaiter ext = some (m, p) →
    exec (.capacitanceMeasurement ext true current time drop) s = .next (t.capForCommand m p ext cap)) ∧
  (∀ (s : State),
    s.mode ≠ .off → s.mode ≠ .holdup →
    exec .extHoldChargeTimeout s = .next (s.takeCapacitance true 0 1)) ∧
  (∀ (fails : List (Nat × Nat)) (s : State),
    s.mode = .run → s.flag .NRG_STAT_RESERVE_SHORT = false → s.margin < 0 →
    exec (.reserveShort fails) s = .next (((s.putFlag .NRG_STAT_RESERVE_SHORT true).logEvent 0x0401
      s.marginWord).shortCommit fails)) ∧
  (∀ (fails : List (Nat × Nat)) (s : State),
    s.mode = .run → s.flag .NRG_STAT_RESERVE_SHORT = true →
    exec (.reserveShort fails) s = .next (s.shortCommit fails)) ∧
  (∀ (s : State),
    s.flag .NRG_STAT_RESERVE_SHORT = true → 0 ≤ s.margin →
    exec .reserveShortClear s = .next (s.putFlag .NRG_STAT_RESERVE_SHORT false))

/-- HOLDUP begins, commits page by page, closes and ends in OFF -/
def Obligations.HoldupRunsItsSteps : Prop :=
  (∀ (s : State),
    (s.mode = .boot ∨ s.mode = .run ∨ s.mode = .doze ∨ s.mode = .safe) →
    exec .holdupEntry s = .next (s.enterHoldup)) ∧
  (∀ (fail : Option (Fin 16)) (c : Nat) (s : State),
    s.mode = .holdup → s.holdup.closed = false → (∀ u ∈ s.slate.units, u.erase = true) → s.test.program = none →
      (s.power.mgcHalted = false ∨ s.holdup.stopped = true) → s.huNext = some c → 3200 ≤ s.eAvail →
    exec (.holdupRound fail) s = .next (s.huRound c fail)) ∧
  (∀ (fail : Option (Fin 16)) (c : Nat) (s : State),
    s.mode = .holdup → s.holdup.closed = false → (∀ u ∈ s.slate.units, u.erase = true) → s.test.program = none →
      (s.power.mgcHalted = false ∨ s.holdup.stopped = true) → s.huNext = some c → s.eAvail < 3200 →
    exec (.holdupRound fail) s = .next (s.huStop 3)) ∧
  (∀ (fail : Option (Fin 16)) (s : State),
    s.mode = .holdup → s.holdup.closed = false → (∀ u ∈ s.slate.units, u.erase = true) → s.test.program = none →
      s.power.mgcHalted = true → s.holdup.stopped = false →
    exec (.holdupRound fail) s = .next (s.huStop 4)) ∧
  (∀ (fail : Option (Fin 16)) (s : State),
    s.mode = .holdup → s.holdup.closed = false → (∀ u ∈ s.slate.units, u.erase = true) → s.test.program = none →
      (s.power.mgcHalted = false ∨ s.holdup.stopped = true) → s.huNext = none →
    exec (.holdupRound fail) s = .next (s.closeHoldup)) ∧
  (∀ (t : State) (s : State),
    s.mode = .holdup → s.holdup.closed = true → s.slate.units = [] → s.test.program = none → t = (s.put
      .NRG_HU_TIME_DURATION_US (min ((s.now - s.holdup.startTime) / 1000) 0xFFFF)).put .NRG_HU_TIME_OFF_MV (s.get
      .NRG_BANK_INT_MV) →
    exec .holdupOff s = .next ((t.put .NRG_HU_ENERGY_UJ (min (t.get .NRG_CNT_UJ 5 - s.holdup.startEnergy)
      0xFFFFFFFF)).enterOff)) ∧
  (∀ (s : State),
    s.mode = .holdup →
    exec .vinReturn s = .next ({ s with power := { s.power with vinPresent := true } }.putFlag
      .NRG_HU_LAST_VIN_RETURNED true))

/-- NRG_QUERY, NRG_SNAPSHOT_READ and NRG_CAP_MEASURE -/
def Obligations.EnergyCommandsReply : Prop :=
  (∀ (m : Fin 5) (p : Packet) (s : State),
    CommandRuns s m 0x40 p → p.p 0 < 14 →
    exec (.nrgQuery m) s = .next (s.reply m St.ok [BitVec.ofNat 32 (s.admits (p.p 0)).toNat, BitVec.ofNat 32
      s.marginWord])) ∧
  (∀ (m : Fin 5) (p : Packet) (u : State) (bytes : List Byte) (s : State),
    CommandRuns s m 0x41 p → 16384 ≤ p.p 0 → s.useBank (mailOwner m) (p.p64 1) 16384 = (u, St.ok) → u.systemItem 6 =
      some bytes →
    exec (.nrgSnapshotRead m false) s = .next ((u.writeBankBytes (p.p64 1) bytes).reply m St.ok [1])) ∧
  (∀ (m : Fin 5) (bad : Bool) (p : Packet) (u : State) (s : State),
    CommandRuns s m 0x41 p → 16384 ≤ p.p 0 → s.useBank (mailOwner m) (p.p64 1) 16384 = (u, St.ok) → u.systemItem 6 =
      none →
    exec (.nrgSnapshotRead m bad) s = .next (u.reply m St.ok [0])) ∧
  (∀ (m : Fin 5) (p : Packet) (s : State),
    CommandRuns s m 0x42 p →
    exec (.nrgCapMeasure m) s = .next (s.await m { p with note := [s.now, 0, 0] } .capacitance))

/-- VIN, NRESET_IN, the restart delay, the timebase switch and loss of retention -/
def Obligations.SupplyEventsMoveTheMode : Prop :=
  (∀ (s : State),
    s.mode = .off → s.power.held = false →
    exec .vinGood s = .next ({ s with power := { s.power with vinPresent := true } }.boot)) ∧
  (∀ (s : State),
    s.mode = .boot → s.flag .TMB_STAT_SOURCE = true →
    exec .timebaseSwitch s = .next (({ s with clocks := { s.clocks with fraction := 0 } }.putFlag .TMB_STAT_SOURCE
      false).put .TMB_STAT_ACCURACY 1)) ∧
  (∀ (s : State),
    s.mode = .off →
    exec .vinOff s = .next ({ s with power := { s.power with vinPresent := false, held := false } })) ∧
  (∀ (s : State),
    s.mode = .off → s.power.restart = true →
    exec (.restart true true) s = .next (s.boot)) ∧
  (∀ (s : State),
    s.mode = .off → s.power.vinPresent = false →
    exec .retentionLoss s = .next
      ({ s.eraseRetained with power := { s.power with retained := false, lastEpoch := 0 } })) ∧
  (∀ (s : State),
    s.mode = .holdup →
    exec .nresetIn s = .next (s)) ∧
  (∀ (s : State),
    s.mode = .off →
    exec .nresetIn s = .next ({ s with power := { s.power with held := false } })) ∧
  (∀ (s : State),
    s.mode = .doze →
    exec .nresetIn s = .next ({ s.wake 5 0 with power := { (s.wake 5 0).power with resetAfterWake := true } })) ∧
  (∀ (s : State),
    (s.mode = .boot ∨ s.mode = .run ∨ s.mode = .safe) → s.power.mgcHalted = true →
    exec .nresetIn s = .next ({ s with power := { s.power with restart := true } }.enterOff)) ∧
  (∀ (s : State),
    (s.mode = .boot ∨ s.mode = .run ∨ s.mode = .safe) → s.power.mgcHalted = false → s.get .DEV_MODE_PHASE ≠ 1 →
      s.power.orderly.any (·.committed) = false →
    exec .nresetIn s = .next (s.acceptOff { cause := .reboot, mailbox := none, restart := true, noTest := true }
      true)) ∧
  (∀ (s : State),
    (s.mode = .boot ∨ s.mode = .run ∨ s.mode = .safe) → s.power.mgcHalted = false → s.get .DEV_MODE_PHASE = 1 →
    exec .nresetIn s = .next ({ s.wake 5 0 with power := { (s.wake 5 0).power with resetAfterWake := true } })) ∧
  (∀ (s : State),
    (s.mode = .boot ∨ s.mode = .run ∨ s.mode = .safe) → s.power.mgcHalted = false → s.get .DEV_MODE_PHASE ≠ 1 →
      s.power.orderly.any (·.committed) = true →
    exec .nresetIn s = .next (s))

/-- PWR_DOZE enters DOZE, wake sources are recorded, DOZE exits once class 10 is admitted -/
def Obligations.DozeEntersWakesAndExits : Prop :=
  (∀ (m : Fin 5) (p : Packet) (s : State),
    CommandRuns s m 0x30 p → s.power.orderly = none → s.dozeRefusal = none →
    exec (.pwrDoze m) s = .next ((s.reply m St.ok).beginDoze)) ∧
  (∀ (m : Fin 5) (p : Packet) (reason refuser : Nat) (s : State),
    CommandRuns s m 0x30 p → s.power.orderly = none → s.dozeRefusal = some (reason, refuser) →
    exec (.pwrDoze m) s = .next (s.replyRefusal m 1 reason refuser 0)) ∧
  (∀ (s : State),
    s.mode = .run → s.get .DEV_MODE_PHASE = 1 →
    exec .dozeEntryComplete s = .next (s.completeDoze)) ∧
  (∀ (w : WakeSource) (s : State),
    s.wakeEnabled w = false →
    exec (.dozeWake w) s = .next (s)) ∧
  (∀ (w : WakeSource) (t : State) (s : State),
    s.wakeEnabled w = true → t = s.wake (wakePlace w).1 (wakePlace w).2 →
    exec (.dozeWake w) s = .next
      ({ t with power := { t.power with resetAfterWake := t.power.resetAfterWake || (w == .nreset && s.dozing) } })) ∧
  (∀ (t : State) (s : State),
    s.mode = .doze → s.power.woken = true → s.admits 10 = true → t =
      { s.exitDoze with power := { s.exitDoze.power with resetAfterWake := false } } →
    exec .dozeExit s = .next (if s.power.resetAfterWake then t.acceptOff
      { cause := .reboot, mailbox := none, restart := true, noTest := true } true else t))

/-- PWR_REGION, PWR_BANK_GROUP and PWR_QUAD switch domains that nothing refuses -/
def Obligations.DomainCommandsReply : Prop :=
  (∀ (m : Fin 5) (p : Packet) (k : Fin 16) (s : State),
    CommandRuns s m 0x31 p → p.p 0 = k.val + 256 → p.acts = s.parent k → s.power.orderly = none → s.regionOn k = false
      → s.admits 8 = true →
    exec (.pwrRegion m) s = .next ((((s.admitOp 8 k).regionUp k).releaseOp 8 k).reply m St.ok)) ∧
  (∀ (m : Fin 5) (p : Packet) (k : Fin 16) (s : State),
    CommandRuns s m 0x31 p → p.p 0 = k.val → p.acts = s.parent k → s.power.orderly = none → s.regionOn k = true →
      s.regionOffRefusal k = none →
    exec (.pwrRegion m) s = .next ((s.reply m St.ok).regionDown k)) ∧
  (∀ (m : Fin 5) (p : Packet) (k : Fin 16) (reason refuser : Nat) (s : State),
    CommandRuns s m 0x31 p → p.p 0 = k.val → p.acts = s.parent k → s.power.orderly = none → s.regionOn k = true →
      s.regionOffRefusal k = some (reason, refuser) →
    exec (.pwrRegion m) s = .next (s.replyRefusal m 2 reason refuser k)) ∧
  (∀ (m : Fin 5) (p : Packet) (g : Fin 16) (s : State),
    CommandRuns s m 0x32 p → p.p 0 = g.val + 256 → s.switchesGroup g p.acts = true → s.power.orderly = none →
      s.groupOn g = false → s.admits 9 = true →
    exec (.pwrBankGroup m) s = .next ((((s.admitOp 9 g).groupPowerUp g).logDomain 1 g true).await m p (.groupPower
      g))) ∧
  (∀ (m : Fin 5) (p : Packet) (g : Fin 16) (s : State),
    CommandRuns s m 0x32 p → p.p 0 = g.val → s.switchesGroup g p.acts = true → s.power.orderly = none → s.groupOn g =
      true → s.groupUnderTest g = false →
    exec (.pwrBankGroup m) s = .next ((s.groupOff g).reply m St.ok)) ∧
  (∀ (m : Fin 5) (p : Packet) (q : Fin 8) (s : State),
    CommandRuns s m 0x33 p → p.p 0 = q.val + 256 → s.power.orderly = none → s.quadOn q = false →
    exec (.pwrQuad m) s = .next (((s.quadPowerUp q).logDomain 2 q true).reply m St.ok)) ∧
  (∀ (m : Fin 5) (p : Packet) (q : Fin 8) (s : State),
    CommandRuns s m 0x33 p → p.p 0 = q.val → s.power.orderly = none → s.quadOn q = true → s.quadVeto q = none →
    exec (.pwrQuad m) s = .next (((s.quadPowerDown q false).logDomain 2 q false).reply m St.ok))

/-- DEV_SHUTDOWN and DEV_REBOOT are accepted, and the orderly commit ends the way its cause says -/
def Obligations.OrderlyOffIsAcceptedAndCommitted : Prop :=
  (∀ (m : Fin 5) (p : Packet) (s : State),
    CommandRuns s m 0x02 p → p.p 0 < 8 → s.power.orderly = none → ((p.p 0).testBit 1 = true ∨ s.impliedForce = true ∨
      s.offRefusal = none) →
    exec (.devShutdown m) s = .next ((s.await m p .commit).acceptOff
      { cause := .shutdown, mailbox := some m.val, restart := (p.p 0).testBit 0, noTest := (p.p 0).testBit 2 } ((p.p
      0).testBit 1 || s.impliedForce))) ∧
  (∀ (m : Fin 5) (p : Packet) (reason refuser : Nat) (s : State),
    CommandRuns s m 0x02 p → p.p 0 < 8 → s.power.orderly = none → (p.p 0).testBit 1 = false → s.impliedForce = false →
      s.offRefusal = some (reason, refuser) →
    exec (.devShutdown m) s = .next (s.replyRefusal m 7 reason refuser 0)) ∧
  (∀ (m : Fin 5) (p : Packet) (reason refuser : Nat) (s : State),
    CommandRuns s m 0x01 p → p.p 0 < 2 → s.power.orderly = none → (p.p 0).testBit 0 = false → s.impliedForce = false →
      s.offRefusal = some (reason, refuser) →
    exec (.devReboot m) s = .next (s.replyRefusal m 8 reason refuser 0)) ∧
  (∀ (m : Fin 5) (p : Packet) (s : State),
    CommandRuns s m 0x01 p → p.p 0 < 2 → s.power.orderly = none → ((p.p 0).testBit 0 = true ∨ s.impliedForce = true ∨
      s.offRefusal = none) →
    exec (.devReboot m) s = .next ((s.await m p .commit).acceptOff
      { cause := .reboot, mailbox := some m.val, restart := true, noTest := true } ((p.p 0).testBit 0 ||
      s.impliedForce))) ∧
  (∀ (fails : List (Nat × Nat)) (o : Orderly) (t : State) (s : State),
    s.power.orderly = some o → o.committed = false → o.cause = .reboot → s.uncuttable = false → (s.mode = .boot ∨
      s.mode = .run ∨ s.mode = .safe) → s.test.program = none → t =
      { s with power := { s.power with orderly := some { o with committed := true } } } → s.power.mgcHalted = false →
      s.logsFree = true → s.archiveFree = true →
    exec (.orderlyCommit fails) s = .next (((t.dropWaiting.stopFabric.commitOnVin 3 fails).replyOrderly o
      St.ok).orderlyOff o)) ∧
  (∀ (fails : List (Nat × Nat)) (o : Orderly) (t : State) (s : State),
    s.power.orderly = some o → o.committed = false → o.cause = .shutdown → s.uncuttable = false → (s.mode = .boot ∨
      s.mode = .run) → s.test.program = none → t =
      { s with power := { s.power with orderly := some { o with committed := true } } } → s.power.mgcHalted = false →
      s.logsFree = true → s.archiveFree = true →
    exec (.orderlyCommit fails) s = .next (((t.dropWaiting.stopFabric.commitOnVin 2 fails).replyOrderly o
      St.ok).shutdownTest o)) ∧
  (∀ (fails : List (Nat × Nat)) (o : Orderly) (lc : Nat) (t : State) (s : State),
    s.power.orderly = some o → o.committed = false → o.cause = .lifecycle → o.lifeCycle = some lc → s.uncuttable =
      false → (s.mode = .boot ∨ s.mode = .run) → s.test.program = none → t =
      { s with power := { s.power with orderly := some { o with committed := true } } } → s.power.mgcHalted = false →
      s.logsFree = true → s.archiveFree = true →
    exec (.orderlyCommit fails) s = .next ((t.dropWaiting.stopFabric.commitOnVin 3 fails).advance o lc)) ∧
  (∀ (fails : List (Nat × Nat)) (o : Orderly) (n : Nat) (t : State) (s : State),
    s.power.orderly = some o → o.committed = false → o.cause = .program → o.program = some n → s.uncuttable = false →
      (s.mode = .boot ∨ s.mode = .run) → s.test.program = none → t =
      { s with power := { s.power with orderly := some { o with committed := true } } }.dropWaiting.stopFabric.commitOnVin
      3 fails → s.power.mgcHalted = false → s.logsFree = true → s.archiveFree = true →
    exec (.orderlyCommit fails) s = .next ((t.replyOrderly o St.ok).runProgram n t.test.steps)) ∧
  (∀ (fails : List (Nat × Nat)) (o : Orderly) (t : State) (s : State),
    s.power.orderly = some o → o.committed = false → (o.cause = PowerCause.shutdown ∨ o.cause = PowerCause.lifecycle)
      → s.uncuttable = false → s.mode = .safe → s.test.program = none → s.power.mgcHalted = false → s.logsFree = true
      → s.archiveFree = true → t =
      { s with power := { s.power with orderly := some { o with committed := true } } }.dropWaiting.stopFabric.commitOnVin
      (if o.cause = PowerCause.shutdown then 2 else 3) fails →
    exec (.orderlyCommit fails) s = .next ((({ t with power := { t.power with orderly := none } }.put .DEV_MODE_PHASE
      0).replyOrderly o St.safeMode))) ∧
  (∀ (fails : List (Nat × Nat)) (o : Orderly) (n : Nat) (t : State) (s : State),
    s.power.orderly = some o → o.committed = false → o.cause = .program → o.program = some n → s.uncuttable = false →
      s.mode = .safe → s.test.program = none → s.power.mgcHalted = false → s.logsFree = true → s.archiveFree = true →
      t =
      { s with power := { s.power with orderly := some { o with committed := true } } }.dropWaiting.stopFabric.commitOnVin
      3 fails →
    exec (.orderlyCommit fails) s = .next ((t.replyOrderly o St.ok).orderlyOff o)) ∧
  (∀ (fails : List (Nat × Nat)) (s : State),
    s.power.mgcHalted = true ∨ s.power.orderly = none →
    exec (.orderlyCommit fails) s = .next (s))

/-- Fabric PLLs: apply, reference windows, lock, qualification, loss, and their commands -/
def Obligations.PllsLockAndAreSet : Prop :=
  (∀ (who : Requester) (k : Fin 16) (m : BitVec 6) (n : BitVec 10) (t : State) (b v : Nat) (s : State),
    RegisterOpen s who .PLL_CFG → s.mode = .run → s.controlsRegion k who.owner = true → t = (s.put .PLL_CFG_M m.toNat
      k).put .PLL_CFG_N n.toNat k → t.regionOn k = true → t.checkPll k (t.stagedPll k) (t.calibrated k (t.stagedPll
      k)) = (0, b, v) →
    exec (.pllApply who k m n) s = .next ((t.applyPll k (t.stagedPll k) b v).acked)) ∧
  (∀ (who : Requester) (k : Fin 16) (m : BitVec 6) (n : BitVec 10) (t : State) (s : State),
    RegisterOpen s who .PLL_CFG → s.mode = .run → s.controlsRegion k who.owner = true → t = (s.put .PLL_CFG_M m.toNat
      k).put .PLL_CFG_N n.toNat k → t.regionOn k = false → (t.checkPll k (t.stagedPll k) ((t.stagedPll k).khz, 1)).1 =
      0 →
    exec (.pllApply who k m n) s = .next (((t.put .PLL_STAT_LAST_ERR 0 k).putPll k
      { t.pll k with forPowerUp := some (t.stagedPll k), unusable := false }).acked)) ∧
  (∀ (k : Fin 16) (khz : BitVec 19) (t u : State) (f d : Nat) (s : State),
    s.flag .PLL_STAT_POWERED k = true → s.mode ≠ .doze → s.coreOn = true → f = s.windowKhz k khz.toNat → d = (s.pll
      k).inForce.khz → t = (if (s.pll k).inForce.refsel = 0 then s else s.putSource (s.pll k).inForce.refsel
      khz.toNat) → u = (t.put .PLL_MEAS_REF_KHZ f k).putFlag .PLL_MEAS_PRESENT (decide (99 * d ≤ 100 * f) && decide
      (100 * f ≤ 101 * d)) k →
    exec (.referenceWindow k khz) s = .next (if decide (99 * d ≤ 100 * f) && decide (100 * f ≤ 101 * d) && (u.pll
      k).window && u.get .PLL_STAT_STATE k == 1 then u.acquirePll k false else u)) ∧
  (∀ (k : Fin 16) (s : State),
    s.get .PLL_STAT_STATE k = 2 →
    exec (.pllLock k) s = .next ((s.putFlag .PLL_STAT_LOCKED true k).put .PLL_STAT_STATE 3 k)) ∧
  (∀ (k : Fin 16) (t : State) (s : State),
    s.get .PLL_STAT_STATE k = 3 → t = ((s.putFlag .PLL_STAT_QUALIFIED true k).putFlag .PLL_STAT_GATED false k).put
      .PLL_STAT_STATE 4 k →
    exec (.pllQualified k) s = .next (((t.putPll k { t.pll k with counted := true }).unfenceByPll k).replyWaiting
      (.pll k) St.ok fun x _ => x.pllResults k)) ∧
  (∀ (k : Fin 16) (reference : Bool) (s : State),
    exec (.pllLoss k reference) s = .next (s.pllLoss k reference false)) ∧
  (∀ (m : Fin 5) (p : Packet) (k : Fin 16) (c : PllSetting) (b v b' v' : Nat) (t : State) (s : State),
    CommandRuns s m 0x80 p → p.p 0 = k.val → p.pllReserved = false → s.controlsRegion k p.acts = true → s.mode = .run
      → c = p.pllSetting → s.regionOn k = true → s.checkPll k c (s.calibrated k c) = (0, b, v) → t = s.stagePll k c →
      t.mode = .run → t.regionOn k = true → t.checkPll k c (t.calibrated k c) = (0, b', v') →
    exec (.pllSet m) s = .next ((t.applyPll k c b' v').await m p (.pll k))) ∧
  (∀ (m : Fin 5) (p : Packet) (k : Fin 16) (err : Nat) (s : State),
    CommandRuns s m 0x80 p → p.p 0 = k.val → p.pllReserved = false → s.controlsRegion k p.acts = true → s.mode = .run
      → s.regionOn k = true → err = (s.checkPll k p.pllSetting (s.calibrated k p.pllSetting)).1 → err ≠ 0 →
    exec (.pllSet m) s = .next (((s.put .PLL_STAT_LAST_ERR err k).reply m (if (s.put .PLL_STAT_LAST_ERR err k).get
      .PLL_STAT_LAST_ERR k = 1 then St.pllNoband else St.badParam)))) ∧
  (∀ (m : Fin 5) (p : Packet) (k : Nat) (s : State),
    s.running m = some p → p.wait = .pll k →
    exec (.pllSetTimeout m) s = .next (s.replyTo m p St.timeout [])) ∧
  (∀ (m : Fin 5) (p : Packet) (k : Fin 16) (f0 f1 : Nat) (u : State) (s : State),
    CommandRuns s m 0x81 p → p.p 0 = k.val → p.pllReserved = false → s.controlsRegion k p.acts = true →
      p.pllSetting.rangeError = 0 → JournalTakes s 3 (s.pllRecord.take (32 * k) ++ p.pllSetting.bytes ++
      s.pllRecord.drop (32 * k + 32)) f0 f1 u →
    exec (.pllBootSet m f0 f1) s = .next ((u.commitOwner 0x01 f0 f1).reply m St.ok)) ∧
  (∀ (m : Fin 5) (p : Packet) (k : Fin 16) (f0 f1 : Nat) (u : State) (s : State),
    CommandRuns s m 0x81 p → p.p 0 = k.val + 256 → p.pllReserved = false → s.isAdmin (mailOwner m) = true →
      p.pllSetting.rangeError = 0 → JournalTakes s 3 (s.pllRecord.take (512 + 32 * k) ++ p.pllSetting.bytes ++
      s.pllRecord.drop (512 + 32 * k + 32)) f0 f1 u →
    exec (.pllBootSet m f0 f1) s = .next ((u.commitOwner 0x01 f0 f1).reply m St.ok)) ∧
  (∀ (m : Fin 5) (p : Packet) (k : Fin 16) (s : State),
    CommandRuns s m 0x82 p → p.p 0 = k.val → s.controlsRegion k p.acts = true →
    exec (.pllBandLoad m) s = .next ((s.loadBands k).reply m St.ok))

/-- TMB_SAMPLE, the alarms of each owner, and CLR_UNCERT -/
def Obligations.TimebaseAndAlarms : Prop :=
  (∀ (m : Fin 5) (p : Packet) (s : State),
    CommandRuns s m 0x90 p →
    exec (.tmbSample m) s = .next (s.reply m St.ok (twoWords s.now ++ [BitVec.ofNat 32 (s.shown .TMB_EPOCH 0),
      BitVec.ofNat 32 (s.shown .TMB_UNCERT 0), BitVec.ofNat 32 (s.shown .TMB_STAT 0), BitVec.ofNat 32 (s.shown
      .TMB_CORR 0)]))) ∧
  (∀ (who : Requester) (a : Fin 5) (vector : BitVec 11) (t u : State) (clear : Bool) (s : State),
    RegisterOpen s who .TMB_ALARM_CTL → who.owner = 0x10 + a.val → t = (if clear then s.putFlag .TMB_ALARM_CTL_PENDING
      false a else s) → u = (((t.put .TMB_ALARM_CTL_VECTOR vector.toNat a).putFlag .TMB_ALARM_CTL_ARM true a).put
      .TMB_ALARM_CTL_MISSED 0 a) →
    exec (.alarmArm who a vector clear) s = .next
      ({ u with clocks := { u.clocks with alarmTime := SMap.put 0 u.clocks.alarmTime a (u.get .TMB_ALARM_TIME_TIME a), alarmPeriod := SMap.put 0 u.clocks.alarmPeriod a (u.get .TMB_ALARM_PER_PERIOD_NS a) } }.acked)) ∧
  (∀ (who : Requester) (a : Fin 5) (vector : BitVec 11) (t : State) (clear : Bool) (s : State),
    RegisterOpen s who .TMB_ALARM_CTL → who.owner = 0x10 + a.val → t = (if clear then s.putFlag .TMB_ALARM_CTL_PENDING
      false a else s) →
    exec (.alarmDisarm who a vector clear) s = .next (((t.put .TMB_ALARM_CTL_VECTOR vector.toNat a).putFlag
      .TMB_ALARM_CTL_ARM false a).acked)) ∧
  (∀ (a : Fin 5) (t : State) (s : State),
    s.alarmDue a = true → t = (s.fireAlarm a).sendAlarm a →
    exec (.alarmFire a) s = .next (if t.flag .PWR_WAKE_EN_ALARM then t.wake 4 0 else t)) ∧
  (∀ (who : Requester) (s : State),
    RegisterOpen s who .TMB_CTL → s.maintains who.owner = true →
    exec (.clrUncert who) s = .next ((s.put .TMB_UNCERT_UNCERT_NS 0).acked))

/-- LC PLLs, lane configuration, lock, adaptation, FIFO errors, recovered clocks and eye scans -/
def Obligations.LcPllsAndLanes : Prop :=
  (∀ (who : Requester) (q : Fin 8) (p : Fin 2) (refsel : BitVec 4) (m : BitVec 3) (n : BitVec 9) (khz : BitVec 19) (c
    : LcSetting) (lanes : List Nat) (t u : State) (s : State),
    RegisterOpen t who .XCV_LCPLL → t = (if refsel.toNat = 0 || 8 < refsel.toNat then s else s.putSource refsel.toNat
      khz.toNat) → t.writesQuad q who.owner = true → t.quadPcie q = false → c =
      { khz := t.sourceKhz refsel.toNat, m := m.toNat, n := n.toNat } → lanes = ((List.range 4).map (4 * q.val +
      ·)).filter (fun l => t.fabricLane l && t.get .XCV_LANE_CFG_PLL l == p) → c.inRange = true → refsel.toNat < 9 →
      (∀ l ∈ lanes, (laneSetting (t.regValue .XCV_LANE_CFG l)).fits c = true) → u = ((((t.put .XCV_LCPLL_REFSEL
      refsel.toNat (2 * q + p)).put .XCV_LCPLL_M m.toNat (2 * q + p)).put .XCV_LCPLL_N n.toNat (2 * q + p)).putFlag
      .XCV_LCPLL_EN true (2 * q + p)).putLcLock q p false →
    exec (.lcPllApply who q p refsel m n khz) s = .next (((u.dropLanesOf q p).forEach lanes fun v l => v.put
      .XCV_LANE_STAT_LINE_MBPS ((lineRate c (v.get .XCV_LANE_CFG_RATE_DIV l)).1 / (lineRate c (v.get
      .XCV_LANE_CFG_RATE_DIV l)).2 / 1000) l).acked)) ∧
  (∀ (q : Fin 8) (p : Fin 2) (s : State),
    s.lcLocked q p = true →
    exec (.lcPllLoss q p) s = .next (((s.putLcLock q p false).bump .XCV_QUAD_STAT_LOL_CNT q).dropLanesOf q p)) ∧
  (∀ (q : Fin 8) (p : Fin 2) (s : State),
    s.lcRuns q p = true →
    exec (.lcPllLock q p) s = .next (s.putLcLock q p true)) ∧
  (∀ (who : Requester) (l : Fin 32) (setting : BitVec 20) (c : LaneSetting) (t u : State) (s : State),
    RegisterOpen s who .XCV_LANE_CFG → s.writesLane l who.owner = true → s.heldByPcie l = false → c = laneSetting
      setting.toNat → c.shaped = true → (c.en = true → c.fits (s.lcSetting (l / 4) c.pll) = true) → t =
      ((((((((((s.putFlag .XCV_LANE_CFG_EN c.en l).put .XCV_LANE_CFG_PLL c.pll l).put .XCV_LANE_CFG_RATE_DIV c.div
      l).put .XCV_LANE_CFG_MODE c.mode l).put .XCV_LANE_CFG_WIDTH c.width l).putFlag .XCV_LANE_CFG_FEC c.fec
      l).putFlag .XCV_LANE_CFG_POL_TX (setting.getLsbD 12) l).putFlag .XCV_LANE_CFG_POL_RX (setting.getLsbD 13) l).put
      .XCV_LANE_CFG_LOOP c.loop l).put .XCV_LANE_CFG_TRACK (setting.toNat / 65536) l) → u = (t.dropLane l 0).stopRclk
      l →
    exec (.laneConfiguration who l setting) s = .next (((u.putLane l
      { u.lane l with kept := false, tx := [], rx := [], presented := none }).put .XCV_LANE_STAT_LINE_MBPS (if c.en
      then (lineRate (s.lcSetting (l / 4) c.pll) c.div).1 / (lineRate (s.lcSetting (l / 4) c.pll) c.div).2 / 1000 else
      0) l).acked)) ∧
  (∀ (l : Fin 32) (s : State),
    s.laneClocked l = true → s.flag .XCV_LANE_STAT_CDR_LOCK l = false →
    exec (.cdrLock l) s = .next ((s.putFlag .XCV_LANE_STAT_CDR_LOCK true l).put .XCV_LANE_STAT_ADAPT (if (s.lane
      l).kept then 3 else 1) l)) ∧
  (∀ (l : Fin 32) (t : State) (s : State),
    s.laneClocked l = true → s.flag .XCV_LANE_STAT_CDR_LOCK l = true → t = (s.putFlag .XCV_LANE_STAT_ALIGNED true
      l).putFlag .XCV_LANE_STAT_ACTIVE true l →
    exec (.alignment l) s = .next (if (t.lane l).kept then t.put .XCV_LANE_STAT_ADAPT 2 l else t)) ∧
  (∀ (l : Fin 32) (s : State),
    s.laneClocked l = true → s.flag .XCV_LANE_STAT_CDR_LOCK l = true →
    exec (.adaptation l) s = .next ((s.putLane l { s.lane l with kept := true }).put .XCV_LANE_STAT_ADAPT (if s.flag
      .XCV_LANE_STAT_ALIGNED l then 2 else 3) l)) ∧
  (∀ (l : Fin 32) (s : State),
    s.fabricLane l = true → s.flag .XCV_LANE_STAT_CDR_LOCK l = true →
    exec (.cdrLockLoss l) s = .next ((((s.loseAlignment l).putFlag .XCV_LANE_STAT_CDR_LOCK false l).stopRclk
      l).abortScan l)) ∧
  (∀ (l : Fin 32) (s : State),
    s.fabricLane l = true → s.flag .XCV_LANE_STAT_ALIGNED l = true →
    exec (.alignmentLoss l) s = .next (s.loseAlignment l)) ∧
  (∀ (l : Fin 32) (s : State),
    s.laneSends l = true → s.flag .XCV_LANE_STAT_TX_IDLE l = false → (s.lane l).tx = [] →
    exec (.txUnderrun l) s = .next ((s.putLane l
      { s.lane l with sent := some (fillWord (s.get .XCV_LANE_CFG_MODE l)) }).bump .XCV_LANE_ERR_TX_UNDERRUN l)) ∧
  (∀ (l : Fin 32) (s : State),
    s.fabricLane l = true → s.flag .XCV_LANE_STAT_ACTIVE l = true → 16 ≤ (s.lane l).rx.length →
    exec (.rxOverflow l) s = .next (s.bump .XCV_LANE_ERR_RX_OVERFLOW l)) ∧
  (∀ (q : Fin 8) (i : Fin 2) (l : Nat) (s : State),
    l = 4 * q.val + s.get (if i = 0 then .XCV_RCLK_SEL0 else .XCV_RCLK_SEL1) q → s.flag (if i = 0 then .XCV_RCLK_EN0
      else .XCV_RCLK_EN1) q = true → s.fabricLane l = true → s.flag .XCV_LANE_STAT_CDR_LOCK l = true →
    exec (.recoveredClockStart q i) s = .next (s.putFlag (if i = 0 then .XCV_RCLK_RUN0 else .XCV_RCLK_RUN1) true q)) ∧
  (∀ (who : Requester) (l : Fin 32) (phase : BitVec 6) (voff : BitVec 7) (bits : BitVec 6) (t : State) (s : State),
    RegisterOpen s who .XCV_EYE_CTL → s.writesLane l who.owner = true → s.flag .XCV_EYE_RES_BUSY l = false → (16 ≤
      bits.toNat ∧ bits.toNat ≤ 40) → t = ((s.put .XCV_EYE_CTL_PHASE phase.toNat l).put .XCV_EYE_CTL_VOFF voff.toNat
      l).put .XCV_EYE_CTL_LOG2_BITS bits.toNat l →
    exec (.eyeScanStart who l phase voff bits) s = .next (((((t.put .XCV_EYE_RES_ERRORS 0 l).putFlag .XCV_EYE_RES_DONE
      false l).putFlag .XCV_EYE_RES_BUSY true l).putFlag .XCV_EYE_RES_ABORTED false l).acked)) ∧
  (∀ (l : Fin 32) (errors : Nat) (s : State),
    s.flag .XCV_EYE_RES_BUSY l = true →
    exec (.eyeScanDone l errors) s = .next ((((s.put .XCV_EYE_RES_ERRORS (min errors 0xFF_FFFF) l).putFlag
      .XCV_EYE_RES_BUSY false l).putFlag .XCV_EYE_RES_DONE true l).putFlag .XCV_EYE_RES_ABORTED false l))

/-- Each calibration loop's windows, probes and samples act on that loop's results and bounds -/
def Obligations.CalibrationWindowsEnd : Prop :=
  (∀ (refs : List (Fin 4 × Int × Nat)) (umber : BitVec 21) (s : State),
    s.loopRuns 1 = true →
    exec (.referenceOscillatorWindow false refs umber) s = .next ((s.bump .CAL_REF_DISCARDS).setSeen 1 false)) ∧
  (∀ (refs l : List (Fin 4 × Int × Nat)) (umber : BitVec 21) (t : State) (s : State),
    s.loopRuns 1 = true → (l = refs.filter fun r => s.flag .MBX_EP_STAT_LINK_UP r.1.val) → t = (((s.put
      .CAL_REF_ELIGIBLE (maskOf l RefSeen.eligible)).put .CAL_REF_SPREAD (maskOf l RefSeen.spread)).put
      .TMB_UMBER_PER_PERIOD_PS umber.toNat).discipline l →
    exec (.referenceOscillatorWindow true refs umber) s = .next ((t.setSeen 1 true).evaluate 1 ((if referencesDisagree
      l then [(1, 0)] else []) ++ s.umberFound umber.toNat))) ∧
  (∀ (s : State),
    s.flag .CAL_REF_HOLDING = true → s.mode ≠ .off →
    exec .correctionHoldExpiry s = .next ({ s with calib := { s.calib with expired := true } }.putFlag
      .CAL_REF_HOLDING false)) ∧
  (∀ (mtps : BitVec 16) (t u : State) (s : State),
    s.loopRuns 2 = true → t = s.put .SPN_RATE_CUR_MTPS mtps.toNat → u = (if s.get .SPN_RATE_MAX_MAX_MTPS = 0 ∨
      mtps.toNat < t.get .SPN_RATE_MIN_MTPS then t.put .SPN_RATE_MIN_MTPS mtps.toNat else t) →
    exec (.spineRateMeasure mtps) s = .next ((u.put .SPN_RATE_MAX_MAX_MTPS (max mtps.toNat (u.get
      .SPN_RATE_MAX_MAX_MTPS))).evaluate 2 (if mtps.toNat < 1000 then [(5, 0)] else []))) ∧
  (∀ (percent : Fin 101) (t : State) (s : State),
    s.loopRuns 2 = true → t = (({ s with calib := { s.calib with nextLink := (s.calib.nextLink + 1) % 96 } }.put
      .CAL_SPN_LAST_LINK s.calib.nextLink).put .CAL_SPN_LAST_PCT percent).stamp .CAL_SPN_TIME_TIME →
    exec (.marginProbe percent) s = .next ((if percent.val < t.get .CAL_SPN_MIN_PCT then (t.put .CAL_SPN_MIN_PCT
      percent).put .CAL_SPN_MIN_LINK s.calib.nextLink else t).evaluate 2 (if percent.val < 12 then [(4,
      s.calib.nextLink)] else []))) ∧
  (∀ (b : Fin 8) (image : Bool) (ones zeros : Nat) (f : Fld) (steps : Int) (s : State),
    s.loopRuns 3 = true → f = (if image then .CAL_SLT_REF_IMG else .CAL_SLT_REF_STD) → steps = (if ones + zeros < 64
      then 0 else if 3 * (ones + zeros) < 4 * ones then 1 else if 3 * (ones + zeros) < 4 * zeros then -1 else 0) →
    exec (.slateReadReferenceWindow b image ones zeros) s = .next (if 31 < ((BitVec.ofNat 6 (s.get f b)).toInt +
      steps).natAbs then s.evaluate 3 [(6, b.val)] else if steps = 0 then s.evaluate 3 [] else (((s.put f
      (BitVec.ofInt 6 ((BitVec.ofNat 6 (s.get f b)).toInt + steps)).toNat b).bump .CAL_SLT_STEPS b).stamp
      .CAL_SLT_TIME_TIME).evaluate 3 [])) ∧
  (∀ (vin int ext gain : BitVec 8) (s : State),
    s.loopRuns 4 = true →
    exec (.energyMeterWindow false vin int ext gain) s = .next (s.setSeen 4 false)) ∧
  (∀ (vin int ext gain : BitVec 8) (t : State) (moved : Fld → BitVec 8 → Bool) (s : State),
    s.loopRuns 4 = true → (∀ f v, moved f v = decide (5 < (v.toInt - (BitVec.ofNat 8 (s.get f)).toInt).natAbs)) → t =
      ((((s.put .CAL_NRG_VIN_MV vin.toNat).put .CAL_NRG_INT_MV int.toNat).put .CAL_NRG_EXT_MV ext.toNat).put
      .CAL_NRG_I_GAIN gain.toNat).stamp .CAL_NRG_TIME_TIME →
    exec (.energyMeterWindow true vin int ext gain) s = .next ((t.setSeen 4 true).evaluate 4 ((if SMap.look false
      s.calib.seen 4 && (moved .CAL_NRG_VIN_MV vin || moved .CAL_NRG_INT_MV int || moved .CAL_NRG_EXT_MV ext) then
      [(7, 0)] else []) ++ (if [vin, int, ext].any fun v => decide (100 < v.toInt.natAbs) then [(8, 0)] else []) ++
      (if 20 < gain.toInt.natAbs then [(9, 0)] else [])))) ∧
  (∀ (zones l : List (Fin 19 × BitVec 8)) (t : State) (s : State),
    s.loopRuns 5 = true → (l = zones.filter fun z => s.zoneReads z.1.val) → t = (l.foldl (fun u z => u.correctZone z.1
      z.2) s).stamp .CAL_TEMP_TIME_TIME →
    exec (.thermalWindow true zones) s = .next (t.evaluate 5 (l.flatMap fun z => (if 40 < s.get .CAL_TEMP_DIFF z.1
      then [(10, z.1.val)] else []) ++ (if 80 < z.2.toInt.natAbs then [(11, z.1.val)] else [])))) ∧
  (∀ (zones : List (Fin 19 × BitVec 8)) (s : State),
    s.loopRuns 5 = true →
    exec (.thermalWindow false zones) s = .next (s)) ∧
  (∀ (zones : List (Fin 19 × BitVec 12 × BitVec 12)) (s : State),
    s.loopRuns 5 = true →
    exec (.thermalSample zones) s = .next ((zones.filter fun z => s.zoneReads z.1.val).foldl (fun u z => u.sampleZone
      z.1 z.2.1 z.2.2) s)) ∧
  (∀ (who : Requester) (loop : BitVec 3) (s : State),
    RegisterOpen s who .CAL_INJECT → s.maintains who.owner = true → (1 ≤ loop.toNat ∧ loop.toNat ≤ 5) →
    exec (.calInject who loop) s = .next
      ({ s.put .CAL_INJECT_LOOP loop.toNat with calib := { s.calib with armed := SMap.put false s.calib.armed loop.toNat true } }.acked))

/-- Lockstep mismatch, SAF_REQ, SAF_ENTER, the markings, SAF_INJECT, and event log entries -/
def Obligations.SafetyCommandsAct : Prop :=
  (∀ (s : State),
    s.coreOn = true → s.power.mgcHalted = false →
    exec .lockstepMismatch s = .next (s.lockstepMismatch false)) ∧
  (∀ (who : Requester) (s : State),
    RegisterOpen s who .SAF_REQ → s.mayRequestSafe who.owner = true →
    exec (.safReq who) s = .next ((s.danger 13 who.owner none who.owner false).acked)) ∧
  (∀ (m : Fin 5) (p : Packet) (s : State),
    CommandRuns s m 0x60 p → p.p 0 < 65536 →
    exec (.safEnter m) s = .next ((s.danger 13 (mailOwner m) none (mailOwner m) false (p.p 0)).reply m St.ok)) ∧
  (∀ (who : Requester) (mask : BitVec 16) (s : State),
    s.mode = .run → WriteIssues s who → s.isAdmin who.owner = true → s.flag .SAF_STAT_CFG_SET = false → (∀ k ∈
      regionsOf mask.toNat, s.loaded k = true) →
    exec (.safCfgCritWrite who mask) s = .next (((s.put .SAF_CFG_CRIT_REGIONS mask.toNat).putFlag .SAF_STAT_CFG_SET
      true).acked)) ∧
  (∀ (who : Requester) (mask : BitVec 16) (s : State),
    s.mode = .run → WriteIssues s who → s.isAdmin who.owner = true → s.flag .SAF_STAT_PLL_SET = false → (∀ k ∈
      regionsOf mask.toNat, s.pllQualified k = true) →
    exec (.safPllCritWrite who mask) s = .next (((s.put .SAF_PLL_CRIT_PLLS mask.toNat).putFlag .SAF_STAT_PLL_SET
      true).acked)) ∧
  (∀ (who : Requester) (mask : BitVec 16) (s : State),
    s.mode = .run → WriteIssues s who → s.isAdmin who.owner = true → s.flag .SAF_STAT_IO_SET = false → (∀ k ∈
      regionsOf mask.toNat, s.loaded k = true) →
    exec (.safIoCritWrite who mask) s = .next (((s.put .SAF_IO_CRIT_REGIONS mask.toNat).putFlag .SAF_STAT_IO_SET
      true).acked)) ∧
  (∀ (who : Requester) (mask : BitVec 16) (s : State),
    s.mode = .run → WriteIssues s who → s.isAdmin who.owner = true → s.flag .SAF_STAT_CFG_SET = true →
    exec (.safCfgCritWrite who mask) s = .next (s.acked)) ∧
  (∀ (who : Requester) (mask : BitVec 16) (s : State),
    s.mode = .run → WriteIssues s who → s.isAdmin who.owner = true → s.flag .SAF_STAT_PLL_SET = true →
    exec (.safPllCritWrite who mask) s = .next (s.acked)) ∧
  (∀ (who : Requester) (mask : BitVec 16) (s : State),
    s.mode = .run → WriteIssues s who → s.isAdmin who.owner = true → s.flag .SAF_STAT_IO_SET = true →
    exec (.safIoCritWrite who mask) s = .next (s.acked)) ∧
  (∀ (who : Requester) (diag : BitVec 4) (index : BitVec 9) (s : State),
    RegisterOpen s who .SAF_INJECT → s.maintains who.owner = true → s.injectable diag.toNat index.toNat = true →
    exec (.safInject who diag index) s = .next ((((s.put .SAF_INJECT_DIAG diag.toNat).put .SAF_INJECT_INDEX
      index.toNat).inject diag.toNat index.toNat).acked)) ∧
  (∀ (s : State),
    exec .eventLogEntry s = .next (s.takeLogEntry))

/-- A lane compares its next frame, repairs its oldest mismatch, and SCRUB_QUERY waits for a sweep -/
def Obligations.ConfigurationScrubbing : Prop :=
  (∀ (k : Fin 16) (struck : List (Fin 10240)) (s : State),
    s.lanesRun = true → (s.scrubLane k).running = true → s.scrubbed k = true → (s.scrubLane k).repairs.length ≤ 4 →
      s.nextStatic k = none →
    exec (.scrubCompare k struck) s = .next (s.endSweep k)) ∧
  (∀ (k : Fin 16) (struck : List (Fin 10240)) (o : Nat) (t : State) (s : State),
    s.lanesRun = true → (s.scrubLane k).running = true → s.scrubbed k = true → (s.scrubLane k).repairs.length ≤ 4 →
      s.nextStatic k = some o → t = s.upset (4000 * k.val + o) struck → (t.flag .CFG_SCRUB_INJECT_ARM && t.get
      .CFG_SCRUB_INJECT_FRAME == 4000 * k.val + o) = false → some (crc32 (frameBytes (t.cells (4000 * k.val + o)))) =
      (t.liveEntry (4000 * k.val + o)).map (·.1) →
    exec (.scrubCompare k struck) s = .next ((t.setLane k
      { t.scrubLane k with matched := (t.scrubLane k).matched + 1 }).laneAfter k o)) ∧
  (∀ (k : Fin 16) (struck : List (Fin 10240)) (o : Nat) (t : State) (s : State),
    s.lanesRun = true → (s.scrubLane k).running = true → s.scrubbed k = true → (s.scrubLane k).repairs.length ≤ 4 →
      s.nextStatic k = some o → t = s.upset (4000 * k.val + o) struck → ((t.flag .CFG_SCRUB_INJECT_ARM = true ∧ t.get
      .CFG_SCRUB_INJECT_FRAME = 4000 * k.val + o) ∨ some (crc32 (frameBytes (t.cells (4000 * k.val + o)))) ≠
      (t.liveEntry (4000 * k.val + o)).map (·.1)) →
    exec (.scrubCompare k struck) s = .next (t.mismatch k o (t.flag .CFG_SCRUB_INJECT_ARM && t.get
      .CFG_SCRUB_INJECT_FRAME == 4000 * k.val + o))) ∧
  (∀ (k : Fin 16) (struck : List (Fin 10240)) (s : State),
    4 < (s.scrubLane k).repairs.length →
    exec (.scrubCompare k struck) s = .next (s)) ∧
  (∀ (k : Fin 16) (misses : Fin 4) (bad : List (Nat × List Nat)) (r : Repair) (rest : List Repair) (s : State),
    (s.scrubLane k).repairs = r :: rest → s.lanesRun = true → s.scrubbed k = true → (∀ b ∈ s.repairBanks k,
      s.programmingBank b = false) →
    exec (.scrubRepair k misses bad) s = .next ((s.repairFrame k r misses bad).releaseUnits)) ∧
  (∀ (who : Requester) (f : BitVec 16) (s : State),
    RegisterOpen s who .CFG_SCRUB_INJECT → s.maintains who.owner = true → f.toNat < 64000 → (s.liveEntry f.toNat).map
      (·.2) ≠ some true → s.scrubbed (f.toNat / 4000) = true →
    exec (.cfgScrubInject who f) s = .next (((s.put .CFG_SCRUB_INJECT_FRAME f.toNat).putFlag .CFG_SCRUB_INJECT_ARM
      true).acked)) ∧
  (∀ (m : Fin 5) (p : Packet) (s : State),
    CommandRuns s m 0x18 p → (0 < p.p 0 ∧ p.p 0 < 65536) → (s.isAdmin (mailOwner m) = true ∨ ∀ k ∈ regionsOf (p.p 0),
      s.parent k = p.acts ∧ p.acts ≠ 0) →
    exec (.scrubQuery m) s = .next (((s.await m p .sweep).setQueries (s.loader.queries ++
      [{ mailbox := m.val, mask := p.p 0, words := ((regionsOf (p.p 0)).filter fun k => !s.scrubbed k).map fun k => (k, queryWord {} true false) }])).settleQueries))

/-- Image checks, chunks, frames, completion, wipes, the Gold fallback, RUN, and reloads -/
def Obligations.LoadsRunFromChecksToRun : Prop :=
  (∀ (bad : List (Nat × List Nat)) (i : Nat) (j : LoadJob) (s : State),
    s.loads = true → s.loader.jobs.findIdx? (·.header.isNone) = some i → s.loader.jobs[i]? = some j →
      s.programmingEntry (s.jobEntry j) = false →
    exec (.imageCheck bad) s = .next (s.checkJob i j bad)) ∧
  (∀ (bad : List (Nat × List Nat)) (s : State),
    s.loads = true → s.loader.jobs.findIdx? (·.header.isNone) = none → s.streamReady = true → (s.mode = .run ∨
      s.failedBoot = true) →
    exec (.imageCheck bad) s = .next (s.checkStream)) ∧
  (∀ (i : Nat) (bad : List (Nat × List Nat)) (j : LoadJob) (h : Header) (s : State),
    s.loads = true → s.loader.jobs[i]? = some j → j.header = some h → j.next < h.chunkCount → (∀ b ∈ s.jobBanks j,
      s.programmingBank b = false) →
    exec (.chunkArrival i bad) s = .next (s.takeChunk i j h bad)) ∧
  (∀ (k : Fin 16) (misses : Fin 4) (f : FrameWord) (rest : List FrameWord) (s : State),
    (s.writer k).waiting = f :: rest → s.loads = true → s.regionState k = 2 → (misses.val < 3 ∨ (s.writer k).next =
      none) →
    exec (.frameWrite k misses) s = .next (s.writeFrame k (s.writer k) f)) ∧
  (∀ (k : Fin 16) (f g : FrameWord) (rest : List FrameWord) (s : State),
    (s.writer k).waiting = f :: rest → s.loads = true → s.regionState k = 2 → (s.writer k).next = some g →
    exec (.frameWrite k 3) s = .next ((s.abortRegion k St.unstable 6 g.chunk g.record).settleJobs)) ∧
  (∀ (k : Fin 16) (i : Nat) (j : LoadJob) (h : Header) (s : State),
    s.loads = true → s.allWritten k = true → (s.loader.jobs.findIdx? fun j => j.header.isSome && j.regions.contains
      k.val) = some i → s.loader.jobs[i]? = some j → j.header = some h →
    exec (.loadComplete k) s = .next ((s.completeLoad k i j h).settleJob i)) ∧
  (∀ (k : Fin 16) (s : State),
    s.loads = true → s.regionState k = 4 →
    exec (.wipeDone k) s = .next (((s.wipeCells k).setRegion k (if (s.fence k).abort then 5 else 0)).settleHandovers)) ∧
  (∀ (e : Nat) (t u : State) (s : State),
    s.mode = .boot → s.loader.fallback = true → (List.range 16).any s.loading = false → e = s.goldEntry → t = (s.put
      .CFG_BOOT_STAT_ENTRY (if e = 0xFE then 0xFF else e)).putFlag .CFG_BOOT_STAT_STYLE false → u = (t.startPlls
      ((((t.systemItem 3).getD []).drop 512).take 512)).forEach (List.range 16) (fun v k => v.setRegion k 1) →
    exec .goldFallback s = .next (u.setLoader
      { u.loader with fallback := false, jobs := [{ kind := .gold, entry := e, regions := List.range 16 }] })) ∧
  (∀ (s : State),
    s.loadsDone = true → s.flag .NRG_STAT_CHARGED = true →
    exec .runEntry s = .next (((s.put .CFG_BOOT_STAT_STATE 4).put .CFG_BOOT_TIME_TIME (min (s.now / 1000)
      0xFF_FFFF)).setMode .run)) ∧
  (∀ (m : Fin 5) (bad : List (Nat × List Nat)) (p : Packet) (d : DirEntry) (t : State) (c : ImageCheck) (s : State),
    CommandRuns s m 0x11 p → p.p 0 < 64 → (0 < p.p 1 ∧ p.p 1 < 65536) → s.reloadStatus p.acts (regionsOf (p.p 1)) =
      St.ok → d = s.directory.at (p.p 0) → d.state = 2 → (∀ k ∈ regionsOf (p.p 1), d.mask.testBit k = true) →
      s.programmingEntry d = false → s.checkStored (segmentBlock d.slot d.segment) bad d.agrees = (t, c) →
    exec (.ldReload m bad) s = .next (if c.status ≠ St.ok then (t.noteCheckFail (regionsOf (p.p 1)) c.status
      c.stage).reply m c.status else (t.setLoader
      { t.loader with reloads := t.loader.reloads ++ [(p.acts, { kind := .reload, entry := p.p 0, regions := regionsOf (p.p 1), header := some c.header, mailbox := some m.val, ident := c.ident })] }).await
      m p .load)) ∧
  (∀ (o : Nat) (j : LoadJob) (rest : List (Nat × LoadJob)) (t u : State) (s : State),
    s.loader.reloads = (o, j) :: rest → s.mode = .run → t = s.setLoader { s.loader with reloads := rest } →
      t.power.orderly = none → t.reloadStatus o j.regions = St.ok → u = (t.setLoader
      { t.loader with jobs := t.loader.jobs ++ [j] }).beginRegions j →
    exec .reloadFence s = .next (match j.mailbox with | some m => u.reply m St.ok | none => u)) ∧
  (∀ (o : Nat) (j : LoadJob) (rest : List (Nat × LoadJob)) (t : State) (s : State),
    s.loader.reloads = (o, j) :: rest → s.mode = .run → t = s.setLoader { s.loader with reloads := rest } →
      t.power.orderly = none → t.reloadStatus o j.regions ≠ St.ok →
    exec .reloadFence s = .next (t.refuseReload j (t.reloadStatus o j.regions)))

/-- The directory and Gold commands act on the image directory where their parameters allow it -/
def Obligations.ImageCommandsReply : Prop :=
  (∀ (m : Fin 5) (p : Packet) (first count : Nat) (d : Directory) (s : State),
    CommandRuns s m 0x10 p → p.p 0 = first + 256 * count → (1 ≤ count ∧ count ≤ 16) → first + count ≤ 64 → d =
      s.directory →
    exec (.imgDirRead m) s = .next (s.reply m St.ok (twoWords d.generation ++ [BitVec.ofNat 32 (d.bootEntry + 2 ^ 8 *
      d.goldEntry + 2 ^ 16 * d.bootStyle)] ++ bytesWords (d.regionEntry.map (BitVec.ofNat 8 ·)) 4 ++ [0] ++
      (List.range count).flatMap fun i => bytesWords ((d.at (first + i)).bytes) 12))) ∧
  (∀ (m : Fin 5) (p : Packet) (slot seg n e : Nat) (d : Directory) (x : DirEntry) (s : State),
    CommandRuns s m 0x12 p → p.p 0 = slot + 256 * seg + 65536 * n → (1 ≤ slot ∧ slot ≤ 3) → (1 ≤ n ∧ seg + n ≤ 16 ∧
      seg < 16) → p.p 1 ≤ n * 6291456 → d = s.directory → x =
      { state := 1, slot, segment := seg, segments := n, imageLen := p.p 1 } → ((List.range 64).find? fun i => (d.at
      i).state == 0) = some e → (∀ i < 64, (d.at i).state ≠ 0 → entriesOverlap (d.at i) x = false) →
    exec (.imgAlloc m) s = .next (s.updateDirectory m p { d with entry := d.entry.set e x } [e])) ∧
  (∀ (m : Fin 5) (p : Packet) (x : DirEntry) (base : Nat) (s : State),
    CommandRuns s m 0x13 p → p.p 0 < 64 → x = s.directory.at (p.p 0) → x.state = 1 → p.p 1 = SMap.look 0
      s.loader.pointer (p.p 0) → sourceShape (p.p64 2) (p.p 4) = true → p.p 1 + p.p 4 ≤ x.segments * 6291456 → base =
      segmentBlock x.slot x.segment → s.streaming (s.flashBank (base + p.p 1 / 262144)) = false → (∀ i < 5, i ≠ m.val
      → ∀ q, s.running i = some q → q.wait = .unit → q.opcode = 0x13 → q.p 0 ≠ p.p 0) →
    exec (.imgWrite m) s = .next (s.startWrite m p base (p.p 1 / 4096) (p.p64 2) (p.p 4) (s.locked (.slot x.slot)))) ∧
  (∀ (m : Fin 5) (bad : List (Nat × List Nat)) (p : Packet) (x : DirEntry) (t : State) (c : ImageCheck) (s : State),
    CommandRuns s m 0x14 p → p.p 0 < 64 → x = s.directory.at (p.p 0) → x.state = 1 → x.imageLen ≤ SMap.look 0
      s.loader.pointer (p.p 0) → s.loader.dirNext = none → s.programmingEntry x = false → (s.checkWhole (segmentBlock
      x.slot x.segment) bad fun h => decide (h.imageLen ≤ SMap.look 0 s.loader.pointer (p.p 0)) && decide (h.imageLen
      ≤ x.segments * 6291456)) = (t, c) →
    exec (.imgCommit m bad) s = .next (if c.status ≠ St.ok then t.reply m c.status else t.updateDirectory m p
      { s.directory with entry := s.directory.entry.set (p.p 0) (x.commit c) } (identWords c.ident))) ∧
  (∀ (m : Fin 5) (p : Packet) (e : Fin 64) (s : State),
    CommandRuns s m 0x15 p → p.p 0 = e.val → s.directory.goldEntry ≠ e.val → s.directory.bootEntry ≠ e.val →
      s.directory.regionEntry.contains e.val = false → s.entryInUse e = false → (s.directory.at e).state ≠ 0 →
    exec (.imgSetState m) s = .next (s.updateDirectory m p
      { s.directory with entry := s.directory.entry.set e freeEntry } [])) ∧
  (∀ (m : Fin 5) (p : Packet) (e : Fin 64) (s : State),
    CommandRuns s m 0x15 p → p.p 0 = e.val + 768 → s.directory.goldEntry ≠ e.val → s.directory.bootEntry ≠ e.val →
      s.directory.regionEntry.contains e.val = false → s.entryInUse e = false → (s.directory.at e).state = 2 →
    exec (.imgSetState m) s = .next (s.updateDirectory m p
      { s.directory with entry := s.directory.entry.set e { s.directory.at e with state := 3 } } [])) ∧
  (∀ (m : Fin 5) (p : Packet) (s : State),
    CommandRuns s m 0x16 p → p.p 0 < 512 →
    exec (.imgSelect m) s = .next (s.updateDirectory m p
      { s.directory with bootEntry := bitsOf (p.p 0) 0 8, bootStyle := bitsOf (p.p 0) 8 1 } [])) ∧
  (∀ (m : Fin 5) (p : Packet) (s : State),
    CommandRuns s m 0x17 p → p.p 0 < 4096 → ((p.acts = s.parent (bitsOf (p.p 0) 8 4) ∧ p.acts ≠ 0) ∨ s.isAdmin
      (mailOwner m) = true) →
    exec (.imgRegionSelect m) s = .next (s.updateDirectory m p
      { s.directory with regionEntry := s.directory.regionEntry.set (bitsOf (p.p 0) 8 4) (bitsOf (p.p 0) 0 8) } [])) ∧
  (∀ (m : Fin 5) (p : Packet) (t : State) (s : State),
    CommandRuns s m 0xA4 p → sourceShape (p.p64 1) (p.p 3) = true → p.p 0 + p.p 3 ≤ 100663296 → (p.p 0 = 0 ∨
      s.goldPointer = some (p.p 0)) → s.goldBusy = false → s.streaming (s.flashBank (p.p 0 / 262144)) = false → (∀ i <
      5, i ≠ m.val → ∀ q, s.running i = some q → q.wait = .unit → q.opcode ≠ 0xA4) → t = s.startWrite m p 0 (p.p 0 /
      4096) (p.p64 1) (p.p 3) (s.locked (.slot 0)) →
    exec (.lcGoldWrite m) s = .next (if ((t.running m).any fun q => q.wait == .unit) then t.setLoader
      { t.loader with goldTouched := SMap.putList false [] 0 (List.replicate 16 true) } else t)) ∧
  (∀ (m : Fin 5) (bad : List (Nat × List Nat)) (p : Packet) (t : State) (c : ImageCheck) (d : Directory) (s : State),
    CommandRuns s m 0xA5 p → s.goldBusy = false → s.loader.dirNext = none → s.programmingEntry
      { slot := 0, segment := 0, segments := 16 } = false → (s.checkWhole 0 bad fun h => h.imageType == 1 && decide
      (h.imageLen ≤ s.goldPointer.getD 0) && decide (h.imageLen ≤ 100663296)) = (t, c) → t.loader.dir = some d →
    exec (.lcGoldCommit m bad) s = .next (if c.status ≠ St.ok then t.reply m c.status else t.updateDirectory m p
      { d with entry := d.entry.set d.goldEntry (DirEntry.commit { slot := 0, segment := 0, segments := (c.header.imageLen + 6291455) / 6291456 } c) }
      (identWords c.ident))) ∧
  (∀ (m : Fin 5) (bad : List (Nat × List Nat)) (p : Packet) (t : State) (c : ImageCheck) (s : State),
    CommandRuns s m 0xA5 p → s.goldBusy = false → s.loader.dirNext = none → s.programmingEntry
      { slot := 0, segment := 0, segments := 16 } = false → (s.checkWhole 0 bad fun h => h.imageType == 1 && decide
      (h.imageLen ≤ s.goldPointer.getD 0) && decide (h.imageLen ≤ 100663296)) = (t, c) → t.loader.dir = none →
    exec (.lcGoldCommit m bad) s = .next (if c.status ≠ St.ok then t.reply m c.status else t.updateDirectory m p
      { goldEntry := 0, entry := DirEntry.commit { slot := 0, segment := 0, segments := (c.header.imageLen + 6291455) / 6291456 } c :: List.replicate 63 {} }
      (identWords c.ident)))

/-- BST_SLICE and BST_PROG_RUN start, slice units proceed in RUN, a program's end writes its record -/
def Obligations.SelfTestsStartAndEnd : Prop :=
  (∀ (m : Fin 5) (p : Packet) (n : Fin 128) (page count : Nat) (s : State),
    CommandRuns s m 0x50 p → p.p 0 = n.val + 128 * page + 16384 * (count - 1) → (1 ≤ count ∧ page + count ≤ 128) →
      ((p.acts = s.top (s.bankOwner n) ∧ p.acts ≠ 0) ∨ s.isAdmin p.acts = true) → s.isParking n = false → (s.parkFor
      n).isSome = true → s.groupOn (groupOfBank n) = true → s.admits 11 = true →
    exec (.bstSlice m) s = .next ((s.admitOp 11 m.val).await m { p with note := [n.val, page, count, 0, 0] } .slice)) ∧
  (∀ (g : Fin 16) (found : List (Nat × Nat)) (s : State),
    s.mode = .run →
    exec (.slicePage g found) s = .next (s.sliceUnit g (found.filter fun f => (((s.slice g).map fun t => pageCells
      t.page).getD []).contains f.1 && 0 < f.2))) ∧
  (∀ (m : Fin 5) (p : Packet) (n : Nat) (s : State),
    CommandRuns s m 0x51 p → (n = 1 ∨ n = 2) → (p.p 0 = n ∨ p.p 0 = n + 256) → p.p 1 = 0 → p.p64 2 = 0 →
    exec (.bstProgRun m) s = .next (s.acceptProgram m p n (programSteps n []) (p.p 0 == n + 256 || s.impliedForce))) ∧
  (∀ (m : Fin 5) (p : Packet) (t : State) (steps : List Word) (s : State),
    CommandRuns s m 0x51 p → s.lc ≠ lcDeployed → (p.p 0 = 0x80 ∨ p.p 0 = 0x180) → (1 ≤ p.p 1 ∧ p.p 1 ≤ 256) → p.p64 2
      % 4 = 0 → s.bankUse (mailOwner m) (p.p64 2 / 8 * 8) (p.p64 2 % 8 + 4 * p.p 1) = St.ok → s.readList (p.p64 2)
      (p.p 1) = (t, some steps) → steps.all stepValid = true →
    exec (.bstProgRun m) s = .next (t.acceptProgram m p 0x80 steps (p.p 0 == 0x180 || s.impliedForce))) ∧
  (∀ (counts : List (Option Nat)) (fails : List (Fin 6 × BitVec 24)) (n : Nat) (r : TestRecord) (t u v w : State) (s :
    State),
    s.test.program = some n → r = s.testRecord n s.test.steps (s.testCounts counts) (fails.map fun f => (f.1.val,
      f.2.toNat)) → t = ((s.testBlockSteps s.test.steps (s.testCounts counts)).releaseOp 12 0).releaseOp 13 0 → u =
      ({ t with test := { program := none, steps := [], cut := false, record := some r } }.showTests).logTest r → v =
      (if t.power.orderly.isNone && n == 2 then u.showRecord 1 r else u) → w = (if r.outcome = outcomeFail then
      v.putFlag .BST_STAT_FAIL true else v) →
    exec (.selftestDone counts fails) s = .next ((if (w.mode == .boot || w.mode == .run) && decide (r.steps =
      r.length) then w.forEach ((List.range 128).filter fun b => w.groupOn (groupOfBank b)) State.scrubRestart else
      w).afterTest n))

/-- LC_ADVANCE, LC_KEY_SET, LC_REVOKE and LC_IMAGE_KEY_SET: what a token that passes does, and one that does not -/
def Obligations.SecurityCommandsAct : Prop :=
  (∀ (m : Fin 5) (p : Packet) (b : List Byte) (st : Nat) (s : State),
    CommandRuns s m 0xA0 p → s.power.orderly = none → b = wordBytes p.params → st = s.checkToken 1 b →
    exec (.lcAdvance m) s = .next (if st = St.ok then ((s.noteToken b st).await m p .commit).acceptOff
      { cause := .lifecycle, mailbox := some m.val, restart := true, noTest := true, lifeCycle := some (field b 0x11 1) }
      true else (s.noteToken b st).reply m st)) ∧
  (∀ (m : Fin 5) (p : Packet) (s : State),
    CommandRuns s m 0xA1 p → s.lc = lcBlank → p.p 0 < 4 → s.slotSpent (p.p 0) = false →
    exec (.lcKeySet m true) s = .next ((s.programSlot (p.p 0) (wordBytes (p.params.drop 1)) true).reply m St.ok)) ∧
  (∀ (m : Fin 5) (good : Bool) (p : Packet) (b : List Byte) (st : Nat) (t : State) (s : State),
    CommandRuns s m 0xA1 p → s.lc ≠ lcBlank → b = wordBytes p.params → st = s.checkToken 2 b → t = (s.noteToken b
      st).programSlot (field b 0x12 1) ((b.drop 0x20).take 48) good →
    exec (.lcKeySet m good) s = .next (if st ≠ St.ok then (s.noteToken b st).reply m st else if good then (t.bump
      .DEV_LC_CNT_ACCEPTED).reply m St.ok else (t.put .DEV_LC_LAST_STATUS St.unstable).reply m St.unstable)) ∧
  (∀ (m : Fin 5) (p : Packet) (b : List Byte) (st : Nat) (s : State),
    CommandRuns s m 0xA2 p → b = wordBytes p.params → st = s.checkToken 3 b →
    exec (.lcRevoke m) s = .next (if st = St.ok then (((s.noteToken b st).blowFlag (12 + field b 0x12 1)).bump
      .DEV_LC_CNT_ACCEPTED).reply m St.ok else (s.noteToken b st).reply m st)) ∧
  (∀ (m : Fin 5) (p : Packet) (s : State),
    CommandRuns s m 0xA3 p → s.fuses.keyTouched = false → s.fuse 16 = false →
    exec (.lcImageKeySet m) s = .next
      (({ s with fuses := { s.fuses with imageKey := wordBytes p.params, keyTouched := true } }.blowFlag 16).reply m
      St.ok))

/-- JTAG instructions set IR and act; pin control needs a failed boot; JTAG_REG and JTAG_LOAD their life-cycle states -/
def Obligations.JtagInstructionsAct : Prop :=
  (∀ (s : State),
    s.mode ≠ .off →
    exec .testLogicReset s = .next (s.releaseJtag.setIr 0x02)) ∧
  (∀ (pins load : BitVec 1552) (t : State) (s : State),
    s.mode ≠ .off → s.failedBoot = true → t = s.releaseJtag.setIr 0x00 →
    exec (.extest pins load) s = .next ((t.scan pins load).driveCells)) ∧
  (∀ (pins load : BitVec 1552) (s : State),
    s.mode ≠ .off → s.failedBoot = false →
    exec (.extest pins load) s = .next ((s.releaseJtag.setIr 0xFF).bump .DEV_JTAG_REFUSED)) ∧
  (∀ (pins load : BitVec 1552) (s : State),
    s.mode ≠ .off →
    exec (.samplePreload pins load) s = .next ((s.releaseJtag.setIr 0x01).scan pins load)) ∧
  (∀ (t : State) (s : State),
    s.mode ≠ .off → t = s.releaseJtag.setIr 0x02 →
    exec .idcode s = .next ({ t with jtag := { t.jtag with data := 0x0D31_3A5F } })) ∧
  (∀ (s : State),
    s.mode ≠ .off → s.failedBoot = true →
    exec .clamp s = .next ((s.releaseJtag.setIr 0x03).driveCells)) ∧
  (∀ (s : State),
    s.mode ≠ .off → s.failedBoot = true →
    exec .highz s = .next ((s.releaseJtag.setIr 0x04).driveJtag (fun _ => some .hiz) fun _ => some false)) ∧
  (∀ (pins load : BitVec 1552) (s : State),
    s.mode ≠ .off → s.failedBoot = true →
    exec (.extestPulse pins load) s = .next ((s.releaseJtag.setIr 0x05).scan pins load)) ∧
  (∀ (pins load : BitVec 1552) (s : State),
    s.mode ≠ .off → s.failedBoot = true →
    exec (.extestTrain pins load) s = .next ((s.releaseJtag.setIr 0x06).scan pins load)) ∧
  (∀ (s : State),
    s.mode ≠ .off →
    exec .bypass s = .next (s.releaseJtag.setIr 0xFF)) ∧
  (∀ (offset : BitVec 24) (write : Bool) (data : BitVec 32) (t u : State) (r : Resp) (v : Nat) (s : State),
    s.mode ≠ .off → (s.lc = lcProvisioned ∨ (s.lc = lcReturned ∧ write = false)) → t = s.releaseJtag.setIr 0x10 →
      t.control Requester.jtag.port 0x15 offset.toNat (if offset.toNat % 4 = 0 then .w32 else .bad) (if write then
      .write data.toNat else .read) = (u, r, v) →
    exec (.jtagReg offset write data) s = .next
      ({ u with jtag := { u.jtag with resp := r.code, data := v % 2 ^ 32 } })) ∧
  (∀ (offset : BitVec 24) (data : BitVec 32) (t u : State) (s : State),
    s.mode ≠ .off → s.lc = lcReturned → t = s.releaseJtag.setIr 0x10 → u = t.captureDecerr 0x15 (0x3_0000_0000 +
      offset.toNat) true true →
    exec (.jtagReg offset true data) s = .next
      ({ u with jtag := { u.jtag with resp := Resp.decerr.code, data := 0 } })) ∧
  (∀ (offset : BitVec 24) (write : Bool) (data : BitVec 32) (s : State),
    s.mode ≠ .off → s.lc ≠ lcProvisioned → s.lc ≠ lcReturned →
    exec (.jtagReg offset write data) s = .next (s.releaseJtag.setIr 0xFF)) ∧
  (∀ (bytes : List Byte) (t : State) (s : State),
    s.mode = .run → s.lc = lcProvisioned → t = s.releaseJtag.setIr 0x11 →
    exec (.jtagLoad bytes) s = .next (t.setLoader
      { t.loader with stream := (if s.get .DEV_JTAG_IR = 0x11 then t.loader.stream else []) ++ bytes }))

/-- Output shorts, overcurrents, inputs, wire breaks, open loads and VFIELD act on their pins and groups -/
def Obligations.PinEventsAct : Prop :=
(∀ (g : Fin 4) (mV : BitVec 16) (s : State), 40000 < mV.toNat → exec (.vfieldGood g mV) s = .fault .beyondRatings) ∧
(∀ (g : Fin 4) (mV : BitVec 16) (s : State), 32000 < mV.toNat → exec (.vfieldReversal g mV) s = .fault .beyondRatings) ∧
  (∀ (n : Fin 448) (d : Bool) (s : State),
    s.coreOn = true → s.gioChecked n = true → s.gioDisabled n = false → d = (s.gioLevel n == .high) →
    exec (.outputShort n) s = .next ((s.putBit .GIO_PAD_PAD (n % 32) (!d) (n / 32)).gioShort n d (!d) false)) ∧
  (∀ (who : Requester) (b : Fin 14) (pins : BitVec 32) (s : State),
    RegisterOpen s who .GIO_REARM → s.writesPins b who.owner = true →
    exec (.gioRearm who b pins) s = .next (((s.put .GIO_SHORT_DISABLED (s.get .GIO_SHORT_DISABLED b &&& (0xFFFFFFFF -
      pins.toNat)) b).showPins b).acked)) ∧
  (∀ (n : Fin 64) (mA : BitVec 16) (s : State),
    s.coreOn = true → s.fioOn n = true → s.tripLevel n ≤ mA.toNat → mA.toNat ≤ 1500 →
    exec (.fieldOvercurrent n mA) s = .next (s.fioTrip n mA.toNat false)) ∧
  (∀ (g : Fin 4) (mA : BitVec 16) (s : State),
    s.coreOn = true → (∃ i < 16, s.fioOn (16 * g.val + i) = true) → 4400 < mA.toNat →
    exec (.groupOverload g mA) s = .next (s.groupTrip g mA.toNat)) ∧
  (∀ (n : Fin 64) (s : State),
    exec (.inrushWindowEnd n) s = .next (s.putFio n { s.fioPin n with inrush := false })) ∧
  (∀ (who : Requester) (g : Fin 4) (pins : BitVec 16) (s : State),
    RegisterOpen s who .FIO_REARM → s.writesPins (12 + g) who.owner = true →
    exec (.fioRearm who g pins) s = .next ((s.rearmField g pins.toNat).acked)) ∧
  (∀ (n : Fin 64) (value : Bool) (t : State) (s : State),
    s.coreOn = true → s.fieldInput n = true → s.bit .FIO_IN_IN (n % 16) (n / 16) ≠ value → t = s.putBit .FIO_IN_IN (n
      % 16) value (n / 16) →
    exec (.fieldInputChange n value) s = .next (if s.bit (if value then .FIO_WAKE_RISE else .FIO_WAKE_FALL) (n % 16)
      (n / 16) && t.bit .PWR_WAKE_EN_FIO (n / 16) then t.wake 3 (n / 16) else t)) ∧
  (∀ (n : Fin 64) (s : State),
    s.coreOn = true → s.fieldInput n = true → (s.fioPin n).settings.testBit 4 = true → s.bit .FIO_DIAG_WIRE_BREAK (n %
      16) (n / 16) = false →
    exec (.wireBreak n true) s = .next ((((s.putBit .FIO_DIAG_WIRE_BREAK (n % 16) true (n / 16)).bump
      .FIO_CNT_WIRE_BREAKS (n / 16)).noteFio n 4 false))) ∧
  (∀ (n : Fin 64) (s : State),
    s.coreOn = true → s.fieldInput n = true → (s.fioPin n).settings.testBit 4 = true → s.bit .FIO_DIAG_WIRE_BREAK (n %
      16) (n / 16) = true →
    exec (.wireBreak n false) s = .next (s.putBit .FIO_DIAG_WIRE_BREAK (n % 16) false (n / 16))) ∧
  (∀ (n : Fin 64) (mV : BitVec 16) (s : State),
    s.coreOn = true → s.loadChecked n = true → s.fioOn n = false →
    exec (.openLoadTest n mV) s = .next (s.setOpenLoad n (if (s.fioPin n).settings.testBit 7 then decide (mV.toNat +
      4000 < s.get .FIO_GRP_STAT_VFIELD_MV (n / 16)) else decide (4000 < mV.toNat)))) ∧
  (∀ (n : Fin 64) (isOpen : Bool) (s : State),
    s.coreOn = true → s.loadChecked n = true → (s.fioOn n = true ∨ isOpen = false) →
    exec (.openLoad n isOpen) s = .next (s.setOpenLoad n isOpen)) ∧
  (∀ (g : Fin 4) (mV : BitVec 16) (t : State) (s : State),
    s.coreOn = true → (10000 ≤ mV.toNat ∧ mV.toNat ≤ 40000) → t = (((s.put .FIO_GRP_STAT_VFIELD_MV mV.toNat g).putFlag
      .FIO_GRP_STAT_VFIELD_OK true g).putFlag .FIO_GRP_STAT_UNDERVOLT false g).putFlag .FIO_GRP_STAT_REVERSED false g
      →
    exec (.vfieldGood g mV) s = .next (t.showPins (12 + g))) ∧
  (∀ (g : Fin 4) (mV : BitVec 16) (t : State) (s : State),
    s.coreOn = true → mV.toNat < 9000 → t = s.put .FIO_GRP_STAT_VFIELD_MV mV.toNat g →
    exec (.vfieldUndervoltage g mV) s = .next (if t.flag .FIO_GRP_STAT_UNDERVOLT g then t else t.loseField g 5)) ∧
  (∀ (g : Fin 4) (mV : BitVec 16) (t : State) (s : State),
    s.coreOn = true → (500 < mV.toNat ∧ mV.toNat ≤ 32000) → t = s.put .FIO_GRP_STAT_VFIELD_MV 0 g →
    exec (.vfieldReversal g mV) s = .next (if t.flag .FIO_GRP_STAT_REVERSED g then t else (t.loseField g 6).putFlag
      .FIO_GRP_STAT_REVERSED true g))

/-- A clock edge clocks what the region's tracks clock, from the values that stood before it, and moves pins, lanes and ports -/
def Obligations.FabricClockEdgeMovesTheDesign : Prop :=
  (∀ (k : Fin 16) (rising falling : List ClockSource) (pads : BitVec 32) (lanes : List LaneEdge) (rspReady reqReady :
    List (Fin 64)) (s1 u t v : State) (s : State),
    s.coreOn = true → s1 = ((lanes.filter fun e => laneRegion e.lane.val == k.val).foldl State.laneEdge s).samplePads
      k pads → s1.regionRuns k = true → u = (bankPins k).foldl (fun x n => x.samplePad n pads) s1 → t = (bankPins
      k).foldl (fun x n => u.clockPin x k n (u.trackEdge rising k (u.gioPin n).track) (u.trackEdge falling k (u.gioPin
      n).track) pads) (u.clockElements k rising) → v = (u.edgePorts k rising).foldl (fun x p => x.clockPort rspReady
      reqReady p) (u.clockLanes t k rising) →
    exec (.fabricClockEdge k rising falling pads lanes rspReady reqReady) s = .next (v.spend.drivePins k rising
      falling)) ∧
  (∀ (k : Fin 16) (rising falling : List ClockSource) (pads : BitVec 32) (lanes : List LaneEdge) (rspReady reqReady :
    List (Fin 64)) (u : State) (s : State),
    s.coreOn = true → u = ((lanes.filter fun e => laneRegion e.lane.val == k.val).foldl State.laneEdge s).samplePads k
      pads → u.regionRuns k = false →
    exec (.fabricClockEdge k rising falling pads lanes rspReady reqReady) s = .next (u))

/-- Control register accesses: undefined offsets, misalignment, reads, latched high words, accepted writes -/
def Obligations.RegisterAccessesAreDecided : Prop :=
  (∀ (who : Requester) (off : BitVec 24) (wide : Bool) (data : BitVec 64) (s : State),
    s.mode ≠ .off → locate off.toNat = none → WriteIssues s who →
    exec (.registerWrite who off wide data) s = .next
      ({ s.captureDecerr who.owner (0x3_0000_0000 + off.toNat) true false with answer := some { codes := [.decerr], words := [] } })) ∧
  (∀ (who : Requester) (off : BitVec 24) (s : State),
    s.mode ≠ .off → locate off.toNat = none → ReadIssues s who →
    exec (.latchingRead who off false) s = .next
      ({ s.captureDecerr who.owner (0x3_0000_0000 + off.toNat) false false with answer := some { codes := [.decerr], words := [BitVec.allOnes 32] } })) ∧
  (∀ (who : Requester) (off : BitVec 24) (p : Located) (s : State),
    s.mode ≠ .off → off.toNat % 4 ≠ 0 → locate off.toNat = some p → s.mayRead p who.owner = true → s.darkPlace p =
      false → ReadIssues s who →
    exec (.latchingRead who off false) s = .next
      ({ s with answer := some { codes := [.narrow], words := [BitVec.allOnes 32] } })) ∧
  (∀ (who : Requester) (off : BitVec 24) (r : Reg) (i : Nat) (s : State),
    s.mode ≠ .off → off.toNat % 4 = 0 → locate off.toNat = some (.reg r i false) → s.mayRead (.reg r i false)
      who.owner = true → s.darkPlace (.reg r i false) = false → r.place.wide = false → r.detailsOf = none → ReadIssues
      s who →
    exec (.latchingRead who off false) s = .next
      ({ s with answer := some { codes := [.ok], words := [BitVec.ofNat 32 (s.liveFor r i who.owner)] } })) ∧
  (∀ (who : Requester) (off : BitVec 24) (r : Reg) (i : Nat) (s : State),
    s.mode ≠ .off → off.toNat % 4 = 0 → locate off.toNat = some (.reg r i false) → s.mayRead (.reg r i false)
      who.owner = true → s.darkPlace (.reg r i false) = false → r.place.wide = true → r.details = none → ReadIssues s
      who →
    exec (.latchingRead who off false) s = .next
      ({ s.setLatch who.port (r.addr i + 4) (some (s.liveFor r i who.owner / 2 ^ 32)) with answer := some { codes := [.ok], words := [BitVec.ofNat 32 (s.liveFor r i who.owner % 2 ^ 32)] } })) ∧
  (∀ (who : Requester) (off : BitVec 24) (r : Reg) (i high : Nat) (s : State),
    s.mode ≠ .off → off.toNat % 4 = 0 → locate off.toNat = some (.reg r i true) → s.mayRead (.reg r i true) who.owner
      = true → s.darkPlace (.reg r i true) = false → s.latched who.port (r.addr i + 4) = some high → ReadIssues s who
      →
    exec (.latchingRead who off false) s = .next
      ({ s.setLatch who.port (r.addr i + 4) none with answer := some { codes := [.ok], words := [BitVec.ofNat 32 high] } })) ∧
  (∀ (who : Requester) (off : BitVec 24) (r : Reg) (i : Nat) (s : State),
    s.mode ≠ .off → off.toNat % 4 = 0 → locate off.toNat = some (.reg r i false) → s.mayRead (.reg r i false)
      who.owner = true → s.darkPlace (.reg r i false) = false → r.place.wide = true → r.details = none → ReadIssues s
      who →
    exec (.latchingRead who off true) s = .next
      ({ s with answer := some { codes := [.ok], words := twoWords (s.liveFor r i who.owner) } })) ∧
  (∀ (who : Requester) (off : BitVec 24) (data : BitVec 64) (r : Reg) (i : Nat) (t : State) (s : State),
    RegisterOpen s who r → off.toNat % 4 = 0 → locate off.toNat = some (.reg r i false) → r ≠ .MBX_CTL → s.writeReg r
      i false false who.owner (data.toNat % 2 ^ 32) = .took t →
    exec (.registerWrite who off false data) s = .next (t.acked))

/-- A low-word read and the next high-word read of the same requester give one value of a 64-bit register -/
def Obligations.HighWordReadsAreConsistent : Prop :=
  ∀ (who : Requester) (low high : BitVec 24) (r : Reg) (i : Nat) (s t u : State),
    s.mode ≠ .off → u.mode ≠ .off → ReadIssues s who → ReadIssues u who → low.toNat % 4 = 0 → high.toNat % 4 = 0 →
    locate low.toNat = some (.reg r i false) → locate high.toNat = some (.reg r i true) →
    r.place.wide = true → r.details = none → s.mayRead (.reg r i false) who.owner = true →
    s.darkPlace (.reg r i false) = false → u.mayRead (.reg r i true) who.owner = true →
    u.darkPlace (.reg r i true) = false → exec (.latchingRead who low false) s = .next t →
    u.latched who.port (r.addr i + 4) = t.latched who.port (r.addr i + 4) →
    ∃ v, exec (.latchingRead who high false) u = .next v ∧
      t.answer = some { codes := [.ok], words := [BitVec.ofNat 32 (s.liveFor r i who.owner % 2 ^ 32)] } ∧
      v.answer = some { codes := [.ok], words := [BitVec.ofNat 32 (s.liveFor r i who.owner / 2 ^ 32)] }

/-- DEV_DECERR_INFO.COUNT is written by owners 0x01 and 0x14 and by ADMIN; another's write changes nothing and answers NOTOWN -/
def Obligations.DecerrCountIsWrittenByItsOwners : Prop :=
  (∀ (who : Requester) (off : BitVec 24) (data : BitVec 64) (s : State),
    s.mode ≠ .off → off.toNat % 4 = 0 → locate off.toNat = some (.reg .DEV_DECERR_INFO 0 false) → (who.owner = 0x01 ∨
      who.owner = 0x14 ∨ s.isAdmin who.owner = true) → WriteIssues s who →
    exec (.registerWrite who off false data) s = .next ((s.put .DEV_DECERR_INFO_COUNT (data.toNat / 2 ^ 16 % 2 ^
      16)).acked)) ∧
  (∀ (who : Requester) (off : BitVec 24) (data : BitVec 64) (s : State),
    s.mode ≠ .off → off.toNat % 4 = 0 → locate off.toNat = some (.reg .DEV_DECERR_INFO 0 false) → who.owner ≠ 0x01 →
      who.owner ≠ 0x14 → s.isAdmin who.owner = false → WriteIssues s who →
    exec (.registerWrite who off false data) s = .next
      ({ s with answer := some { codes := [.notown], words := [] } }))

/-- PWR_WAKE_EN accepts writes from 0x01, 0x14 and ADMIN, in DOZE as elsewhere; any other requester receives NOTOWN -/
def Obligations.WakeEnablesAreWrittenByTheirOwners : Prop :=
  (∀ (who : Requester) (off : BitVec 24) (data : BitVec 64) (s : State),
    s.mode ≠ .off → s.mode ≠ .safe → off.toNat % 4 = 0 → locate off.toNat = some (.reg .PWR_WAKE_EN 0 false) →
      (who.owner = 0x01 ∨ who.owner = 0x14 ∨ s.isAdmin who.owner = true) → WriteIssues s who →
    exec (.registerWrite who off false data) s = .next ((((s.put .PWR_WAKE_EN_LINK (data.toNat % 2 ^ 4)).put
      .PWR_WAKE_EN_FIO (data.toNat / 2 ^ 4 % 2 ^ 4)).putFlag .PWR_WAKE_EN_ALARM (data.toNat.testBit 8)).acked)) ∧
  (∀ (who : Requester) (off : BitVec 24) (data : BitVec 64) (s : State),
    s.mode ≠ .off → off.toNat % 4 = 0 → locate off.toNat = some (.reg .PWR_WAKE_EN 0 false) → who.owner ≠ 0x01 →
      who.owner ≠ 0x14 → s.isAdmin who.owner = false → WriteIssues s who →
    exec (.registerWrite who off false data) s = .next
      ({ s with answer := some { codes := [.notown], words := [] } }))

/-- DMA_TIMEOUT and DMA_GROUP_CFG take values in range from 0x01, 0x14 and ADMIN, reject others, and answer NOTOWN to others -/
def Obligations.DmaSettingsAreWrittenByTheirOwners : Prop :=
  (∀ (who : Requester) (off : BitVec 24) (data : BitVec 64) (v : Nat) (s : State),
    s.mode ≠ .off → s.mode ≠ .safe → off.toNat % 4 = 0 → locate off.toNat = some (.reg .DMA_TIMEOUT 0 false) →
      (who.owner = 0x01 ∨ who.owner = 0x14 ∨ s.isAdmin who.owner = true) → v = data.toNat % 2 ^ 14 → (10 ≤ v ∧ v ≤
      10000) → WriteIssues s who →
    exec (.registerWrite who off false data) s = .next ((s.put .DMA_TIMEOUT_TIMEOUT_US v).acked)) ∧
  (∀ (who : Requester) (off : BitVec 24) (data : BitVec 64) (v : Nat) (s : State),
    s.mode ≠ .off → off.toNat % 4 = 0 → locate off.toNat = some (.reg .DMA_TIMEOUT 0 false) → (who.owner = 0x01 ∨
      who.owner = 0x14 ∨ s.isAdmin who.owner = true) → v = data.toNat % 2 ^ 14 → (v < 10 ∨ 10000 < v) → WriteIssues s
      who →
    exec (.registerWrite who off false data) s = .next
      ({ s.captureDecerr who.owner (0x3_0000_0000 + off.toNat) true true with answer := some { codes := [.decerr], words := [] } })) ∧
  (∀ (who : Requester) (off : BitVec 24) (data : BitVec 64) (g v : Nat) (s : State),
    s.mode ≠ .off → s.mode ≠ .safe → off.toNat % 4 = 0 → locate off.toNat = some (.reg .DMA_GROUP_CFG g false) →
      (who.owner = 0x01 ∨ who.owner = 0x14 ∨ s.isAdmin who.owner = true) → v = data.toNat / 2 ^ 4 % 2 ^ 12 → (1 ≤ v ∧
      v ≤ 2048) → WriteIssues s who →
    exec (.registerWrite who off false data) s = .next (((s.put .DMA_GROUP_CFG_WEIGHT (data.toNat % 2 ^ 4) g).put
      .DMA_GROUP_CFG_TAG_CAP v g).acked)) ∧
  (∀ (who : Requester) (off : BitVec 24) (data : BitVec 64) (g v : Nat) (s : State),
    s.mode ≠ .off → off.toNat % 4 = 0 → locate off.toNat = some (.reg .DMA_GROUP_CFG g false) → (who.owner = 0x01 ∨
      who.owner = 0x14 ∨ s.isAdmin who.owner = true) → v = data.toNat / 2 ^ 4 % 2 ^ 12 → (v < 1 ∨ 2048 < v) →
      WriteIssues s who →
    exec (.registerWrite who off false data) s = .next
      ({ s.captureDecerr who.owner (0x3_0000_0000 + off.toNat) true true with answer := some { codes := [.decerr], words := [] } })) ∧
  (∀ (who : Requester) (off : BitVec 24) (data : BitVec 64) (r : Reg) (g : Nat) (s : State),
    s.mode ≠ .off → off.toNat % 4 = 0 → locate off.toNat = some (.reg r g false) → (r = .DMA_TIMEOUT ∨ r =
      .DMA_GROUP_CFG) → who.owner ≠ 0x01 → who.owner ≠ 0x14 → s.isAdmin who.owner = false → WriteIssues s who →
    exec (.registerWrite who off false data) s = .next
      ({ s with answer := some { codes := [.notown], words := [] } }))

/-- A DOZE wake that class 10 does not admit is held in DOZE and its refusal counted once; the exit starts once it is admitted -/
def Obligations.DozeWakesAreHeldUntilAdmitted : Prop :=
(∀ (s : State) (t : State), s.mode = .doze → s.power.woken = true → s.admits 10 = false →
    s.power.wakeHeld = false → t = (s.refuseEnergy 10).recordRefusal 1 1 0 0 →
    exec .dozeExit s = .next { t with power := { s.power with wakeHeld := true } } ∧ t.mode = .doze ∧
      (s.get .PWR_REFUSE_OWN_COUNT 0 < 2 ^ 32 - 1 →
        t.get .PWR_REFUSE_OWN_COUNT 0 = s.get .PWR_REFUSE_OWN_COUNT 0 + 1)) ∧
  (∀ (s : State),
    s.mode = .doze → s.power.woken = true → s.admits 10 = false → s.power.wakeHeld = true →
    exec .dozeExit s = .next (s)) ∧
  (∀ (t : State) (s : State),
    s.mode = .doze → s.power.woken = true → s.admits 10 = true → s.power.resetAfterWake = false → t = s.exitDoze →
    exec .dozeExit s = .next ({ t with power := { t.power with resetAfterWake := false } }))

/-- A row reads clean at syndrome 0, corrected at the column of one bit, else uncorrectable; one flipped bit is corrected, two are detected -/
def Obligations.WordCodeCorrectsOneAndDetectsTwo : Prop :=
  (∀ (r : BitVec 72) (d : DWord) (syn : BitVec 8), d = r.setWidth 64 → syn = (r >>> 64).setWidth 8 ^^^ checkByte d →
    (syn = 0 → decodeRow r = .clean d) ∧
    (∀ i < 72, columns[i]? = some syn.toNat →
      decodeRow r = .corrected (if i < 64 then d ^^^ BitVec.ofNat 64 (2 ^ i) else d)) ∧
    (syn ≠ 0 → syn.toNat ∉ columns → decodeRow r = .uncorrectable d) ∧
    (syn ≠ 0 → weight syn.toNat 8 % 2 = 0 → decodeRow r = .uncorrectable d)) ∧
  (∀ d : DWord, decodeRow (encodeRow d) = .clean d) ∧
  (∀ (d : DWord) (i : Nat), i < 72 → decodeRow (encodeRow d ^^^ BitVec.ofNat 72 (2 ^ i)) = .corrected d) ∧
  (∀ (d : DWord) (i j : Nat), i < j → j < 72 →
    (decodeRow (encodeRow d ^^^ BitVec.ofNat 72 (2 ^ i) ^^^ BitVec.ofNat 72 (2 ^ j))).bad = true)

/-- A whole write of a word in a sound page stores it and leaves every other word, the poison and the registers alone -/
def Obligations.BankWriteChangesItsWordOnly : Prop :=
  ∀ (who : Requester) (n : Fin 128) (w : BitVec 16) (data : BitVec 64) (s t : State),
    s.bankCheck who.owner n = .ok → (∀ g, s.slice g = none) →
    (∀ c ∈ pageCells (w.toNat / 512), ∃ d, s.wordAt n c = .clean d) →
    (∀ c ∈ dataCells (w.toNat / 512), s.poisoned n c = false) →
    exec (.bankWrite who n w data true) s = .next t →
    t.wordAt n w.toNat = .clean data ∧
    (∀ m c, m < 128 → c < 66560 → (m = n.val → c ≠ w.toNat ∧ c ∉ parityCells (w.toNat / 512)) →
      t.wordAt m c = s.wordAt m c) ∧
    t.banks.poison = s.banks.poison ∧ t.regs = s.regs

/-- A page program and a block erase change the words and kinds of that page, or that physical block, and no others -/
def Obligations.SlateProgramsAndErasesChangeTheirOwnPages : Prop :=
  (∀ (s : State) (l page : Nat) (ws : List DWord), page < 64 → ws.length = 512 →
    let p := 64 * s.physOf l + page
    let t := s.programPage l page ws
    (∀ i < 512, SMap.look (BitVec.allOnes 64) t.slate.word (512 * p + i) = ws.getD i 0) ∧
    SMap.look .erased t.slate.page p = .programmed ∧
    (∀ k, k < 512 * p ∨ 512 * p + 512 ≤ k →
      SMap.look (BitVec.allOnes 64) t.slate.word k = SMap.look (BitVec.allOnes 64) s.slate.word k) ∧
    (∀ k, k ≠ p → SMap.look .erased t.slate.page k = SMap.look .erased s.slate.page k) ∧ t.regs = s.regs) ∧
  (∀ (s : State) (p : Nat),
    let t := s.erasePhys p
    (∀ k, 32768 * p ≤ k → k < 32768 * p + 32768 → SMap.look (BitVec.allOnes 64) t.slate.word k = BitVec.allOnes 64) ∧
    (∀ k, 64 * p ≤ k → k < 64 * p + 64 → SMap.look .erased t.slate.page k = .erased) ∧
    (∀ k, k < 32768 * p ∨ 32768 * p + 32768 ≤ k →
      SMap.look (BitVec.allOnes 64) t.slate.word k = SMap.look (BitVec.allOnes 64) s.slate.word k) ∧
    (∀ k, k < 64 * p ∨ 64 * p + 64 ≤ k → SMap.look .erased t.slate.page k = SMap.look .erased s.slate.page k) ∧
    t.blockErases p = min (s.blockErases p + 1) 0xFFFF_FFFF ∧
    (∀ k, k ≠ p → t.blockErases k = s.blockErases k) ∧ t.regs = s.regs)

/-- From SAFE a step leads only to SAFE, HOLDUP or OFF; from HOLDUP only to HOLDUP or OFF, whatever the command -/
def Obligations.SafeIsLeftOnlyThroughOff : Prop :=
  ∀ (s t : State), Steps s t →
    (s.mode = .safe → t.mode = .safe ∨ t.mode = .holdup ∨ t.mode = .off) ∧
    (s.mode = .holdup → t.mode = .holdup ∨ t.mode = .off)

/-- Every step keeps the canonical form of the register fields, bank rows, poison, Slate words and pages, and mailbox rings -/
def Obligations.MemoriesKeepTheirForm : Prop :=
  Invariant MemoryForm
end

