-- ==== Sys2Proof/Laws/Access.lean ====
section
/-! SUPPORT. What an accepted register write and a running command are: the two doors through which most commands act. -/

namespace Sys2Proof.Machine

set_option Elab.async false

/-- A write that starts no clearing has its answer at once. -/
theorem clearAsked_none (r : Reg) (i : Nat) (high : Bool) (ask : Ask) (x : Resp) (hr : r ≠ .MBX_CTL) :
    clearAsked (some (.reg r i high)) ask x = none := by
  unfold clearAsked
  split
  · rename_i _ heq
    exact absurd (by injection heq with h; injection h) hr
  · rfl

/-- SAFE bars no write to an open register. -/
theorem RegisterOpen.not_barred {s : State} {who : Requester} {r : Reg} (h : RegisterOpen s who r) (i : Nat) (high : Bool) :
    s.safeBars (.reg r i high) = false := by
  unfold State.safeBars
  by_cases hs : s.mode = .safe
  · rcases h.safe hs with h | h <;> simp [h]
  · simp [hs]

/-- A write that the port issues reaches the control register space. -/
theorem WriteIssues.reaches {s : State} {who : Requester} (h : WriteIssues s who) (hp : s.mode ≠ .off) :
    (s.mode == .off || (who == .jtag && !s.jtagIssues)) = false ∧ ∀ off p w v,
      s.controlBy who off p w (.write v) = s.controlAt who.port who.owner off p w (.write v) := by
  have hr : (lcProvisioned == lcReturned) = false := by decide
  cases who <;> simp_all [WriteIssues, State.controlBy, State.jtagIssues]

/-- A read that the port issues reaches the control register space. -/
theorem ReadIssues.reaches {s : State} {who : Requester} (h : ReadIssues s who) (hp : s.mode ≠ .off) :
    (s.mode == .off || (who == .jtag && !s.jtagIssues)) = false ∧ ∀ off p w,
      s.controlBy who off p w .read = s.controlAt who.port who.owner off p w .read := by
  cases who <;> simp_all [ReadIssues, State.controlBy]

/-- A write that its register takes is answered OK, and nothing else happens. -/
theorem accessAt_took (s t : State) (who : Requester) (off : Nat) (r : Reg) (i v : Nat) (h : RegisterOpen s who r)
    (hr : r ≠ .MBX_CTL) (hw : s.writeReg r i false false who.owner v = .took t) :
    s.accessAt who off (some (.reg r i false)) .w32 (.write v) = t.acked := by
  have he : (Width.w32 == Width.w64) = false := rfl
  have hc : s.controlAt who.port who.owner off (some (.reg r i false)) .w32 (.write v) = (t, .ok, 0) := by
    simp [State.controlAt, State.writeChecked, Width.fits, State.writeAt, he, hw, h.not_barred, State.finishWrite]
  obtain ⟨ho, hb⟩ := h.issues.reaches h.powered
  simp [State.accessAt, ho, hb, hc, clearAsked_none r i false _ _ hr, State.acked]

/-- A write by one who does not own the register is answered NOTOWN, and nothing else happens. -/
theorem accessAt_notOwner (s : State) (who : Requester) (off : Nat) (r : Reg) (i v : Nat) (h : s.mode ≠ .off)
    (hj : WriteIssues s who) (hr : r ≠ .MBX_CTL) (hw : s.writeReg r i false false who.owner v = .notOwner s) :
    s.accessAt who off (some (.reg r i false)) .w32 (.write v) = { s with answer := some { codes := [.notown], words := [] } } := by
  have he : (Width.w32 == Width.w64) = false := rfl
  have hc : s.controlAt who.port who.owner off (some (.reg r i false)) .w32 (.write v) = (s, .notown, 0) := by
    simp [State.controlAt, State.writeChecked, Width.fits, State.writeAt, he, hw]
  obtain ⟨ho, hb⟩ := hj.reaches h
  simp [State.accessAt, ho, hb, hc, clearAsked_none r i false _ _ hr]

/-- A write that the register rejects is answered DECERR and captured. -/
theorem accessAt_rejected (s : State) (who : Requester) (off : Nat) (r : Reg) (i v : Nat) (h : s.mode ≠ .off)
    (hj : WriteIssues s who) (hr : r ≠ .MBX_CTL) (hw : s.writeReg r i false false who.owner v = .rejected s) :
    s.accessAt who off (some (.reg r i false)) .w32 (.write v) =
      { s.captureDecerr who.owner (0x3_0000_0000 + off) true true with answer := some { codes := [.decerr], words := [] } } := by
  have he : (Width.w32 == Width.w64) = false := rfl
  have hc : s.controlAt who.port who.owner off (some (.reg r i false)) .w32 (.write v) =
      (s.captureDecerr who.owner (0x3_0000_0000 + off) true true, .decerr, 0) := by
    simp [State.controlAt, State.writeChecked, Width.fits, State.writeAt, he, hw, State.finishWrite]
  obtain ⟨ho, hb⟩ := hj.reaches h
  simp [State.accessAt, ho, hb, hc, clearAsked_none r i false _ _ hr]

/-- A 32-bit REGISTER_WRITE at an aligned offset of a register is an access to that register. -/
theorem registerWrite_at (s : State) (who : Requester) (off : BitVec 24) (data : BitVec 64) (r : Reg) (i : Nat)
    (ha : off.toNat % 4 = 0) (hl : locate off.toNat = some (.reg r i false)) :
    execRegisterWrite who off false data s =
      .next (s.accessAt who off.toNat (some (.reg r i false)) .w32 (.write (data.toNat % 2 ^ 32))) := by
  simp [execRegisterWrite, State.access, widthAt, ha, hl]

/-- A write that its register takes, made at the register's own address. -/
theorem writeAs_took (s t : State) (who : Requester) (r : Reg) (i : Nat) (v : Word) (h : RegisterOpen s who r)
    (hr : r ≠ .MBX_CTL) (hw : s.writeReg r i false false who.owner v.toNat = .took t) :
    s.writeAs who r i v = t.acked := accessAt_took s t who _ r i _ h hr hw

/-- A command that runs acts as its row says. -/
theorem command_runs (s : State) (m op : Nat) (p : Packet) (f : Packet → State) (h : CommandRuns s m op p) :
    s.command m op f = f p := by
  have hp : (s.get .DEV_MODE_PHASE == 1) = false := by simpa using h.phase
  have ho : s.power.orderly.any (·.committed) = false := h.uncommitted
  unfold State.command
  rw [h.running]
  simp only [h.opcode, h.fresh, h.awake, ho, hp]
  rcases h.mode with hm | hm | ⟨hm, hs⟩ <;> simp_all

/-- A journal record that can be written is committed and answered OK. -/
theorem replyJournal_takes (s u : State) (m id : Nat) (value : List Byte) (fails0 fails1 : Nat)
    (h : JournalTakes s id value fails0 fails1 u) :
    s.replyJournal m id value fails0 fails1 = (u.commitOwner 0x01 fails0 fails1).reply m St.ok := by
  simp [State.replyJournal, State.journalRecord, h.sound, h.room, h.ready, h.free, h.staged, h.energy]

/-- A write to a request ring entry that is the host's is stored and answered OK. -/
theorem requestWrite_took (s : State) (who : Requester) (m w off : Nat) (v : Nat) (hp : s.mode ≠ .off)
    (hj : WriteIssues s who) (hu : mayUseMail m who.owner = true) (hc : s.clearingMail m = false)
    (he : ¬(w / 16 + 65536 - s.get .MBX_REQ_HEAD_HEAD m) % 256 < s.occupancy m) :
    s.accessAt who off (some (.request m w)) .w32 (.write v) = ({ s with mail := { s.mail with
      request := SMap.put (0 : Word) s.mail.request (4096 * m + w) (BitVec.ofNat 32 v) } } : State).acked := by
  obtain ⟨ho, hi⟩ := hj.reaches hp
  have hb : s.safeBars (.request m w) = false := by simp [State.safeBars]
  simp [State.accessAt, ho, hi, State.controlAt, State.writeChecked, Width.fits, State.writeAt, State.writeRequest, hu, hc, he,
    hb, State.finishWrite, clearAsked, State.acked]

end Sys2Proof.Machine
end

