-- ==== Sys2Proof/Laws/KeepsBase.lean ====
section
/-! SUPPORT. What an operation leaves alone: the queue of waiting commands and the fuses. The lemmas `<operation>_keeps`
of the Keeps files say so once for each operation, `exec<Command>_keeps` for each command's meaning; an operation or a
meaning that writes fuses has the queue's half only. -/

namespace Sys2Proof.Machine

set_option Elab.async false

/-- A next state keeps the queue and the fuses of `s`. -/
def OutKeeps (s : State) : Out → Prop
  | .next t => t.pending = s.pending ∧ t.fuses = s.fuses
  | _ => True

/-- A next state keeps the queue of `s`. -/
def OutQueue (s : State) : Out → Prop
  | .next t => t.pending = s.pending
  | _ => True

/-- A register write's state keeps the queue and the fuses of `s`. -/
def WroteKeeps (s : State) : Wrote → Prop
  | .took t => t.pending = s.pending ∧ t.fuses = s.fuses
  | .notOwner t => t.pending = s.pending ∧ t.fuses = s.fuses
  | .rejected t => t.pending = s.pending ∧ t.fuses = s.fuses
  | .dark => True

@[simp] theorem outKeeps_next (s t : State) :
    OutKeeps s (.next t) ↔ t.pending = s.pending ∧ t.fuses = s.fuses := Iff.rfl
@[simp] theorem outKeeps_fault (s : State) (f : Fault) : OutKeeps s (.fault f) := trivial
@[simp] theorem outKeeps_refused (s : State) (f : Refusal) : OutKeeps s (.refused f) := trivial
@[simp] theorem outQueue_next (s t : State) : OutQueue s (.next t) ↔ t.pending = s.pending := Iff.rfl
@[simp] theorem outQueue_fault (s : State) (f : Fault) : OutQueue s (.fault f) := trivial
@[simp] theorem wroteKeeps_took (s t : State) :
    WroteKeeps s (.took t) ↔ t.pending = s.pending ∧ t.fuses = s.fuses := Iff.rfl
@[simp] theorem wroteKeeps_notOwner (s t : State) :
    WroteKeeps s (.notOwner t) ↔ t.pending = s.pending ∧ t.fuses = s.fuses := Iff.rfl
@[simp] theorem wroteKeeps_rejected (s t : State) :
    WroteKeeps s (.rejected t) ↔ t.pending = s.pending ∧ t.fuses = s.fuses := Iff.rfl
@[simp] theorem wroteKeeps_dark (s : State) : WroteKeeps s .dark := trivial

@[simp] theorem pending_ite (c : Prop) [Decidable c] (a b : State) :
    (if c then a else b).pending = if c then a.pending else b.pending := by split <;> rfl

@[simp] theorem fuses_ite (c : Prop) [Decidable c] (a b : State) :
    (if c then a else b).fuses = if c then a.fuses else b.fuses := by split <;> rfl

@[simp] theorem foldl_keeps {α : Type} (l : List α) (f : State → α → State) (s : State)
    (h : ∀ t x, (f t x).pending = t.pending ∧ (f t x).fuses = t.fuses) :
    (l.foldl f s).pending = s.pending ∧ (l.foldl f s).fuses = s.fuses := by
  induction l generalizing s with
  | nil => exact ⟨rfl, rfl⟩
  | cons x l ih => exact ⟨(ih _).1.trans (h s x).1, (ih _).2.trans (h s x).2⟩

theorem pair_fst {β : Type} {p : State × β} {t : State} {o : β} (h : p = (t, o)) : t = p.1 := by rw [h]

@[simp] theorem foldl_fst_keeps {α β : Type} (l : List α) (f : State × β → α → State × β) (a : State × β)
    (h : ∀ t x, (f t x).1.pending = t.1.pending ∧ (f t x).1.fuses = t.1.fuses) :
    (l.foldl f a).1.pending = a.1.pending ∧ (l.foldl f a).1.fuses = a.1.fuses := by
  induction l generalizing a with
  | nil => exact ⟨rfl, rfl⟩
  | cons x l ih => exact ⟨(ih _).1.trans (h a x).1, (ih _).2.trans (h a x).2⟩

theorem foldl_ite_keeps {α : Type} (l : List α) (c : State → α → Bool) (f : State → α → State) (s : State)
    (h : ∀ t x, (f t x).pending = t.pending ∧ (f t x).fuses = t.fuses) :
    (l.foldl (fun s w => if c s w then f s w else s) s).pending = s.pending ∧
      (l.foldl (fun s w => if c s w then f s w else s) s).fuses = s.fuses :=
  foldl_keeps _ _ _ fun t x => by split <;> simp [h]

end Sys2Proof.Machine
end

