-- ==== Sys2Proof/Laws/KeepsPlumbing.lean ====
section
/-! SUPPORT. What each operation keeps (KeepsBase): the register file, the fabric's and spine's tables, mailboxes, clocks, key table and DMA rings. -/

namespace Sys2Proof.Machine

set_option Elab.async false

@[simp] theorem put_keeps (s : State) (f : Fld) (v : Nat) (i : optParam Nat 0) :
    (State.put s f v i).pending = s.pending ∧ (State.put s f v i).fuses = s.fuses := by
  unfold State.put
  simp

@[simp] theorem putFlag_keeps (s : State) (f : Fld) (b : Bool) (i : optParam Nat 0) :
    (State.putFlag s f b i).pending = s.pending ∧ (State.putFlag s f b i).fuses = s.fuses := by
  unfold State.putFlag
  simp

@[simp] theorem bump_keeps (s : State) (f : Fld) (i : optParam Nat 0) (step : optParam Nat 1) :
    (State.bump s f i step).pending = s.pending ∧ (State.bump s f i step).fuses = s.fuses := by
  unfold State.bump
  simp

@[simp] theorem logEvent_keeps (s : State) (code : Nat) (arg0 : optParam Nat 0) (arg1 : optParam Nat 0)
    (owner : optParam Nat 0) (flags : optParam Nat 0) :
    (State.logEvent s code arg0 arg1 owner flags).pending = s.pending ∧
      (State.logEvent s code arg0 arg1 owner flags).fuses = s.fuses := by
  unfold State.logEvent
  simp

@[simp] theorem spend_keeps (s : State) :
    (State.spend s).pending = s.pending ∧ (State.spend s).fuses = s.fuses := by
  unfold State.spend
  simp

@[simp] theorem forEach_keeps (s : State) (is : List Nat) (f : State → Nat → State) (h : ∀ t x, (f t x).pending = t.pending ∧
    (f t x).fuses = t.fuses) :
    (State.forEach s is f).pending = s.pending ∧ (State.forEach s is f).fuses = s.fuses := by
  unfold State.forEach
  exact foldl_keeps _ _ _ h

@[simp] theorem stamp_keeps (s : State) (f : Fld) (i : optParam Nat 0) :
    (State.stamp s f i).pending = s.pending ∧ (State.stamp s f i).fuses = s.fuses := by
  unfold State.stamp
  simp

@[simp] theorem releaseOp_keeps (s : State) (c : Nat) (what : Nat) :
    (State.releaseOp s c what).pending = s.pending ∧ (State.releaseOp s c what).fuses = s.fuses := by
  unfold State.releaseOp
  simp

@[simp] theorem recordRefusal_keeps (s : State) (request : Nat) (reason : Nat) (refuser : Nat) (index : Nat)
    (abort : optParam Bool false) :
    (State.recordRefusal s request reason refuser index abort).pending = s.pending ∧
      (State.recordRefusal s request reason refuser index abort).fuses = s.fuses := by
  unfold State.recordRefusal
  simp

@[simp] theorem putBit_keeps (s : State) (f : Fld) (n : Nat) (b : Bool) (i : optParam Nat 0) :
    (State.putBit s f n b i).pending = s.pending ∧ (State.putBit s f n b i).fuses = s.fuses := by
  unfold State.putBit
  simp

@[simp] theorem countDark_keeps (s : State) :
    (State.countDark s).pending = s.pending ∧ (State.countDark s).fuses = s.fuses := by
  unfold State.countDark
  simp

@[simp] theorem refuseEnergy_keeps (s : State) (c : Nat) :
    (State.refuseEnergy s c).pending = s.pending ∧ (State.refuseEnergy s c).fuses = s.fuses := by
  unfold State.refuseEnergy
  simp

@[simp] theorem admitOp_keeps (s : State) (c : Nat) (what : Nat) :
    (State.admitOp s c what).pending = s.pending ∧ (State.admitOp s c what).fuses = s.fuses := by
  unfold State.admitOp
  simp

@[simp] theorem captureDecerr_keeps (s : State) (owner : Nat) (addr : Nat) (write : Bool) (cause : Bool) :
    (State.captureDecerr s owner addr write cause).pending = s.pending ∧
      (State.captureDecerr s owner addr write cause).fuses = s.fuses := by
  unfold State.captureDecerr
  simp

@[simp] theorem wake_keeps (s : State) (source : Nat) (index : Nat) :
    (State.wake s source index).pending = s.pending ∧ (State.wake s source index).fuses = s.fuses := by
  unfold State.wake
  simp

@[simp] theorem logDiag_keeps (s : State) (diag : Nat) (detail : Nat) (value : Option Nat) (owner : Nat) (flags : Nat) :
    (State.logDiag s diag detail value owner flags).pending = s.pending ∧
      (State.logDiag s diag detail value owner flags).fuses = s.fuses := by
  unfold State.logDiag
  try dsimp only
  (repeat' split) <;> simp

@[simp] theorem countDirect_keeps (s : State) (beats : Nat) (c : Resp) :
    (State.countDirect s beats c).pending = s.pending ∧ (State.countDirect s beats c).fuses = s.fuses := by
  unfold State.countDirect
  simp

@[simp] theorem setMode_keeps (s : State) (m : Mode) :
    (State.setMode s m).pending = s.pending ∧ (State.setMode s m).fuses = s.fuses := by
  unfold State.setMode
  simp

@[simp] theorem resetRegs_keeps (s : State) (rs : List Fld) (i : optParam Nat 0) :
    (State.resetRegs s rs i).pending = s.pending ∧ (State.resetRegs s rs i).fuses = s.fuses := by
  unfold State.resetRegs
  simp

@[simp] theorem putFlop_keeps (s : State) (k : Nat) (v : Bool) :
    (State.putFlop s k v).pending = s.pending ∧ (State.putFlop s k v).fuses = s.fuses := by
  unfold State.putFlop
  simp

@[simp] theorem leEdge_keeps (s : State) (e : LeEdge) :
    (State.leEdge s e).pending = s.pending ∧ (State.leEdge s e).fuses = s.fuses := by
  unfold State.leEdge
  simp

@[simp] theorem putCells_keeps (s : State) (f : Nat) (v : BitVec 10240) :
    (State.putCells s f v).pending = s.pending ∧ (State.putCells s f v).fuses = s.fuses := by
  unfold State.putCells
  simp

@[simp] theorem putRamCell_keeps (s : State) (f : Nat) (b : Nat) (v : Bool) :
    (State.putRamCell s f b v).pending = s.pending ∧ (State.putRamCell s f b v).fuses = s.fuses := by
  unfold State.putRamCell
  simp

@[simp] theorem putRamWord_keeps (s : State) (f : Nat) (width : Nat) (w : Nat) (lanes : BitVec 8) (v : Nat) :
    (State.putRamWord s f width w lanes v).pending = s.pending ∧
      (State.putRamWord s f width w lanes v).fuses = s.fuses := by
  unfold State.putRamWord
  simp

@[simp] theorem ramWrite_keeps (s : State) (f : Nat) (c : RamConfig) (width : Nat) (w : Nat) (lanes : BitVec 8) (v : Nat) :
    (State.ramWrite s f c width w lanes v).pending = s.pending ∧
      (State.ramWrite s f c width w lanes v).fuses = s.fuses := by
  unfold State.ramWrite
  simp

@[simp] theorem putRamState_keeps (s : State) (f : Nat) (r : RamState) :
    (State.putRamState s f r).pending = s.pending ∧ (State.putRamState s f r).fuses = s.fuses := by
  unfold State.putRamState
  simp

@[simp] theorem ramFifo_keeps (s : State) (f : Nat) (c : RamConfig) (e : RamEdge) :
    (State.ramFifo s f c e).pending = s.pending ∧ (State.ramFifo s f c e).fuses = s.fuses := by
  unfold State.ramFifo
  simp

@[simp] theorem ramPorts_keeps (s : State) (f : Nat) (c : RamConfig) (e : RamEdge) :
    (State.ramPorts s f c e).pending = s.pending ∧ (State.ramPorts s f c e).fuses = s.fuses := by
  unfold State.ramPorts
  simp

@[simp] theorem ramEdge_keeps (s : State) (e : RamEdge) :
    (State.ramEdge s e).pending = s.pending ∧ (State.ramEdge s e).fuses = s.fuses := by
  unfold State.ramEdge
  simp

@[simp] theorem macEdge_keeps (s : State) (e : MacEdge) :
    (State.macEdge s e).pending = s.pending ∧ (State.macEdge s e).fuses = s.fuses := by
  unfold State.macEdge
  simp

@[simp] theorem initFlops_keeps (s : State) (k : Nat) :
    (State.initFlops s k).pending = s.pending ∧ (State.initFlops s k).fuses = s.fuses := by
  unfold State.initFlops
  simp

@[simp] theorem answerTxn_keeps (s : State) (t : Txn) (bs : List BeatOut) :
    (State.answerTxn s t bs).pending = s.pending ∧ (State.answerTxn s t bs).fuses = s.fuses := by
  unfold State.answerTxn
  simp

@[simp] theorem answerDark_keeps (s : State) (t : Txn) :
    (State.answerDark s t).pending = s.pending ∧ (State.answerDark s t).fuses = s.fuses := by
  unfold State.answerDark
  simp

@[simp] theorem takeTxn_keeps (s : State) (t : Txn) :
    (State.takeTxn s t).pending = s.pending ∧ (State.takeTxn s t).fuses = s.fuses := by
  unfold State.takeTxn
  simp

@[simp] theorem enqueue_keeps (s : State) (src : Nat) (owner : Nat) (kind : TxnKind) (addr : Nat) (beats : List BeatIn)
    (user : Consumer) :
    (State.enqueue s src owner kind addr beats user).pending = s.pending ∧
      (State.enqueue s src owner kind addr beats user).fuses = s.fuses := by
  unfold State.enqueue
  simp

@[simp] theorem noteGrant_keeps (s : State) (arb : Nat) (input : Nat) (others : List Nat) :
    (State.noteGrant s arb input others).pending = s.pending ∧
      (State.noteGrant s arb input others).fuses = s.fuses := by
  unfold State.noteGrant
  simp

theorem linkGrant_keeps {s t : State} {plane : Bool} {xs : List OnLink} {y : OnLink}
    (h : s.linkGrant plane xs = some (t, y)) : t.pending = s.pending ∧ t.fuses = s.fuses := by
  unfold State.linkGrant at h
  dsimp only at h
  (repeat' split at h) <;> cases h
  simp

@[simp] theorem moveRequests_keeps (x0 : Nat) (x1 : State) :
    (State.moveRequests x0 x1).pending = x1.pending ∧ (State.moveRequests x0 x1).fuses = x1.fuses := by
  induction x0 generalizing x1 with
  | zero => unfold State.moveRequests; simp
  | succ n ih =>
    unfold State.moveRequests
    dsimp only
    split
    · simp
    · rename_i h
      exact ⟨(ih _).1.trans (linkGrant_keeps h :).1, (ih _).2.trans (linkGrant_keeps h :).2⟩

@[simp] theorem flowRequests_keeps (s : State) :
    (State.flowRequests s).pending = s.pending ∧ (State.flowRequests s).fuses = s.fuses := by
  unfold State.flowRequests
  simp

@[simp] theorem moveResponses_keeps (x0 : Nat) (x1 : State) :
    (State.moveResponses x0 x1).pending = x1.pending ∧ (State.moveResponses x0 x1).fuses = x1.fuses := by
  induction x0 generalizing x1 with
  | zero => unfold State.moveResponses; simp
  | succ n ih =>
    unfold State.moveResponses
    dsimp only
    split
    · simp
    · rename_i h
      exact ⟨(ih _).1.trans (linkGrant_keeps h :).1, (ih _).2.trans (linkGrant_keeps h :).2⟩

@[simp] theorem flowResponses_keeps (s : State) :
    (State.flowResponses s).pending = s.pending ∧ (State.flowResponses s).fuses = s.fuses := by
  unfold State.flowResponses
  simp

@[simp] theorem putFio_keeps (s : State) (n : Nat) (p : FioPin) :
    (State.putFio s n p).pending = s.pending ∧ (State.putFio s n p).fuses = s.fuses := by
  unfold State.putFio
  simp

@[simp] theorem showFio_keeps (s : State) (n : Nat) :
    (State.showFio s n).pending = s.pending ∧ (State.showFio s n).fuses = s.fuses := by
  unfold State.showFio
  simp

@[simp] theorem showPins_keeps (s : State) (k : Nat) :
    (State.showPins s k).pending = s.pending ∧ (State.showPins s k).fuses = s.fuses := by
  unfold State.showPins
  try dsimp only
  (repeat' split) <;> simp

@[simp] theorem putFence_keeps (s : State) (k : Nat) (f : Fences) :
    (State.putFence s k f).pending = s.pending ∧ (State.putFence s k f).fuses = s.fuses := by
  unfold State.putFence
  simp

@[simp] theorem putGio_keeps (s : State) (n : Nat) (p : GioPin) :
    (State.putGio s n p).pending = s.pending ∧ (State.putGio s n p).fuses = s.fuses := by
  unfold State.putGio
  simp

@[simp] theorem capturePins_keeps (s : State) (k : Nat) :
    (State.capturePins s k).pending = s.pending ∧ (State.capturePins s k).fuses = s.fuses := by
  unfold State.capturePins
  try dsimp only
  (repeat' split) <;> simp

@[simp] theorem discardRequests_keeps (s : State) (k : Nat) :
    (State.discardRequests s k).pending = s.pending ∧ (State.discardRequests s k).fuses = s.fuses := by
  unfold State.discardRequests
  simp

@[simp] theorem darkInFlight_keeps (s : State) (k : Nat) :
    (State.darkInFlight s k).pending = s.pending ∧ (State.darkInFlight s k).fuses = s.fuses := by
  unfold State.darkInFlight
  simp

@[simp] theorem putPort_keeps (s : State) (p : Nat) (v : RegionPort) :
    (State.putPort s p v).pending = s.pending ∧ (State.putPort s p v).fuses = s.fuses := by
  unfold State.putPort
  simp

@[simp] theorem discardFifo_keeps (s : State) (p : Nat) :
    (State.discardFifo s p).pending = s.pending ∧ (State.discardFifo s p).fuses = s.fuses := by
  unfold State.discardFifo
  simp

@[simp] theorem putChannel_keeps (s : State) (c : Nat) (o : Bool) :
    (State.putChannel s c o).pending = s.pending ∧ (State.putChannel s c o).fuses = s.fuses := by
  unfold State.putChannel
  simp

@[simp] theorem closeChannels_keeps (s : State) :
    (State.closeChannels s).pending = s.pending ∧ (State.closeChannels s).fuses = s.fuses := by
  unfold State.closeChannels
  simp

@[simp] theorem putLane_keeps (s : State) (l : Nat) (v : Lane) :
    (State.putLane s l v).pending = s.pending ∧ (State.putLane s l v).fuses = s.fuses := by
  unfold State.putLane
  simp

@[simp] theorem abortScan_keeps (s : State) (l : Nat) :
    (State.abortScan s l).pending = s.pending ∧ (State.abortScan s l).fuses = s.fuses := by
  unfold State.abortScan
  simp

@[simp] theorem idleLanes_keeps (s : State) (k : Nat) :
    (State.idleLanes s k).pending = s.pending ∧ (State.idleLanes s k).fuses = s.fuses := by
  unfold State.idleLanes
  simp

@[simp] theorem fenceEffects_keeps (s : State) (k : Nat) :
    (State.fenceEffects s k).pending = s.pending ∧ (State.fenceEffects s k).fuses = s.fuses := by
  unfold State.fenceEffects
  simp

@[simp] theorem addFence_keeps (s : State) (k : Nat) (f : Fences → Fences) :
    (State.addFence s k f).pending = s.pending ∧ (State.addFence s k f).fuses = s.fuses := by
  unfold State.addFence
  simp

@[simp] theorem fenceByPll_keeps (s : State) (j : Nat) :
    (State.fenceByPll s j).pending = s.pending ∧ (State.fenceByPll s j).fuses = s.fuses := by
  unfold State.fenceByPll
  simp

@[simp] theorem fenceAll_keeps (s : State) (f : Fences → Fences) :
    (State.fenceAll s f).pending = s.pending ∧ (State.fenceAll s f).fuses = s.fuses := by
  unfold State.fenceAll
  simp

@[simp] theorem showAllPins_keeps (s : State) :
    (State.showAllPins s).pending = s.pending ∧ (State.showAllPins s).fuses = s.fuses := by
  unfold State.showAllPins
  simp

@[simp] theorem resumeLanes_keeps (s : State) (k : Nat) :
    (State.resumeLanes s k).pending = s.pending ∧ (State.resumeLanes s k).fuses = s.fuses := by
  unfold State.resumeLanes
  simp

@[simp] theorem resyncPorts_keeps (s : State) (k : Nat) :
    (State.resyncPorts s k).pending = s.pending ∧ (State.resyncPorts s k).fuses = s.fuses := by
  unfold State.resyncPorts
  simp

@[simp] theorem clearFence_keeps (s : State) (k : Nat) (f : Fences → Fences) :
    (State.clearFence s k f).pending = s.pending ∧ (State.clearFence s k f).fuses = s.fuses := by
  unfold State.clearFence
  simp

@[simp] theorem unfenceByPll_keeps (s : State) (j : Nat) :
    (State.unfenceByPll s j).pending = s.pending ∧ (State.unfenceByPll s j).fuses = s.fuses := by
  unfold State.unfenceByPll
  simp

@[simp] theorem setRunning_keeps (s : State) (m : Nat) (p : Option Packet) :
    (State.setRunning s m p).pending = s.pending ∧ (State.setRunning s m p).fuses = s.fuses := by
  unfold State.setRunning
  simp

@[simp] theorem putReply_keeps (s : State) (m : Nat) (at0 : Nat) (ws : List Word) :
    (State.putReply s m at0 ws).pending = s.pending ∧ (State.putReply s m at0 ws).fuses = s.fuses := by
  unfold State.putReply
  simp

@[simp] theorem sendMsix_keeps (s : State) (k : Nat) (v : Nat) :
    (State.sendMsix s k v).pending = s.pending ∧ (State.sendMsix s k v).fuses = s.fuses := by
  unfold State.sendMsix
  simp

@[simp] theorem replyTo_keeps (s : State) (m : Nat) (p : Packet) (status : Nat) (results : List Word) :
    (State.replyTo s m p status results).pending = s.pending ∧
      (State.replyTo s m p status results).fuses = s.fuses := by
  unfold State.replyTo
  simp

@[simp] theorem reply_keeps (s : State) (m : Nat) (status : Nat) (results : optParam (List Word) []) :
    (State.reply s m status results).pending = s.pending ∧ (State.reply s m status results).fuses = s.fuses := by
  unfold State.reply
  try dsimp only
  (repeat' split) <;> simp

@[simp] theorem replyEnergyRefused_keeps (s : State) (m : Nat) (c : Nat) :
    (State.replyEnergyRefused s m c).pending = s.pending ∧ (State.replyEnergyRefused s m c).fuses = s.fuses := by
  unfold State.replyEnergyRefused
  simp

@[simp] theorem replyRefusal_keeps (s : State) (m : Nat) (request : Nat) (reason : Nat) (refuser : Nat) (index : Nat) :
    (State.replyRefusal s m request reason refuser index).pending = s.pending ∧
      (State.replyRefusal s m request reason refuser index).fuses = s.fuses := by
  unfold State.replyRefusal
  simp

@[simp] theorem await_keeps (s : State) (m : Nat) (p : Packet) (w : Wait) :
    (State.await s m p w).pending = s.pending ∧ (State.await s m p w).fuses = s.fuses := by
  unfold State.await
  simp

@[simp] theorem replyWaiting_keeps (s : State) (w : Wait) (status : Nat) (results : State → Packet → List Word) :
    (State.replyWaiting s w status results).pending = s.pending ∧
      (State.replyWaiting s w status results).fuses = s.fuses := by
  unfold State.replyWaiting
  try dsimp only
  simp (disch := (intros; (try dsimp only); (repeat' split) <;> (try (have e := pair_fst ‹_ = (_, _)›; subst e)) <;> simp; done))

@[simp] theorem putMsixWord_keeps (s : State) (k : Nat) (w : Nat) (v : Word) :
    (State.putMsixWord s k w v).pending = s.pending ∧ (State.putMsixWord s k w v).fuses = s.fuses := by
  unfold State.putMsixWord
  simp

@[simp] theorem command_keeps (s : State) (m : Nat) (opcode : Nat) (f : Packet → State) (h : ∀ p, (f p).pending = s.pending ∧
    (f p).fuses = s.fuses) :
    (State.command s m opcode f).pending = s.pending ∧ (State.command s m opcode f).fuses = s.fuses := by
  unfold State.command
  (repeat' split) <;> simp [h]

theorem command_out (s : State) (m op : Nat) (f : Packet → State)
    (h : ∀ p, (f p).pending = s.pending ∧ (f p).fuses = s.fuses) : OutKeeps s (.next (s.command m op f)) :=
  command_keeps s m op f h

theorem command_outq (s : State) (m op : Nat) (f : Packet → State)
    (h : ∀ p, (f p).pending = s.pending) : OutQueue s (.next (s.command m op f)) := by
  unfold OutQueue State.command
  dsimp only
  (repeat' split) <;> simp [h]

@[simp] theorem putPll_keeps (s : State) (k : Nat) (p : Pll) :
    (State.putPll s k p).pending = s.pending ∧ (State.putPll s k p).fuses = s.fuses := by
  unfold State.putPll
  simp

@[simp] theorem setBand_keeps (s : State) (k : Nat) (b : Nat) (v : Nat) :
    (State.setBand s k b v).pending = s.pending ∧ (State.setBand s k b v).fuses = s.fuses := by
  unfold State.setBand
  simp

@[simp] theorem powerPll_keeps (s : State) (k : Nat) (b : Bool) :
    (State.powerPll s k b).pending = s.pending ∧ (State.powerPll s k b).fuses = s.fuses := by
  unfold State.powerPll
  simp

@[simp] theorem gatePll_keeps (s : State) (k : Nat) (st : Nat) :
    (State.gatePll s k st).pending = s.pending ∧ (State.gatePll s k st).fuses = s.fuses := by
  unfold State.gatePll
  simp

@[simp] theorem acquirePll_keeps (s : State) (k : Nat) (window : Bool) :
    (State.acquirePll s k window).pending = s.pending ∧ (State.acquirePll s k window).fuses = s.fuses := by
  unfold State.acquirePll
  simp

@[simp] theorem restartMonitor_keeps (s : State) (k : Nat) :
    (State.restartMonitor s k).pending = s.pending ∧ (State.restartMonitor s k).fuses = s.fuses := by
  unfold State.restartMonitor
  simp

@[simp] theorem applyPll_keeps (s : State) (k : Nat) (c : PllSetting) (b : Nat) (v : Nat) :
    (State.applyPll s k c b v).pending = s.pending ∧ (State.applyPll s k c b v).fuses = s.fuses := by
  unfold State.applyPll
  simp

@[simp] theorem tryPll_keeps (s : State) (k : Nat) (c : PllSetting) :
    WroteKeeps s (State.tryPll s k c) := by
  unfold State.tryPll
  try dsimp only
  (repeat' split) <;> simp

@[simp] theorem writePllCfg_keeps (s : State) (k : Nat) (o : Nat) (v : Nat) :
    WroteKeeps s (State.writePllCfg s k o v) := by
  unfold State.writePllCfg
  dsimp only
  split
  · simp
  · split
    · split
      · simp
      · rename_i w _
        have h := tryPll_keeps ((s.put .PLL_CFG_M (bitsOf v 0 6) k).put .PLL_CFG_N (bitsOf v 8 10) k) k
          (((s.put .PLL_CFG_M (bitsOf v 0 6) k).put .PLL_CFG_N (bitsOf v 8 10) k).stagedPll k)
        revert h
        generalize State.tryPll _ _ _ = w
        cases w <;> simp
    · simp

@[simp] theorem writeAlarm_keeps (s : State) (a : Nat) (o : Nat) (v : Nat) :
    WroteKeeps s (State.writeAlarm s a o v) := by
  unfold State.writeAlarm
  try dsimp only
  (repeat' split) <;> simp

@[simp] theorem stopAllPlls_keeps (s : State) :
    (State.stopAllPlls s).pending = s.pending ∧ (State.stopAllPlls s).fuses = s.fuses := by
  unfold State.stopAllPlls
  simp

@[simp] theorem finishWrite_keeps (s : State) (owner : Nat) (addr : Nat) (x3 : Wrote) (h : WroteKeeps s x3) :
    (State.finishWrite s owner addr x3).1.pending = s.pending ∧
      (State.finishWrite s owner addr x3).1.fuses = s.fuses := by
  unfold State.finishWrite
  split <;> simp_all

@[simp] theorem enterDozeTime_keeps (s : State) :
    (State.enterDozeTime s).pending = s.pending ∧ (State.enterDozeTime s).fuses = s.fuses := by
  unfold State.enterDozeTime
  simp

@[simp] theorem stopPll_keeps (s : State) (k : Nat) :
    (State.stopPll s k).pending = s.pending ∧ (State.stopPll s k).fuses = s.fuses := by
  unfold State.stopPll
  simp

@[simp] theorem dozePlls_keeps (s : State) :
    (State.dozePlls s).pending = s.pending ∧ (State.dozePlls s).fuses = s.fuses := by
  unfold State.dozePlls
  simp

@[simp] theorem powerUpPll_keeps (s : State) (k : Nat) :
    (State.powerUpPll s k).pending = s.pending ∧ (State.powerUpPll s k).fuses = s.fuses := by
  unfold State.powerUpPll
  simp

@[simp] theorem startPll_keeps (s : State) (k : Nat) (c : PllSetting) :
    (State.startPll s k c).pending = s.pending ∧ (State.startPll s k c).fuses = s.fuses := by
  unfold State.startPll
  simp

@[simp] theorem stagePll_keeps (s : State) (k : Nat) (c : PllSetting) :
    (State.stagePll s k c).pending = s.pending ∧ (State.stagePll s k c).fuses = s.fuses := by
  unfold State.stagePll
  simp

@[simp] theorem startPlls_keeps (s : State) (set : List Byte) :
    (State.startPlls s set).pending = s.pending ∧ (State.startPlls s set).fuses = s.fuses := by
  unfold State.startPlls
  simp

@[simp] theorem setEpoch_keeps (s : State) (retained : Option Nat) (snapshot : Option Nat) (archive : Option Nat) :
    (State.setEpoch s retained snapshot archive).pending = s.pending ∧
      (State.setEpoch s retained snapshot archive).fuses = s.fuses := by
  unfold State.setEpoch
  simp

@[simp] theorem loadBands_keeps (s : State) (k : Nat) :
    (State.loadBands s k).pending = s.pending ∧ (State.loadBands s k).fuses = s.fuses := by
  unfold State.loadBands
  simp

@[simp] theorem dropAlarm_keeps (s : State) (a : Nat) :
    (State.dropAlarm s a).pending = s.pending ∧ (State.dropAlarm s a).fuses = s.fuses := by
  unfold State.dropAlarm
  simp

@[simp] theorem exitDozeTime_keeps (s : State) :
    (State.exitDozeTime s).pending = s.pending ∧ (State.exitDozeTime s).fuses = s.fuses := by
  unfold State.exitDozeTime
  simp

@[simp] theorem wakePlls_keeps (s : State) :
    (State.wakePlls s).pending = s.pending ∧ (State.wakePlls s).fuses = s.fuses := by
  unfold State.wakePlls
  simp

@[simp] theorem fireAlarm_keeps (s : State) (a : Nat) :
    (State.fireAlarm s a).pending = s.pending ∧ (State.fireAlarm s a).fuses = s.fuses := by
  unfold State.fireAlarm
  simp

@[simp] theorem tick_keeps (s : State) :
    (State.tick s).pending = s.pending ∧ (State.tick s).fuses = s.fuses := by
  unfold State.tick
  simp

@[simp] theorem regionPll_keeps (s : State) (k : Nat) :
    (State.regionPll s k).pending = s.pending ∧ (State.regionPll s k).fuses = s.fuses := by
  unfold State.regionPll
  try dsimp only
  (repeat' split) <;> simp

@[simp] theorem staleKeys_keeps (s : State) (x : Nat) (former : Nat) :
    (State.staleKeys s x former).pending = s.pending ∧ (State.staleKeys s x former).fuses = s.fuses := by
  unfold State.staleKeys
  simp

@[simp] theorem writeAttMap_keeps (s : State) (e : Nat) (o : Nat) (v : Nat) (wide : Bool) :
    WroteKeeps s (State.writeAttMap s e o v wide) := by
  unfold State.writeAttMap
  try dsimp only
  (repeat' split) <;> simp

@[simp] theorem zeroMap_keeps (s : State) (e : Nat) :
    (State.zeroMap s e).pending = s.pending ∧ (State.zeroMap s e).fuses = s.fuses := by
  unfold State.zeroMap
  simp

@[simp] theorem chargeEntry_keeps (s : State) (e : Nat) (family : Nat) :
    (State.chargeEntry s e family).pending = s.pending ∧ (State.chargeEntry s e family).fuses = s.fuses := by
  unfold State.chargeEntry
  simp

@[simp] theorem refundEntry_keeps (s : State) (e : Nat) :
    (State.refundEntry s e).pending = s.pending ∧ (State.refundEntry s e).fuses = s.fuses := by
  unfold State.refundEntry
  simp

@[simp] theorem freeEntry_keeps (s : State) (e : Nat) :
    (State.freeEntry s e).pending = s.pending ∧ (State.freeEntry s e).fuses = s.fuses := by
  unfold State.freeEntry
  simp

@[simp] theorem writeAttKey_keeps (s : State) (e : Nat) (o : Nat) (v : Nat) :
    WroteKeeps s (State.writeAttKey s e o v) := by
  unfold State.writeAttKey
  try dsimp only
  (repeat' split) <;> simp

@[simp] theorem writeQuota_keeps (s : State) (i : Nat) (o : Nat) (v : Nat) :
    WroteKeeps s (State.writeQuota s i o v) := by
  unfold State.writeQuota
  try dsimp only
  (repeat' split) <;> simp

@[simp] theorem captureFault_keeps (s : State) (x : Nat) (a : Nat) (cause : Nat) (write : Bool) :
    (State.captureFault s x a cause write).pending = s.pending ∧
      (State.captureFault s x a cause write).fuses = s.fuses := by
  unfold State.captureFault
  simp

@[simp] theorem sweep_keeps (s : State) :
    (State.sweep s).pending = s.pending ∧ (State.sweep s).fuses = s.fuses := by
  unfold State.sweep
  try dsimp only
  (repeat' split) <;> simp

@[simp] theorem putRing_keeps (s : State) (r : Nat) (v : Ring) :
    (State.putRing s r v).pending = s.pending ∧ (State.putRing s r v).fuses = s.fuses := by
  unfold State.putRing
  simp

@[simp] theorem dropStuck_keeps (s : State) (r : Nat) :
    (State.dropStuck s r).pending = s.pending ∧ (State.dropStuck s r).fuses = s.fuses := by
  unfold State.dropStuck
  simp

@[simp] theorem settleRing_keeps (s : State) (r : Nat) :
    (State.settleRing s r).pending = s.pending ∧ (State.settleRing s r).fuses = s.fuses := by
  unfold State.settleRing
  simp

@[simp] theorem haltRing_keeps (s : State) (r : Nat) (cause : Nat) (cut : Bool) :
    (State.haltRing s r cause cut).pending = s.pending ∧ (State.haltRing s r cause cut).fuses = s.fuses := by
  unfold State.haltRing
  simp

@[simp] theorem haltGroup_keeps (s : State) (g : Nat) (cause : Nat) :
    (State.haltGroup s g cause).pending = s.pending ∧ (State.haltGroup s g cause).fuses = s.fuses := by
  unfold State.haltGroup
  simp

@[simp] theorem writeDmaTimeout_keeps (s : State) (o : Nat) (v : Nat) :
    WroteKeeps s (State.writeDmaTimeout s o v) := by
  unfold State.writeDmaTimeout
  try dsimp only
  (repeat' split) <;> simp

@[simp] theorem writeGroupCfg_keeps (s : State) (g : Nat) (o : Nat) (v : Nat) :
    WroteKeeps s (State.writeGroupCfg s g o v) := by
  unfold State.writeGroupCfg
  try dsimp only
  (repeat' split) <;> simp

@[simp] theorem writeRingTail_keeps (s : State) (r : Nat) (o : Nat) (v : Nat) :
    WroteKeeps s (State.writeRingTail s r o v) := by
  unfold State.writeRingTail
  try dsimp only
  (repeat' split) <;> simp

@[simp] theorem writeRingCtl_keeps (s : State) (r : Nat) (o : Nat) (v : Nat) :
    WroteKeeps s (State.writeRingCtl s r o v) := by
  unfold State.writeRingCtl
  try dsimp only
  (repeat' split) <;> simp

@[simp] theorem writeRingBase_keeps (s : State) (f : Fld) (r : Nat) (o : Nat) (v : Nat) :
    WroteKeeps s (State.writeRingBase s f r o v) := by
  unfold State.writeRingBase
  try dsimp only
  (repeat' split) <;> simp

@[simp] theorem dropUnissued_keeps (s : State) :
    (State.dropUnissued s).pending = s.pending ∧ (State.dropUnissued s).fuses = s.fuses := by
  unfold State.dropUnissued
  simp

@[simp] theorem stopRings_keeps (s : State) :
    (State.stopRings s).pending = s.pending ∧ (State.stopRings s).fuses = s.fuses := by
  unfold State.stopRings
  simp

@[simp] theorem setJob_keeps (s : State) (r : Nat) (i : Nat) (j : DmaJob) :
    (State.setJob s r i j).pending = s.pending ∧ (State.setJob s r i j).fuses = s.fuses := by
  unfold State.setJob
  simp

@[simp] theorem endDescriptor_keeps (s : State) (r : Nat) (i : Nat) (j : DmaJob) (outcome : Nat × Nat × Nat) (halts : Bool) :
    (State.endDescriptor s r i j outcome halts).pending = s.pending ∧
      (State.endDescriptor s r i j outcome halts).fuses = s.fuses := by
  unfold State.endDescriptor
  simp

@[simp] theorem failCompletion_keeps (s : State) (r : Nat) (j : DmaJob) (code : Nat) :
    (State.failCompletion s r j code).pending = s.pending ∧ (State.failCompletion s r j code).fuses = s.fuses := by
  unfold State.failCompletion
  simp

@[simp] theorem jobResponse_keeps (s : State) (r : Nat) (i : Nat) (j : DmaJob) (beats : List BeatOut) :
    (State.jobResponse s r i j beats).pending = s.pending ∧ (State.jobResponse s r i j beats).fuses = s.fuses := by
  unfold State.jobResponse
  try dsimp only
  (repeat' split) <;> simp

@[simp] theorem dmaResponse_keeps (s : State) (r : Nat) (slot : Nat) (beats : List BeatOut) :
    (State.dmaResponse s r slot beats).pending = s.pending ∧ (State.dmaResponse s r slot beats).fuses = s.fuses := by
  unfold State.dmaResponse
  try dsimp only
  (repeat' split) <;> simp

@[simp] theorem chainNext_keeps (s : State) (r : Nat) (i : Nat) (j : DmaJob) :
    (State.chainNext s r i j).pending = s.pending ∧ (State.chainNext s r i j).fuses = s.fuses := by
  unfold State.chainNext
  try dsimp only
  (repeat' split) <;> simp

@[simp] theorem dropJobs_keeps (s : State) :
    (State.dropJobs s).pending = s.pending ∧ (State.dropJobs s).fuses = s.fuses := by
  unfold State.dropJobs
  simp

@[simp] theorem startSlot_keeps (s : State) (r : Nat) :
    (State.startSlot s r).pending = s.pending ∧ (State.startSlot s r).fuses = s.fuses := by
  unfold State.startSlot
  simp

@[simp] theorem issueJob_keeps (s : State) (r : Nat) (i : Nat) :
    (State.issueJob s r i).pending = s.pending ∧ (State.issueJob s r i).fuses = s.fuses := by
  unfold State.issueJob
  try dsimp only
  (repeat' split) <;> simp

@[simp] theorem portIssue_keeps (s : State) (p : Nat) :
    (State.portIssue s p).pending = s.pending ∧ (State.portIssue s p).fuses = s.fuses := by
  unfold State.portIssue
  try dsimp only
  (repeat' split) <;> simp

@[simp] theorem retireSlot_keeps (s : State) (r : Nat) (j : DmaJob) :
    (State.retireSlot s r j).pending = s.pending ∧ (State.retireSlot s r j).fuses = s.fuses := by
  unfold State.retireSlot
  simp

@[simp] theorem startDescriptor_keeps (s : State) (r : Nat) (i : Nat) (j : DmaJob) (d : Descriptor) :
    (State.startDescriptor s r i j d).pending = s.pending ∧ (State.startDescriptor s r i j d).fuses = s.fuses := by
  unfold State.startDescriptor
  simp

end Sys2Proof.Machine
end

