-- ==== Sys2Proof/Laws/KeepsStorage.lean ====
section
/-! SUPPORT. What each operation keeps (KeepsBase): the flash, the journal, images, loads and the banks. -/

namespace Sys2Proof.Machine

set_option Elab.async false

@[simp] theorem wearCheck_keeps (s : State) (l : Nat) :
    (State.wearCheck s l).pending = s.pending ∧ (State.wearCheck s l).fuses = s.fuses := by
  unfold State.wearCheck
  simp

@[simp] theorem notePulses_keeps (s : State) (l : Nat) (n : Nat) :
    (State.notePulses s l n).pending = s.pending ∧ (State.notePulses s l n).fuses = s.fuses := by
  unfold State.notePulses
  simp

@[simp] theorem programPage_keeps (s : State) (l : Nat) (page : Nat) (ws : List DWord) :
    (State.programPage s l page ws).pending = s.pending ∧ (State.programPage s l page ws).fuses = s.fuses := by
  unfold State.programPage
  simp

@[simp] theorem failPage_keeps (s : State) (l : Nat) (page : Nat) :
    (State.failPage s l page).pending = s.pending ∧ (State.failPage s l page).fuses = s.fuses := by
  unfold State.failPage
  simp

@[simp] theorem showFlash_keeps (s : State) :
    (State.showFlash s).pending = s.pending ∧ (State.showFlash s).fuses = s.fuses := by
  unfold State.showFlash
  simp

@[simp] theorem setUnits_keeps (s : State) (us : List FlashUnit) :
    (State.setUnits s us).pending = s.pending ∧ (State.setUnits s us).fuses = s.fuses := by
  unfold State.setUnits
  simp

@[simp] theorem setKind_keeps (s : State) (l : Nat) (page : Nat) (k : PageKind) :
    (State.setKind s l page k).pending = s.pending ∧ (State.setKind s l page k).fuses = s.fuses := by
  unfold State.setKind
  simp

@[simp] theorem beginUnit_keeps (s : State) (u : FlashUnit) :
    (State.beginUnit s u).pending = s.pending ∧ (State.beginUnit s u).fuses = s.fuses := by
  unfold State.beginUnit
  simp

@[simp] theorem releaseUnits_keeps (s : State) :
    (State.releaseUnits s).pending = s.pending ∧ (State.releaseUnits s).fuses = s.fuses := by
  unfold State.releaseUnits
  simp

@[simp] theorem endLong_keeps (s : State) (b : Nat) :
    (State.endLong s b).pending = s.pending ∧ (State.endLong s b).fuses = s.fuses := by
  unfold State.endLong
  simp

@[simp] theorem suspendBank_keeps (s : State) (b : Nat) (long : Bool) :
    (State.suspendBank s b long).pending = s.pending ∧ (State.suspendBank s b long).fuses = s.fuses := by
  unfold State.suspendBank
  simp

@[simp] theorem readPage_keeps (s : State) (l : Nat) (page : Nat) (flips : List Nat) :
    (State.readPage s l page flips).1.pending = s.pending ∧ (State.readPage s l page flips).1.fuses = s.fuses := by
  unfold State.readPage
  split
  · simp
  · cases s.pageKind l page <;> simp

@[simp] theorem noteCorrections_keeps (s : State) (l : Nat) (n : Nat) :
    (State.noteCorrections s l n).pending = s.pending ∧ (State.noteCorrections s l n).fuses = s.fuses := by
  unfold State.noteCorrections
  simp

@[simp] theorem noteRead_keeps (s : State) (l : Nat) (page : Nat) (r : PageRead) :
    (State.noteRead s l page r).pending = s.pending ∧ (State.noteRead s l page r).fuses = s.fuses := by
  unfold State.noteRead
  try dsimp only
  (repeat' split) <;> simp

@[simp] theorem readTimes_keeps (s : State) (l : Nat) (page : Nat) (a : Stability) (x4 : List (List Nat)) :
    (State.readTimes s l page a x4).1.pending = s.pending ∧ (State.readTimes s l page a x4).1.fuses = s.fuses := by
  induction x4 generalizing s a with
  | nil => unfold State.readTimes; simp
  | cons y ys ih => unfold State.readTimes; simp [ih]

@[simp] theorem stability_keeps (s : State) (l : Nat) (page : Nat) :
    (State.stability s l page).1.pending = s.pending ∧ (State.stability s l page).1.fuses = s.fuses := by
  unfold State.stability
  simp

@[simp] theorem lockPartition_keeps (s : State) (x1 : Partition) :
    (State.lockPartition s x1).pending = s.pending ∧ (State.lockPartition s x1).fuses = s.fuses := by
  unfold State.lockPartition
  try dsimp only
  (repeat' split) <;> simp

@[simp] theorem noSpare_keeps (s : State) (l : Nat) :
    (State.noSpare s l).pending = s.pending ∧ (State.noSpare s l).fuses = s.fuses := by
  unfold State.noSpare
  simp

@[simp] theorem programMap_keeps (s : State) (l : Nat) (n : Nat) :
    (State.programMap s l n).pending = s.pending ∧ (State.programMap s l n).fuses = s.fuses := by
  unfold State.programMap
  simp

@[simp] theorem freshBlock_keeps (s : State) (l : Nat) :
    (State.freshBlock s l).pending = s.pending ∧ (State.freshBlock s l).fuses = s.fuses := by
  unfold State.freshBlock
  simp

@[simp] theorem serveFrom_keeps (s : State) (l : Nat) (n : Nat) :
    (State.serveFrom s l n).pending = s.pending ∧ (State.serveFrom s l n).fuses = s.fuses := by
  unfold State.serveFrom
  simp

@[simp] theorem erasePhys_keeps (s : State) (p : Nat) :
    (State.erasePhys s p).pending = s.pending ∧ (State.erasePhys s p).fuses = s.fuses := by
  unfold State.erasePhys
  simp

@[simp] theorem takeSpare_keeps (s : State) (n : Nat) :
    (State.takeSpare s n).pending = s.pending ∧ (State.takeSpare s n).fuses = s.fuses := by
  unfold State.takeSpare
  simp

@[simp] theorem drawFor_keeps (s : State) (l : Nat) (b : Nat) (x3 : Nat) :
    (State.drawFor s l b x3).pending = s.pending ∧ (State.drawFor s l b x3).fuses = s.fuses := by
  induction x3 generalizing s with
  | zero => unfold State.drawFor; split <;> simp
  | succ k ih =>
    unfold State.drawFor
    dsimp only
    split
    · simp
    · exact ⟨(ih _).1.trans (by simp), (ih _).2.trans (by simp)⟩

@[simp] theorem withdrawSpare_keeps (s : State) (p : Nat) :
    (State.withdrawSpare s p).pending = s.pending ∧ (State.withdrawSpare s p).fuses = s.fuses := by
  unfold State.withdrawSpare
  try dsimp only
  (repeat' split) <;> simp

@[simp] theorem retireTo_keeps (s : State) (l : Nat) (bad : Nat) :
    (State.retireTo s l bad).pending = s.pending ∧ (State.retireTo s l bad).fuses = s.fuses := by
  unfold State.retireTo
  simp

@[simp] theorem eraseEnds_keeps (s : State) (l : Nat) (pulses : Nat) (badSpares : Nat) :
    (State.eraseEnds s l pulses badSpares).pending = s.pending ∧
      (State.eraseEnds s l pulses badSpares).fuses = s.fuses := by
  unfold State.eraseEnds
  simp

@[simp] theorem mapWorn_keeps (s : State) (p : Nat) :
    (State.mapWorn s p).pending = s.pending ∧ (State.mapWorn s p).fuses = s.fuses := by
  unfold State.mapWorn
  try dsimp only
  (repeat' split) <;> simp

@[simp] theorem mapSpare_keeps (s : State) (n : Nat) :
    (State.mapSpare s n).pending = s.pending ∧ (State.mapSpare s n).fuses = s.fuses := by
  unfold State.mapSpare
  try dsimp only
  (repeat' split) <;> simp

@[simp] theorem loadBlockMap_keeps (s : State) :
    (State.loadBlockMap s).pending = s.pending ∧ (State.loadBlockMap s).fuses = s.fuses := by
  unfold State.loadBlockMap
  simp

@[simp] theorem requestUnit_keeps (s : State) (u : FlashUnit) :
    (State.requestUnit s u).pending = s.pending ∧ (State.requestUnit s u).fuses = s.fuses := by
  unfold State.requestUnit
  simp

@[simp] theorem startProgram_keeps (s : State) (l : Nat) (page : Nat) (ws : List DWord) (user : UnitUser) (held : Bool) :
    (State.startProgram s l page ws user held).pending = s.pending ∧
      (State.startProgram s l page ws user held).fuses = s.fuses := by
  unfold State.startProgram
  simp

@[simp] theorem startErase_keeps (s : State) (l : Nat) (user : UnitUser) (cost : Option Nat) (held : Bool) :
    (State.startErase s l user cost held).pending = s.pending ∧
      (State.startErase s l user cost held).fuses = s.fuses := by
  unfold State.startErase
  simp

@[simp] theorem dropWaitingUnits_keeps (s : State) :
    (State.dropWaitingUnits s).pending = s.pending ∧ (State.dropWaitingUnits s).fuses = s.fuses := by
  unfold State.dropWaitingUnits
  simp

@[simp] theorem findDirectory_keeps (s : State) :
    (State.findDirectory s).1.pending = s.pending ∧ (State.findDirectory s).1.fuses = s.fuses := by
  unfold State.findDirectory
  try dsimp only
  simp (disch := (intros; (try dsimp only); (repeat' split) <;> (try (have e := pair_fst ‹_ = (_, _)›; subst e)) <;> simp; done))

@[simp] theorem countPage_keeps (s : State) (c : Resp) :
    (State.countPage s c).pending = s.pending ∧ (State.countPage s c).fuses = s.fuses := by
  unfold State.countPage
  simp

@[simp] theorem enginePage_keeps (s : State) (l : Nat) (page : Nat) (errors : List (Nat × List Nat)) :
    (State.enginePage s l page errors).1.pending = s.pending ∧
      (State.enginePage s l page errors).1.fuses = s.fuses := by
  unfold State.enginePage
  dsimp only
  split
  · simp
  · have h := readPage_keeps (s.suspendBank (s.flashBank l) false) l page (pageErrors errors (64 * l + page))
    generalize (s.suspendBank (s.flashBank l) false).readPage l page (pageErrors errors (64 * l + page)) = r at h ⊢
    split <;> simp [h]

@[simp] theorem readPages_keeps (s : State) (l0 : Nat) (p : Nat) (errors : List (Nat × List Nat)) (x4 : Nat) :
    (State.readPages s l0 p errors x4).1.pending = s.pending ∧
      (State.readPages s l0 p errors x4).1.fuses = s.fuses := by
  induction x4 generalizing s p with
  | zero => unfold State.readPages; simp
  | succ k ih => unfold State.readPages; simp [ih]

@[simp] theorem readSpan_keeps (s : State) (l0 : Nat) (off : Nat) (len : Nat) (errors : List (Nat × List Nat)) :
    (State.readSpan s l0 off len errors).1.pending = s.pending ∧
      (State.readSpan s l0 off len errors).1.fuses = s.fuses := by
  unfold State.readSpan
  simp

@[simp] theorem checkRest_keeps (s : State) (l0 : Nat) (errors : List (Nat × List Nat)) (agree : Header → Bool)
    (head : Span) :
    (State.checkRest s l0 errors agree head).1.pending = s.pending ∧
      (State.checkRest s l0 errors agree head).1.fuses = s.fuses := by
  unfold State.checkRest
  split
  · simp
  · split <;> simp

@[simp] theorem checkStored_keeps (s : State) (l0 : Nat) (errors : List (Nat × List Nat)) (agree : Header → Bool) :
    (State.checkStored s l0 errors agree).1.pending = s.pending ∧
      (State.checkStored s l0 errors agree).1.fuses = s.fuses := by
  exact ⟨(checkRest_keeps ..).1.trans (readSpan_keeps ..).1, (checkRest_keeps ..).2.trans (readSpan_keeps ..).2⟩

@[simp] theorem showLanes_keeps (s : State) :
    (State.showLanes s).pending = s.pending ∧ (State.showLanes s).fuses = s.fuses := by
  unfold State.showLanes
  simp

@[simp] theorem setLoader_keeps (s : State) (l : Loader) :
    (State.setLoader s l).pending = s.pending ∧ (State.setLoader s l).fuses = s.fuses := by
  unfold State.setLoader
  simp

@[simp] theorem setLane_keeps (s : State) (k : Nat) (l : ScrubLane) :
    (State.setLane s k l).pending = s.pending ∧ (State.setLane s k l).fuses = s.fuses := by
  unfold State.setLane
  simp

@[simp] theorem abandonRepairs_keeps (s : State) (k : Nat) :
    (State.abandonRepairs s k).pending = s.pending ∧ (State.abandonRepairs s k).fuses = s.fuses := by
  unfold State.abandonRepairs
  simp

@[simp] theorem noteRegionFail_keeps (s : State) (k : Nat) (status : Nat) (stage : Nat) (chunk : Nat) (record : Nat) :
    (State.noteRegionFail s k status stage chunk record).pending = s.pending ∧
      (State.noteRegionFail s k status stage chunk record).fuses = s.fuses := by
  unfold State.noteRegionFail
  simp

@[simp] theorem dropInjection_keeps (s : State) (k : Nat) :
    (State.dropInjection s k).pending = s.pending ∧ (State.dropInjection s k).fuses = s.fuses := by
  unfold State.dropInjection
  simp

@[simp] theorem setQueries_keeps (s : State) (l : List ScrubQuery) :
    (State.setQueries s l).pending = s.pending ∧ (State.setQueries s l).fuses = s.fuses := by
  unfold State.setQueries
  simp

@[simp] theorem mapQueries_keeps (s : State) (f : ScrubQuery → ScrubQuery) :
    (State.mapQueries s f).pending = s.pending ∧ (State.mapQueries s f).fuses = s.fuses := by
  unfold State.mapQueries
  simp

@[simp] theorem settleQueries_keeps (s : State) :
    (State.settleQueries s).pending = s.pending ∧ (State.settleQueries s).fuses = s.fuses := by
  unfold State.settleQueries
  simp

@[simp] theorem cutQueries_keeps (s : State) (k : Nat) :
    (State.cutQueries s k).pending = s.pending ∧ (State.cutQueries s k).fuses = s.fuses := by
  unfold State.cutQueries
  simp

@[simp] theorem stopLane_keeps (s : State) (k : Nat) :
    (State.stopLane s k).pending = s.pending ∧ (State.stopLane s k).fuses = s.fuses := by
  unfold State.stopLane
  simp

@[simp] theorem setWriter_keeps (s : State) (k : Nat) (w : Writer) :
    (State.setWriter s k w).pending = s.pending ∧ (State.setWriter s k w).fuses = s.fuses := by
  unfold State.setWriter
  simp

@[simp] theorem setRegion_keeps (s : State) (k : Nat) (st : Nat) :
    (State.setRegion s k st).pending = s.pending ∧ (State.setRegion s k st).fuses = s.fuses := by
  unfold State.setRegion
  simp

@[simp] theorem startWipe_keeps (s : State) (k : Nat) :
    (State.startWipe s k).pending = s.pending ∧ (State.startWipe s k).fuses = s.fuses := by
  unfold State.startWipe
  simp

@[simp] theorem abortRegion_keeps (s : State) (k : Nat) (status : Nat) (stage : Nat) (chunk : Nat) (record : Nat) :
    (State.abortRegion s k status stage chunk record).pending = s.pending ∧
      (State.abortRegion s k status stage chunk record).fuses = s.fuses := by
  unfold State.abortRegion
  simp

@[simp] theorem endStreams_keeps (s : State) (banks : List Nat) :
    (State.endStreams s banks).pending = s.pending ∧ (State.endStreams s banks).fuses = s.fuses := by
  unfold State.endStreams
  simp

@[simp] theorem cutLoads_keeps (s : State) (safe : Bool) :
    (State.cutLoads s safe).pending = s.pending ∧ (State.cutLoads s safe).fuses = s.fuses := by
  unfold State.cutLoads
  simp

@[simp] theorem dozeLane_keeps (s : State) (k : Nat) :
    (State.dozeLane s k).pending = s.pending ∧ (State.dozeLane s k).fuses = s.fuses := by
  unfold State.dozeLane
  simp

@[simp] theorem beginStream_keeps (s : State) (j : LoadJob) :
    (State.beginStream s j).pending = s.pending ∧ (State.beginStream s j).fuses = s.fuses := by
  unfold State.beginStream
  simp

@[simp] theorem noteBootFail_keeps (s : State) (j : LoadJob) (status : Nat) (stage : Nat) (chunk : Nat) (record : Nat) :
    (State.noteBootFail s j status stage chunk record).pending = s.pending ∧
      (State.noteBootFail s j status stage chunk record).fuses = s.fuses := by
  unfold State.noteBootFail
  simp

@[simp] theorem failBoot_keeps (s : State) (j : LoadJob) (status : Nat) (stage : Nat) (chunk : Nat) (record : Nat) :
    (State.failBoot s j status stage chunk record).pending = s.pending ∧
      (State.failBoot s j status stage chunk record).fuses = s.fuses := by
  unfold State.failBoot
  simp

@[simp] theorem noteCheckFail_keeps (s : State) (ks : List Nat) (status : Nat) (stage : Nat) :
    (State.noteCheckFail s ks status stage).pending = s.pending ∧
      (State.noteCheckFail s ks status stage).fuses = s.fuses := by
  unfold State.noteCheckFail
  simp

@[simp] theorem swapSignatures_keeps (s : State) (k : Nat) :
    (State.swapSignatures s k).pending = s.pending ∧ (State.swapSignatures s k).fuses = s.fuses := by
  unfold State.swapSignatures
  simp

@[simp] theorem rearmAll_keeps (s : State) (k : Nat) :
    (State.rearmAll s k).pending = s.pending ∧ (State.rearmAll s k).fuses = s.fuses := by
  unfold State.rearmAll
  try dsimp only
  (repeat' split) <;> simp

@[simp] theorem takePeriphery_keeps (s : State) (k : Nat) :
    (State.takePeriphery s k).pending = s.pending ∧ (State.takePeriphery s k).fuses = s.fuses := by
  unfold State.takePeriphery
  try dsimp only
  (repeat' split) <;> simp

@[simp] theorem setPortSides_keeps (s : State) (k : Nat) :
    (State.setPortSides s k).pending = s.pending ∧ (State.setPortSides s k).fuses = s.fuses := by
  unfold State.setPortSides
  simp

@[simp] theorem startSweep_keeps (s : State) (k : Nat) :
    (State.startSweep s k).pending = s.pending ∧ (State.startSweep s k).fuses = s.fuses := by
  unfold State.startSweep
  simp

@[simp] theorem completeLoad_keeps (s : State) (k : Nat) (i : Nat) (j : LoadJob) (h : Header) :
    (State.completeLoad s k i j h).pending = s.pending ∧ (State.completeLoad s k i j h).fuses = s.fuses := by
  unfold State.completeLoad
  simp

@[simp] theorem endJob_keeps (s : State) (i : Nat) :
    (State.endJob s i).pending = s.pending ∧ (State.endJob s i).fuses = s.fuses := by
  unfold State.endJob
  try dsimp only
  (repeat' split) <;> simp

@[simp] theorem endSweep_keeps (s : State) (k : Nat) :
    (State.endSweep s k).pending = s.pending ∧ (State.endSweep s k).fuses = s.fuses := by
  unfold State.endSweep
  simp

@[simp] theorem failReload_keeps (s : State) (i : Nat) (j : LoadJob) (status : Nat) (chunk : Nat) :
    (State.failReload s i j status chunk).pending = s.pending ∧
      (State.failReload s i j status chunk).fuses = s.fuses := by
  unfold State.failReload
  simp

@[simp] theorem failRepair_keeps (s : State) (k : Nat) (frame : Nat) (cause : Nat) (status : Nat) :
    (State.failRepair s k frame cause status).pending = s.pending ∧
      (State.failRepair s k frame cause status).fuses = s.fuses := by
  unfold State.failRepair
  simp

@[simp] theorem laneAfter_keeps (s : State) (k : Nat) (o : Nat) :
    (State.laneAfter s k o).pending = s.pending ∧ (State.laneAfter s k o).fuses = s.fuses := by
  unfold State.laneAfter
  simp

@[simp] theorem takeRecord_keeps (s : State) (j : LoadJob) (h : Header) (chunk : Nat) (i : Nat) (r : List Byte) :
    (State.takeRecord s j h chunk i r).pending = s.pending ∧ (State.takeRecord s j h chunk i r).fuses = s.fuses := by
  unfold State.takeRecord
  simp

@[simp] theorem setGlobalLines_keeps (s : State) (h : Header) :
    (State.setGlobalLines s h).pending = s.pending ∧ (State.setGlobalLines s h).fuses = s.fuses := by
  unfold State.setGlobalLines
  simp

@[simp] theorem settleJob_keeps (s : State) (i : Nat) :
    (State.settleJob s i).pending = s.pending ∧ (State.settleJob s i).fuses = s.fuses := by
  unfold State.settleJob
  try dsimp only
  (repeat' split) <;> simp

@[simp] theorem wipeCells_keeps (s : State) (k : Nat) :
    (State.wipeCells s k).pending = s.pending ∧ (State.wipeCells s k).fuses = s.fuses := by
  unfold State.wipeCells
  simp

@[simp] theorem repairRecord_keeps (s : State) (k : Nat) (f : Nat) (h : Header) (errors : List (Nat × List Nat)) :
    (State.repairRecord s k f h errors).1.pending = s.pending ∧
      (State.repairRecord s k f h errors).1.fuses = s.fuses := by
  unfold State.repairRecord
  try dsimp only
  (repeat' split) <;> simp

@[simp] theorem repairFrame_keeps (s : State) (k : Nat) (r : Repair) (misses : Nat) (errors : List (Nat × List Nat)) :
    (State.repairFrame s k r misses errors).pending = s.pending ∧
      (State.repairFrame s k r misses errors).fuses = s.fuses := by
  unfold State.repairFrame
  try dsimp only
  (repeat' split) <;> simp

@[simp] theorem sealRam_keeps (s : State) (f : Nat) :
    (State.sealRam s f).pending = s.pending ∧ (State.sealRam s f).fuses = s.fuses := by
  unfold State.sealRam
  simp

@[simp] theorem upset_keeps (s : State) (f : Nat) (bits : List (Fin 10240)) :
    (State.upset s f bits).pending = s.pending ∧ (State.upset s f bits).fuses = s.fuses := by
  unfold State.upset
  simp

@[simp] theorem writeFrame_keeps (s : State) (k : Nat) (w : Writer) (f : FrameWord) :
    (State.writeFrame s k w f).pending = s.pending ∧ (State.writeFrame s k w f).fuses = s.fuses := by
  unfold State.writeFrame
  try dsimp only
  (repeat' split) <;> simp

@[simp] theorem showSlices_keeps (s : State) :
    (State.showSlices s).pending = s.pending ∧ (State.showSlices s).fuses = s.fuses := by
  unfold State.showSlices
  simp

@[simp] theorem setSlice_keeps (s : State) (g : Nat) (t : Option SliceTest) :
    (State.setSlice s g t).pending = s.pending ∧ (State.setSlice s g t).fuses = s.fuses := by
  unfold State.setSlice
  simp

@[simp] theorem putRow_keeps (s : State) (n : Nat) (cell : Nat) (r : BitVec 72) :
    (State.putRow s n cell r).pending = s.pending ∧ (State.putRow s n cell r).fuses = s.fuses := by
  unfold State.putRow
  simp

@[simp] theorem setPoison_keeps (s : State) (n : Nat) (w : Nat) (b : Bool) :
    (State.setPoison s n w b).pending = s.pending ∧ (State.setPoison s n w b).fuses = s.fuses := by
  unfold State.setPoison
  simp

@[simp] theorem zeroPage_keeps (s : State) (n : Nat) (p : Nat) :
    (State.zeroPage s n p).pending = s.pending ∧ (State.zeroPage s n p).fuses = s.fuses := by
  rw [State.zeroPage.eq_1]
  generalize dataCells p = cells
  generalize pageCells p = all
  have h := foldl_keeps all (fun s c => s.putRow n c 0) s fun t x => by simp
  generalize all.foldl (fun s c => s.putRow n c 0) s = t at h ⊢
  have k := foldl_keeps cells (fun s w => s.setPoison n w false) t fun t x => by simp
  exact ⟨k.1.trans h.1, k.2.trans h.2⟩

@[simp] theorem bankDiag_keeps (s : State) (diag : Nat) (n : Nat) (inj : Bool) :
    (State.bankDiag s diag n inj).pending = s.pending ∧ (State.bankDiag s diag n inj).fuses = s.fuses := by
  unfold State.bankDiag
  simp

@[simp] theorem countSpare_keeps (s : State) (n : Nat) (cell : Nat) :
    (State.countSpare s n cell).pending = s.pending ∧ (State.countSpare s n cell).fuses = s.fuses := by
  unfold State.countSpare
  simp

@[simp] theorem noteErr_keeps (s : State) (n : Nat) (kind : Nat) (cell : Nat) (inj : Bool) :
    (State.noteErr s n kind cell inj).pending = s.pending ∧ (State.noteErr s n kind cell inj).fuses = s.fuses := by
  unfold State.noteErr
  simp

@[simp] theorem putWord_keeps (s : State) (n : Nat) (cell : Nat) (d : DWord) :
    (State.putWord s n cell d).pending = s.pending ∧ (State.putWord s n cell d).fuses = s.fuses := by
  unfold State.putWord
  simp

@[simp] theorem fixWord_keeps (s : State) (n : Nat) (cell : Nat) (d : DWord) (access : Bool) :
    (State.fixWord s n cell d access).pending = s.pending ∧ (State.fixWord s n cell d access).fuses = s.fuses := by
  unfold State.fixWord
  simp

@[simp] theorem owe_keeps (s : State) (n : Nat) (b : Bool) :
    (State.owe s n b).pending = s.pending ∧ (State.owe s n b).fuses = s.fuses := by
  unfold State.owe
  simp

@[simp] theorem poisonWord_keeps (s : State) (n : Nat) (w : Nat) (scrub : Bool) (inj : Bool) :
    (State.poisonWord s n w scrub inj).pending = s.pending ∧ (State.poisonWord s n w scrub inj).fuses = s.fuses := by
  unfold State.poisonWord
  simp

@[simp] theorem putParity_keeps (s : State) (n : Nat) (p : Nat) (ps : List DWord) :
    (State.putParity s n p ps).pending = s.pending ∧ (State.putParity s n p ps).fuses = s.fuses := by
  unfold State.putParity
  simp

@[simp] theorem reseal_keeps (s : State) (n : Nat) (p : Nat) (cell : Nat) (scrub : Bool) (inj : Bool) :
    (State.reseal s n p cell scrub inj).pending = s.pending ∧ (State.reseal s n p cell scrub inj).fuses = s.fuses := by
  rw [State.reseal.eq_1]
  generalize dataCells p = cells
  have h := foldl_ite_keeps cells (fun s w => s.unsound n w) (fun s w => s.poisonWord n w scrub inj) s
    fun t x => poisonWord_keeps ..
  generalize cells.foldl (fun s w => if s.unsound n w then s.poisonWord n w scrub inj else s) s = t at h ⊢
  simp [h]

@[simp] theorem settlePage_keeps (s : State) (n : Nat) (p : Nat) (cell : Nat) (scrub : Bool) (inj : Bool) (x6 : Option
    (List DWord)) :
    (State.settlePage s n p cell scrub inj x6).1.pending = s.pending ∧
      (State.settlePage s n p cell scrub inj x6).1.fuses = s.fuses := by
  unfold State.settlePage
  split
  · dsimp only
    generalize List.filter _ _ = changed
    have h := foldl_keeps changed (fun s cw => (s.putWord n cw.1 cw.2).countSpare n cw.1)
      (if scrub then s else s.bankDiag 2 n inj) fun t x => by simp
    generalize changed.foldl (fun s cw => (s.putWord n cw.1 cw.2).countSpare n cw.1)
      (if scrub then s else s.bankDiag 2 n inj) = t at h ⊢
    cases scrub <;> simp_all
  · simp

@[simp] theorem correctPage_keeps (s : State) (n : Nat) (p : Nat) (cell : Nat) (scrub : Bool) :
    (State.correctPage s n p cell scrub).1.pending = s.pending ∧
      (State.correctPage s n p cell scrub).1.fuses = s.fuses := by
  unfold State.correctPage
  simp

@[simp] theorem readWord_keeps (s : State) (n : Nat) (w : Nat) :
    (State.readWord s n w).1.pending = s.pending ∧ (State.readWord s n w).1.fuses = s.fuses := by
  rw [State.readWord]
  split
  · simp
  · split
    · simp
    · simp
    · have h := correctPage_keeps s n (w / 512) w false
      revert h
      generalize s.correctPage n (w / 512) w false = r
      obtain ⟨t, o⟩ := r
      cases o <;> simp

@[simp] theorem mendForWrite_keeps (s : State) (n : Nat) (p : Nat) (ws : List (Nat × DWord)) :
    (State.mendForWrite s n p ws).pending = s.pending ∧ (State.mendForWrite s n p ws).fuses = s.fuses := by
  unfold State.mendForWrite
  try dsimp only
  (repeat' split) <;> simp

@[simp] theorem fixTargets_keeps (s : State) (n : Nat) (ws : List (Nat × DWord)) :
    (State.fixTargets s n ws).pending = s.pending ∧ (State.fixTargets s n ws).fuses = s.fuses := by
  refine foldl_keeps _ _ _ fun t x => ?_
  split
  · split <;> simp
  · simp

@[simp] theorem sealWrite_keeps (s : State) (n : Nat) (p : Nat) (ws : List (Nat × DWord)) (c : Nat) :
    (State.sealWrite s n p ws c).pending = s.pending ∧ (State.sealWrite s n p ws c).fuses = s.fuses := by
  exact ⟨(reseal_keeps ..).1.trans (foldl_keeps _ _ _ fun t x => by simp).1,
    (reseal_keeps ..).2.trans (foldl_keeps _ _ _ fun t x => by simp).2⟩

@[simp] theorem fixParity_keeps (s : State) (n : Nat) (p : Nat) :
    (State.fixParity s n p).pending = s.pending ∧ (State.fixParity s n p).fuses = s.fuses := by
  unfold State.fixParity
  simp

@[simp] theorem deltaWrite_keeps (s : State) (n : Nat) (p : Nat) (ws : List (Nat × DWord)) :
    (State.deltaWrite s n p ws).pending = s.pending ∧ (State.deltaWrite s n p ws).fuses = s.fuses := by
  unfold State.deltaWrite
  simp

@[simp] theorem writeWords_keeps (s : State) (n : Nat) (ws : List (Nat × DWord)) :
    (State.writeWords s n ws).pending = s.pending ∧ (State.writeWords s n ws).fuses = s.fuses := by
  cases ws with
  | nil => exact ⟨rfl, rfl⟩
  | cons first rest =>
    unfold State.writeWords
    dsimp only
    (repeat' split) <;> simp

@[simp] theorem takeBack_keeps (s : State) (t : SliceTest) (i : Nat) :
    (State.takeBack s t i).pending = s.pending ∧ (State.takeBack s t i).fuses = s.fuses := by
  unfold State.takeBack
  try dsimp only
  (repeat' split) <;> (try (have e := pair_fst ‹_ = (_, _)›; subst e)) <;> simp

@[simp] theorem endSave_keeps (s : State) (t : SliceTest) :
    (State.endSave s t).pending = s.pending ∧ (State.endSave s t).fuses = s.fuses := by
  unfold State.endSave
  simp

@[simp] theorem readSlice_keeps (s : State) (n : Nat) (p : Nat) (ws : List Nat) :
    (State.readSlice s n p ws).1.pending = s.pending ∧ (State.readSlice s n p ws).1.fuses = s.fuses := by
  unfold State.readSlice
  simp

@[simp] theorem countPark_keeps (s : State) (t : SliceTest) (beats : Nat) :
    (State.countPark s t beats).pending = s.pending ∧ (State.countPark s t beats).fuses = s.fuses := by
  unfold State.countPark
  simp

@[simp] theorem restoreBeat_keeps (s : State) (g : Nat) (t : SliceTest) :
    (State.restoreBeat s g t).pending = s.pending ∧ (State.restoreBeat s g t).fuses = s.fuses := by
  unfold State.restoreBeat
  try dsimp only
  (repeat' split) <;> simp

@[simp] theorem restoreNext_keeps (s : State) (g : Nat) :
    (State.restoreNext s g).pending = s.pending ∧ (State.restoreNext s g).fuses = s.fuses := by
  unfold State.restoreNext
  try dsimp only
  (repeat' split) <;> simp

@[simp] theorem finishSlice_keeps (s : State) (g : Nat) :
    (State.finishSlice s g).pending = s.pending ∧ (State.finishSlice s g).fuses = s.fuses := by
  unfold State.finishSlice
  try dsimp only
  (repeat' split) <;> simp

@[simp] theorem settleHandovers_keeps (s : State) :
    (State.settleHandovers s).pending = s.pending ∧ (State.settleHandovers s).fuses = s.fuses := by
  unfold State.settleHandovers
  simp

@[simp] theorem clearOver_keeps (s : State) (n : Nat) :
    (State.clearOver s n).pending = s.pending ∧ (State.clearOver s n).fuses = s.fuses := by
  unfold State.clearOver
  simp

@[simp] theorem setClears_keeps (s : State) (g : Nat) (l : List Nat) :
    (State.setClears s g l).pending = s.pending ∧ (State.setClears s g l).fuses = s.fuses := by
  unfold State.setClears
  simp

@[simp] theorem requestClear_keeps (s : State) (n : Nat) :
    (State.requestClear s n).pending = s.pending ∧ (State.requestClear s n).fuses = s.fuses := by
  unfold State.requestClear
  simp

@[simp] theorem setSuspects_keeps (s : State) (n : Nat) (l : List (Nat × Nat)) :
    (State.setSuspects s n l).pending = s.pending ∧ (State.setSuspects s n l).fuses = s.fuses := by
  unfold State.setSuspects
  simp

@[simp] theorem setPass_keeps (s : State) (n : Nat) (p : Nat) :
    (State.setPass s n p).pending = s.pending ∧ (State.setPass s n p).fuses = s.fuses := by
  unfold State.setPass
  simp

@[simp] theorem scrubRestart_keeps (s : State) (n : Nat) :
    (State.scrubRestart s n).pending = s.pending ∧ (State.scrubRestart s n).fuses = s.fuses := by
  unfold State.scrubRestart
  simp

@[simp] theorem routeWrite_keeps (s : State) (n : Nat) (w : Nat) :
    (State.routeWrite s n w).1.pending = s.pending ∧ (State.routeWrite s n w).1.fuses = s.fuses := by
  unfold State.routeWrite
  try dsimp only
  (repeat' split) <;> simp

@[simp] theorem bankWrite_keeps (s : State) (n : Nat) (ws : List (Nat × DWord)) :
    (State.bankWrite s n ws).pending = s.pending ∧ (State.bankWrite s n ws).fuses = s.fuses := by
  unfold State.bankWrite
  try dsimp only
  (repeat' split) <;> simp

@[simp] theorem bankWriteBeat_keeps (s : State) (n : Nat) (w : Nat) (b : BeatIn) :
    (State.bankWriteBeat s n w b).1.pending = s.pending ∧ (State.bankWriteBeat s n w b).1.fuses = s.fuses := by
  unfold State.bankWriteBeat
  simp

@[simp] theorem bankRead_keeps (s : State) (n : Nat) (w : Nat) :
    (State.bankRead s n w).1.pending = s.pending ∧ (State.bankRead s n w).1.fuses = s.fuses := by
  unfold State.bankRead
  simp

@[simp] theorem bankReadPart_keeps (s : State) (n : Nat) (w : Nat) (e : Nat) :
    (State.bankReadPart s n w e).1.pending = s.pending ∧ (State.bankReadPart s n w e).1.fuses = s.fuses := by
  unfold State.bankReadPart
  try dsimp only
  (repeat' split) <;> (try (have e := pair_fst ‹_ = (_, _)›; subst e)) <;> simp

@[simp] theorem bankReadBeat_keeps (s : State) (n : Nat) (w : Nat) (be : BitVec 32) :
    (State.bankReadBeat s n w be).1.pending = s.pending ∧ (State.bankReadBeat s n w be).1.fuses = s.fuses := by
  unfold State.bankReadBeat
  simp

@[simp] theorem groupPowerUp_keeps (s : State) (g : Nat) :
    (State.groupPowerUp s g).pending = s.pending ∧ (State.groupPowerUp s g).fuses = s.fuses := by
  unfold State.groupPowerUp
  simp

@[simp] theorem scrubAdvance_keeps (s : State) (n : Nat) :
    (State.scrubAdvance s n).pending = s.pending ∧ (State.scrubAdvance s n).fuses = s.fuses := by
  unfold State.scrubAdvance
  simp

@[simp] theorem remapWord_keeps (s : State) (n : Nat) (cell : Nat) (inj : Bool) :
    (State.remapWord s n cell inj).pending = s.pending ∧ (State.remapWord s n cell inj).fuses = s.fuses := by
  unfold State.remapWord
  try dsimp only
  (repeat' split) <;> simp

@[simp] theorem suspect_keeps (s : State) (n : Nat) (cell : Nat) (inj : Bool) :
    (State.suspect s n cell inj).pending = s.pending ∧ (State.suspect s n cell inj).fuses = s.fuses := by
  unfold State.suspect
  simp

@[simp] theorem scrubPage_keeps (s : State) (n : Nat) (p : Nat) :
    (State.scrubPage s n p).pending = s.pending ∧ (State.scrubPage s n p).fuses = s.fuses := by
  unfold State.scrubPage
  try dsimp only
  (repeat' split) <;> simp

@[simp] theorem deferredStep_keeps (s : State) (n : Nat) :
    (State.deferredStep s n).pending = s.pending ∧ (State.deferredStep s n).fuses = s.fuses := by
  unfold State.deferredStep
  simp

@[simp] theorem endClear_keeps (s : State) (g : Nat) :
    (State.endClear s g).pending = s.pending ∧ (State.endClear s g).fuses = s.fuses := by
  unfold State.endClear
  try dsimp only
  (repeat' split) <;> simp

@[simp] theorem zeroBank_keeps (s : State) (n : Nat) :
    (State.zeroBank s n).pending = s.pending ∧ (State.zeroBank s n).fuses = s.fuses := by
  unfold State.zeroBank
  simp

@[simp] theorem groupPowerDown_keeps (s : State) (g : Nat) :
    (State.groupPowerDown s g).pending = s.pending ∧ (State.groupPowerDown s g).fuses = s.fuses := by
  have h : (((s.putBit .PWR_DOMAINS_GROUP_ON g false).setClears g []).putFlag .BNK_CLR_STAT_ACTIVE false g).pending
      = s.pending ∧ (((s.putBit .PWR_DOMAINS_GROUP_ON g false).setClears g []).putFlag .BNK_CLR_STAT_ACTIVE false g).fuses
      = s.fuses := by simp
  have f := forEach_keeps (((s.putBit .PWR_DOMAINS_GROUP_ON g false).setClears g []).putFlag .BNK_CLR_STAT_ACTIVE false g)
    (banksOfGroup g) (fun s n => (((s.zeroBank n).putFlag .BNK_STAT_POWERED false n).putFlag .BNK_SCRUB_RUNNING false
      n).clearOver n) fun t x => by simp
  exact ⟨f.1.trans h.1, f.2.trans h.2⟩

@[simp] theorem saveBeat_keeps (s : State) (g : Nat) (t : SliceTest) :
    (State.saveBeat s g t).1.pending = s.pending ∧ (State.saveBeat s g t).1.fuses = s.fuses := by
  unfold State.saveBeat
  try dsimp only
  (repeat' split) <;> simp

@[simp] theorem startClear_keeps (s : State) (g : Nat) :
    (State.startClear s g).pending = s.pending ∧ (State.startClear s g).fuses = s.fuses := by
  unfold State.startClear
  try dsimp only
  (repeat' split) <;> simp

@[simp] theorem setCopy_keeps (s : State) (c : Nat) (v : Copy) :
    (State.setCopy s c v).pending = s.pending ∧ (State.setCopy s c v).fuses = s.fuses := by
  unfold State.setCopy
  simp

@[simp] theorem programNow_keeps (s : State) (l : Nat) (page : Nat) (bs : List Byte) :
    (State.programNow s l page bs).pending = s.pending ∧ (State.programNow s l page bs).fuses = s.fuses := by
  unfold State.programNow
  simp

@[simp] theorem programLog_keeps (s : State) (c : Nat) (bs : List Byte) :
    (State.programLog s c bs).pending = s.pending ∧ (State.programLog s c bs).fuses = s.fuses := by
  unfold State.programLog
  simp

@[simp] theorem enterBlock_keeps (s : State) (c : Nat) (seq : Nat) :
    (State.enterBlock s c seq).pending = s.pending ∧ (State.enterBlock s c seq).fuses = s.fuses := by
  unfold State.enterBlock
  simp

@[simp] theorem abandonBlock_keeps (s : State) (c : Nat) (seq : Nat) :
    (State.abandonBlock s c seq).pending = s.pending ∧ (State.abandonBlock s c seq).fuses = s.fuses := by
  unfold State.abandonBlock
  simp

@[simp] theorem showJournal_keeps (s : State) :
    (State.showJournal s).pending = s.pending ∧ (State.showJournal s).fuses = s.fuses := by
  unfold State.showJournal
  simp

@[simp] theorem programRecords_keeps (s : State) (c : Nat) (seq : Nat) (x3 : List (List Byte)) :
    (State.programRecords s c seq x3).pending = s.pending ∧ (State.programRecords s c seq x3).fuses = s.fuses := by
  induction x3 generalizing s with
  | nil => unfold State.programRecords; simp
  | cons y ys ih => unfold State.programRecords; simp [ih]

@[simp] theorem writeTxn_keeps (s : State) (c : Nat) (seq : Nat) (owner : Nat) (cs : List Change) (checkpoint : Bool)
    (x6 : Nat) :
    (State.writeTxn s c seq owner cs checkpoint x6).pending = s.pending ∧
      (State.writeTxn s c seq owner cs checkpoint x6).fuses = s.fuses := by
  induction x6 generalizing s with
  | zero => unfold State.writeTxn; simp
  | succ k ih => unfold State.writeTxn; simp [ih]

@[simp] theorem writeBoth_keeps (s : State) (owner : Nat) (cs : List Change) (checkpoint : Bool) (fails0 : Nat)
    (fails1 : Nat) :
    (State.writeBoth s owner cs checkpoint fails0 fails1).pending = s.pending ∧
      (State.writeBoth s owner cs checkpoint fails0 fails1).fuses = s.fuses := by
  unfold State.writeBoth
  simp

@[simp] theorem setStaged_keeps (s : State) (l : List Change) :
    (State.setStaged s l).pending = s.pending ∧ (State.setStaged s l).fuses = s.fuses := by
  unfold State.setStaged
  simp

@[simp] theorem commitOwner_keeps (s : State) (owner : Nat) (fails0 : Nat) (fails1 : Nat) :
    (State.commitOwner s owner fails0 fails1).pending = s.pending ∧
      (State.commitOwner s owner fails0 fails1).fuses = s.fuses := by
  unfold State.commitOwner
  simp

@[simp] theorem countRuns_keeps (s : State) (addr : Nat) (len : Nat) :
    (State.countRuns s addr len).pending = s.pending ∧ (State.countRuns s addr len).fuses = s.fuses := by
  unfold State.countRuns
  simp

@[simp] theorem stage_keeps (s : State) (c : Change) :
    (State.stage s c).2.pending = s.pending ∧ (State.stage s c).2.fuses = s.fuses := by
  unfold State.stage
  try dsimp only
  (repeat' split) <;> simp

@[simp] theorem journalRecord_keeps (s : State) (id : Nat) (value : List Byte) (fails0 : Nat) (fails1 : Nat) :
    (State.journalRecord s id value fails0 fails1).2.pending = s.pending ∧
      (State.journalRecord s id value fails0 fails1).2.fuses = s.fuses := by
  unfold State.journalRecord
  try dsimp only
  (repeat' split) <;> simp

@[simp] theorem readBankWords_keeps (s : State) (n : Nat) (w : Nat) (x3 : Nat) :
    (State.readBankWords s n w x3).1.pending = s.pending ∧ (State.readBankWords s n w x3).1.fuses = s.fuses := by
  induction x3 generalizing s w with
  | zero => unfold State.readBankWords; simp
  | succ k ih =>
    unfold State.readBankWords
    split
    · have e := pair_fst ‹_ = (_, _)›; subst e; simp
    · have e := pair_fst ‹_ = (_, _)›; subst e
      split <;> (have e := pair_fst ‹_ = (_, _)›; subst e; simp [ih])

@[simp] theorem readBankBytes_keeps (s : State) (addr : Nat) (len : Nat) :
    (State.readBankBytes s addr len).1.pending = s.pending ∧ (State.readBankBytes s addr len).1.fuses = s.fuses := by
  unfold State.readBankBytes
  try dsimp only
  (repeat' split) <;> (try (have e := pair_fst ‹_ = (_, _)›; subst e)) <;> simp

@[simp] theorem useBank_keeps (s : State) (o : Nat) (addr : Nat) (len : Nat) :
    (State.useBank s o addr len).1.pending = s.pending ∧ (State.useBank s o addr len).1.fuses = s.fuses := by
  unfold State.useBank
  simp

@[simp] theorem writeBankWords_keeps (s : State) (n : Nat) (x2 : List (Nat × DWord)) :
    (State.writeBankWords s n x2).pending = s.pending ∧ (State.writeBankWords s n x2).fuses = s.fuses := by
  induction x2 generalizing s with
  | nil => unfold State.writeBankWords; simp
  | cons y ys ih => unfold State.writeBankWords; simp [ih]

@[simp] theorem writeBankBytes_keeps (s : State) (addr : Nat) (bs : List Byte) :
    (State.writeBankBytes s addr bs).pending = s.pending ∧ (State.writeBankBytes s addr bs).fuses = s.fuses := by
  unfold State.writeBankBytes
  simp

@[simp] theorem replyJournal_keeps (s : State) (m : Nat) (id : Nat) (value : List Byte) (fails0 : Nat) (fails1 : Nat) :
    (State.replyJournal s m id value fails0 fails1).pending = s.pending ∧
      (State.replyJournal s m id value fails0 fails1).fuses = s.fuses := by
  unfold State.replyJournal
  simp

@[simp] theorem showDegraded_keeps (s : State) :
    (State.showDegraded s).pending = s.pending ∧ (State.showDegraded s).fuses = s.fuses := by
  unfold State.showDegraded
  simp

end Sys2Proof.Machine
end

