-- ==== Sys2Proof/Laws/KeepsUnits.lean ====
section
/-! SUPPORT. What each operation keeps (KeepsBase): tests, handovers, lanes, safety, energy, power and register access. -/

namespace Sys2Proof.Machine

set_option Elab.async false

@[simp] theorem showTests_keeps (s : State) :
    (State.showTests s).pending = s.pending ∧ (State.showTests s).fuses = s.fuses := by
  unfold State.showTests
  simp

@[simp] theorem recordSlice_keeps (s : State) (t : SliceTest) (outcome : Nat) (cause : Nat) :
    (State.recordSlice s t outcome cause).pending = s.pending ∧
      (State.recordSlice s t outcome cause).fuses = s.fuses := by
  unfold State.recordSlice
  simp

@[simp] theorem replySlice_keeps (s : State) (m : Nat) (status : Nat) :
    (State.replySlice s m status).pending = s.pending ∧ (State.replySlice s m status).fuses = s.fuses := by
  unfold State.replySlice
  try dsimp only
  (repeat' split) <;> simp

@[simp] theorem endSlice_keeps (s : State) (g : Nat) (t : SliceTest) (outcome : Nat) (cause : Nat) :
    (State.endSlice s g t outcome cause).pending = s.pending ∧
      (State.endSlice s g t outcome cause).fuses = s.fuses := by
  unfold State.endSlice
  try dsimp only
  (repeat' split) <;> simp

@[simp] theorem abandonSlice_keeps (s : State) (g : Nat) :
    (State.abandonSlice s g).pending = s.pending ∧ (State.abandonSlice s g).fuses = s.fuses := by
  unfold State.abandonSlice
  try dsimp only
  (repeat' split) <;> simp

@[simp] theorem cutSlice_keeps (s : State) (g : Nat) (cause : Nat) :
    (State.cutSlice s g cause).pending = s.pending ∧ (State.cutSlice s g cause).fuses = s.fuses := by
  unfold State.cutSlice
  try dsimp only
  (repeat' split) <;> simp

@[simp] theorem unpark_keeps (s : State) (n : Nat) :
    (State.unpark s n).pending = s.pending ∧ (State.unpark s n).fuses = s.fuses := by
  unfold State.unpark
  try dsimp only
  simp (disch := (intros; (try dsimp only); (repeat' split) <;> (try (have e := pair_fst ‹_ = (_, _)›; subst e)) <;> simp; done))

@[simp] theorem beginPage_keeps (s : State) (g : Nat) (m : Nat) :
    (State.beginPage s g m).pending = s.pending ∧ (State.beginPage s g m).fuses = s.fuses := by
  unfold State.beginPage
  try dsimp only
  (repeat' split) <;> simp

@[simp] theorem showRecord_keeps (s : State) (i : Nat) (r : TestRecord) :
    (State.showRecord s i r).pending = s.pending ∧ (State.showRecord s i r).fuses = s.fuses := by
  unfold State.showRecord
  simp

@[simp] theorem dropSlices_keeps (s : State) :
    (State.dropSlices s).pending = s.pending ∧ (State.dropSlices s).fuses = s.fuses := by
  unfold State.dropSlices
  try dsimp only
  simp (disch := (intros; (try dsimp only); (repeat' split) <;> (try (have e := pair_fst ‹_ = (_, _)›; subst e)) <;> simp; done))

@[simp] theorem logTest_keeps (s : State) (r : TestRecord) :
    (State.logTest s r).pending = s.pending ∧ (State.logTest s r).fuses = s.fuses := by
  unfold State.logTest
  simp

@[simp] theorem sliceUnit_keeps (s : State) (g : Nat) (found : List (Nat × Nat)) :
    (State.sliceUnit s g found).pending = s.pending ∧ (State.sliceUnit s g found).fuses = s.fuses := by
  unfold State.sliceUnit
  dsimp only
  (repeat' split) <;> simp

@[simp] theorem testBlockStep_keeps (s : State) (w : Word) :
    (State.testBlockStep s w).pending = s.pending ∧ (State.testBlockStep s w).fuses = s.fuses := by
  unfold State.testBlockStep
  simp

@[simp] theorem testBlockSteps_keeps (s : State) (steps : List Word) (counts : List (Option Nat)) :
    (State.testBlockSteps s steps counts).pending = s.pending ∧
      (State.testBlockSteps s steps counts).fuses = s.fuses := by
  unfold State.testBlockSteps
  simp

@[simp] theorem noteHandover_keeps (s : State) (r : Resource) (old : Nat) (new : Nat) (owner : Nat) :
    (State.noteHandover s r old new owner).pending = s.pending ∧
      (State.noteHandover s r old new owner).fuses = s.fuses := by
  unfold State.noteHandover
  simp

@[simp] theorem putHolder_keeps (s : State) (x : Nat) (x2 : Resource) :
    (State.putHolder s x x2).pending = s.pending ∧ (State.putHolder s x x2).fuses = s.fuses := by
  unfold State.putHolder
  try dsimp only
  (repeat' split) <;> simp

@[simp] theorem holderChanged_keeps (s : State) (r : Resource) (old : Nat) (new : Nat) :
    (State.holderChanged s r old new).pending = s.pending ∧ (State.holderChanged s r old new).fuses = s.fuses := by
  unfold State.holderChanged
  try dsimp only
  (repeat' split) <;> simp

@[simp] theorem clearOnHandover_keeps (s : State) (n : Nat) :
    (State.clearOnHandover s n).pending = s.pending ∧ (State.clearOnHandover s n).fuses = s.fuses := by
  unfold State.clearOnHandover
  try dsimp only
  (repeat' split) <;> simp

@[simp] theorem handoverFlag_keeps (s : State) (x1 : Resource) :
    (State.handoverFlag s x1).pending = s.pending ∧ (State.handoverFlag s x1).fuses = s.fuses := by
  unfold State.handoverFlag
  try dsimp only
  (repeat' split) <;> simp

@[simp] theorem handedOver_keeps (s : State) (r : Resource) (o : Nat) (h : Nat) (new : Nat) (flag : Bool) :
    (State.handedOver s r o h new flag).pending = s.pending ∧ (State.handedOver s r o h new flag).fuses = s.fuses := by
  unfold State.handedOver
  simp

theorem handOver_keeps (s : State) (r : Resource) (o expect new : Nat) (flag : Bool) (t : State)
    (h : s.handOver r o expect new flag = .done t) : t.pending = s.pending ∧ t.fuses = s.fuses := by
  unfold State.handOver at h
  dsimp only at h
  (repeat' split at h) <;> first | (cases h; done) | (cases h; simp)
@[simp] theorem writeHandover_keeps (s : State) (r : Resource) (o : Nat) (v : Nat) :
    WroteKeeps s (State.writeHandover s r o v) := by
  unfold State.writeHandover
  split
  · simp
  · simp
  · simp
  · exact handOver_keeps _ _ _ _ _ _ _ ‹_›

@[simp] theorem loadOwners_keeps (s : State) :
    (State.loadOwners s).pending = s.pending ∧ (State.loadOwners s).fuses = s.fuses := by
  unfold State.loadOwners
  simp

@[simp] theorem putLcLock_keeps (s : State) (q : Nat) (p : Nat) (b : Bool) :
    (State.putLcLock s q p b).pending = s.pending ∧ (State.putLcLock s q p b).fuses = s.fuses := by
  unfold State.putLcLock
  simp

@[simp] theorem stopRclk_keeps (s : State) (l : Nat) :
    (State.stopRclk s l).pending = s.pending ∧ (State.stopRclk s l).fuses = s.fuses := by
  unfold State.stopRclk
  simp

@[simp] theorem dropLane_keeps (s : State) (l : Nat) (adapt : Nat) :
    (State.dropLane s l adapt).pending = s.pending ∧ (State.dropLane s l adapt).fuses = s.fuses := by
  unfold State.dropLane
  simp

@[simp] theorem dropLanesOf_keeps (s : State) (q : Nat) (p : Nat) :
    (State.dropLanesOf s q p).pending = s.pending ∧ (State.dropLanesOf s q p).fuses = s.fuses := by
  unfold State.dropLanesOf
  simp

@[simp] theorem writeLcPll_keeps (s : State) (q : Nat) (p : Nat) (o : Nat) (v : Nat) :
    WroteKeeps s (State.writeLcPll s q p o v) := by
  unfold State.writeLcPll
  try dsimp only
  (repeat' split) <;> simp

@[simp] theorem writeRclk_keeps (s : State) (q : Nat) (o : Nat) (v : Nat) :
    WroteKeeps s (State.writeRclk s q o v) := by
  unfold State.writeRclk
  try dsimp only
  (repeat' split) <;> simp

@[simp] theorem writeLaneCfg_keeps (s : State) (l : Nat) (o : Nat) (v : Nat) :
    WroteKeeps s (State.writeLaneCfg s l o v) := by
  unfold State.writeLaneCfg
  try dsimp only
  (repeat' split) <;> simp

@[simp] theorem writeEye_keeps (s : State) (l : Nat) (o : Nat) (v : Nat) :
    WroteKeeps s (State.writeEye s l o v) := by
  unfold State.writeEye
  try dsimp only
  (repeat' split) <;> simp

@[simp] theorem idleAllLanes_keeps (s : State) :
    (State.idleAllLanes s).pending = s.pending ∧ (State.idleAllLanes s).fuses = s.fuses := by
  unfold State.idleAllLanes
  simp

@[simp] theorem laneOffer_keeps (s : State) (l : Nat) (w : Option LaneWord) :
    (State.laneOffer s l w).pending = s.pending ∧ (State.laneOffer s l w).fuses = s.fuses := by
  unfold State.laneOffer
  try dsimp only
  (repeat' split) <;> simp

@[simp] theorem lanePresent_keeps (s : State) (l : Nat) :
    (State.lanePresent s l).pending = s.pending ∧ (State.lanePresent s l).fuses = s.fuses := by
  unfold State.lanePresent
  simp

@[simp] theorem quadLanesOff_keeps (s : State) (q : Nat) (keep : Bool) :
    (State.quadLanesOff s q keep).pending = s.pending ∧ (State.quadLanesOff s q keep).fuses = s.fuses := by
  unfold State.quadLanesOff
  simp

@[simp] theorem quadPowerDown_keeps (s : State) (q : Nat) (keep : Bool) :
    (State.quadPowerDown s q keep).pending = s.pending ∧ (State.quadPowerDown s q keep).fuses = s.fuses := by
  unfold State.quadPowerDown
  simp

@[simp] theorem quadPowerUp_keeps (s : State) (q : Nat) :
    (State.quadPowerUp s q).pending = s.pending ∧ (State.quadPowerUp s q).fuses = s.fuses := by
  unfold State.quadPowerUp
  simp

@[simp] theorem laneTick_keeps (s : State) :
    (State.laneTick s).pending = s.pending ∧ (State.laneTick s).fuses = s.fuses := by
  unfold State.laneTick
  try dsimp only
  simp (disch := (intros; (try dsimp only); (repeat' split) <;> (try (have e := pair_fst ‹_ = (_, _)›; subst e)) <;> simp; done))

@[simp] theorem idle_keeps (s : State) :
    (State.idle s).pending = s.pending ∧ (State.idle s).fuses = s.fuses := by
  unfold State.idle
  simp

@[simp] theorem laneTake_keeps (s : State) (l : Nat) (ws : List LaneWord) :
    (State.laneTake s l ws).pending = s.pending ∧ (State.laneTake s l ws).fuses = s.fuses := by
  unfold State.laneTake
  simp

@[simp] theorem laneErrors_keeps (s : State) (e : LaneEdge) :
    (State.laneErrors s e).pending = s.pending ∧ (State.laneErrors s e).fuses = s.fuses := by
  unfold State.laneErrors
  simp

@[simp] theorem laneEdge_keeps (s : State) (e : LaneEdge) :
    (State.laneEdge s e).pending = s.pending ∧ (State.laneEdge s e).fuses = s.fuses := by
  unfold State.laneEdge
  simp

@[simp] theorem putSource_keeps (s : State) (refsel : Nat) (khz : Nat) :
    (State.putSource s refsel khz).pending = s.pending ∧ (State.putSource s refsel khz).fuses = s.fuses := by
  unfold State.putSource
  simp

@[simp] theorem abortDoze_keeps (s : State) (reason : Nat) :
    (State.abortDoze s reason).pending = s.pending ∧ (State.abortDoze s reason).fuses = s.fuses := by
  unfold State.abortDoze
  simp

@[simp] theorem recordFault_keeps (s : State) (diag : Nat) (detail : Nat) (injected : Bool) :
    (State.recordFault s diag detail injected).pending = s.pending ∧
      (State.recordFault s diag detail injected).fuses = s.fuses := by
  unfold State.recordFault
  simp

@[simp] theorem leaveRows_keeps (s : State) :
    (State.leaveRows s).pending = s.pending ∧ (State.leaveRows s).fuses = s.fuses := by
  unfold State.leaveRows
  simp

@[simp] theorem cutProgram_keeps (s : State) :
    (State.cutProgram s).pending = s.pending ∧ (State.cutProgram s).fuses = s.fuses := by
  unfold State.cutProgram
  simp

@[simp] theorem safeReplies_keeps (s : State) :
    (State.safeReplies s).pending = s.pending ∧ (State.safeReplies s).fuses = s.fuses := by
  unfold State.safeReplies
  refine forEach_keeps _ _ _ fun t x => ?_
  split
  · simp
  · split <;> simp

@[simp] theorem stopLanes_keeps (s : State) :
    (State.stopLanes s).pending = s.pending ∧ (State.stopLanes s).fuses = s.fuses := by
  unfold State.stopLanes
  simp

@[simp] theorem enterSafe_keeps (s : State) (diag : Nat) (user : Nat) (injected : Bool) :
    (State.enterSafe s diag user injected).pending = s.pending ∧
      (State.enterSafe s diag user injected).fuses = s.fuses := by
  unfold State.enterSafe
  simp

@[simp] theorem danger_keeps (s : State) (diag : Nat) (detail : Nat) (value : Option Nat) (owner : Nat) (injected : Bool)
    (user : optParam Nat 0) :
    (State.danger s diag detail value owner injected user).pending = s.pending ∧
      (State.danger s diag detail value owner injected user).fuses = s.fuses := by
  unfold State.danger
  try dsimp only
  (repeat' split) <;> simp

@[simp] theorem contained_keeps (s : State) (diag : Nat) (detail : Nat) (value : Option Nat) (owner : Nat) (injected : Bool) :
    (State.contained s diag detail value owner injected).pending = s.pending ∧
      (State.contained s diag detail value owner injected).fuses = s.fuses := by
  unfold State.contained
  simp

@[simp] theorem takeLogEntry_keeps (s : State) :
    (State.takeLogEntry s).pending = s.pending ∧ (State.takeLogEntry s).fuses = s.fuses := by
  unfold State.takeLogEntry
  try dsimp only
  (repeat' split) <;> simp

@[simp] theorem drainLog_keeps (s : State) :
    (State.drainLog s).pending = s.pending ∧ (State.drainLog s).fuses = s.fuses := by
  unfold State.drainLog
  simp

@[simp] theorem recompute_keeps (s : State) :
    (State.recompute s).pending = s.pending ∧ (State.recompute s).fuses = s.fuses := by
  unfold State.recompute
  simp

@[simp] theorem writeArchivePage_keeps (s : State) :
    (State.writeArchivePage s).pending = s.pending ∧ (State.writeArchivePage s).fuses = s.fuses := by
  unfold State.writeArchivePage
  try dsimp only
  (repeat' split) <;> simp

@[simp] theorem writeArchive_keeps (s : State) (n : Nat) :
    (State.writeArchive s n).pending = s.pending ∧ (State.writeArchive s n).fuses = s.fuses := by
  unfold State.writeArchive
  simp

@[simp] theorem skipOld_keeps (s : State) :
    (State.skipOld s).pending = s.pending ∧ (State.skipOld s).fuses = s.fuses := by
  unfold State.skipOld
  simp

@[simp] theorem commitTxns_keeps (s : State) (x1 : List (Nat × List Change)) (x2 : List (Nat × Nat)) :
    (State.commitTxns s x1 x2).pending = s.pending ∧ (State.commitTxns s x1 x2).fuses = s.fuses := by
  induction x1 generalizing s x2 with
  | nil => unfold State.commitTxns; simp
  | cons y ys ih => unfold State.commitTxns; dsimp only; simp only [ih]; split <;> simp

@[simp] theorem commitOnVin_keeps (s : State) (cause : Nat) (fails : List (Nat × Nat)) :
    (State.commitOnVin s cause fails).pending = s.pending ∧ (State.commitOnVin s cause fails).fuses = s.fuses := by
  unfold State.commitOnVin
  simp

@[simp] theorem commitStaged_keeps (s : State) (fails : List (Nat × Nat)) :
    (State.commitStaged s fails).pending = s.pending ∧ (State.commitStaged s fails).fuses = s.fuses := by
  unfold State.commitStaged
  simp

@[simp] theorem setHuCopy_keeps (s : State) (c : Nat) (l : List PendingTxn) :
    (State.setHuCopy s c l).pending = s.pending ∧ (State.setHuCopy s c l).fuses = s.fuses := by
  unfold State.setHuCopy
  simp

@[simp] theorem huFail_keeps (s : State) (c : Nat) :
    (State.huFail s c).pending = s.pending ∧ (State.huFail s c).fuses = s.fuses := by
  unfold State.huFail
  try dsimp only
  (repeat' split) <;> simp

@[simp] theorem settleTxn_keeps (s : State) (c : Nat) (t : PendingTxn) :
    (State.settleTxn s c t).pending = s.pending ∧ (State.settleTxn s c t).fuses = s.fuses := by
  unfold State.settleTxn
  simp

@[simp] theorem huPage_keeps (s : State) (c : Nat) :
    (State.huPage s c).pending = s.pending ∧ (State.huPage s c).fuses = s.fuses := by
  unfold State.huPage
  try dsimp only
  (repeat' split) <;> simp

@[simp] theorem huRound_keeps (s : State) (c : Nat) (fail : Option (Fin 16)) :
    (State.huRound s c fail).pending = s.pending ∧ (State.huRound s c fail).fuses = s.fuses := by
  unfold State.huRound
  try dsimp only
  (repeat' split) <;> simp

@[simp] theorem huStop_keeps (s : State) (outcome : Nat) :
    (State.huStop s outcome).pending = s.pending ∧ (State.huStop s outcome).fuses = s.fuses := by
  unfold State.huStop
  simp

@[simp] theorem huStall_keeps (s : State) (u : StallUnit) :
    (State.huStall s u).pending = s.pending ∧ (State.huStall s u).fuses = s.fuses := by
  unfold State.huStall
  simp

@[simp] theorem logBytes_keeps (s : State) (l : Nat) (page : Nat) :
    (State.logBytes s l page).1.pending = s.pending ∧ (State.logBytes s l page).1.fuses = s.fuses := by
  unfold State.logBytes
  try dsimp only
  (repeat' split) <;> simp

@[simp] theorem blockPages_keeps (s : State) (l : Nat) (newest : Bool) :
    (State.blockPages s l newest).1.pending = s.pending ∧ (State.blockPages s l newest).1.fuses = s.fuses := by
  unfold State.blockPages
  simp

@[simp] theorem logHeaders_keeps (s : State) (c : Nat) :
    (State.logHeaders s c).1.pending = s.pending ∧ (State.logHeaders s c).1.fuses = s.fuses := by
  unfold State.logHeaders
  simp

@[simp] theorem stableLog_keeps (s : State) (l : Nat) (page : Nat) :
    (State.stableLog s l page).1.pending = s.pending ∧ (State.stableLog s l page).1.fuses = s.fuses := by
  unfold State.stableLog
  try dsimp only
  (repeat' split) <;> simp

@[simp] theorem erasedAhead_keeps (s : State) (c : Nat) (b : Nat) (x3 : Nat) :
    (State.erasedAhead s c b x3).1.pending = s.pending ∧ (State.erasedAhead s c b x3).1.fuses = s.fuses := by
  induction x3 generalizing s b with
  | zero => simp only [State.erasedAhead, and_self]
  | succ n ih =>
    rw [State.erasedAhead]
    dsimp only
    split
    · exact ih _ _
    · generalize List.range 64 = ps
      refine foldl_fst_keeps ps (fun a p => if a.1.pageKind ((Partition.settings c).base + (b + 1) % 64) p = .undefined then
          (if (a.1.stability ((Partition.settings c).base + (b + 1) % 64) p).2.erased then
            ((a.1.stability ((Partition.settings c).base + (b + 1) % 64) p).1, a.2)
          else ((a.1.stability ((Partition.settings c).base + (b + 1) % 64) p).1.putFlag .SLT_BLK_WEAR_UNSTABLE true
            ((Partition.settings c).base + (b + 1) % 64), false))
        else (a.1, a.2 && a.1.pageKind ((Partition.settings c).base + (b + 1) % 64) p == .erased)) (s, true) fun t x => ?_
      split
      · split <;> simp
      · simp

@[simp] theorem followLog_keeps (s : State) (c : Nat) (b : Nat) (hs : List (Nat × Nat)) :
    (State.followLog s c b hs).1.pending = s.pending ∧ (State.followLog s c b hs).1.fuses = s.fuses := by
  unfold State.followLog
  try dsimp only
  (repeat' split) <;> simp

@[simp] theorem recoverCopy_keeps (s : State) (c : Nat) :
    (State.recoverCopy s c).1.pending = s.pending ∧ (State.recoverCopy s c).1.fuses = s.fuses := by
  unfold State.recoverCopy
  try dsimp only
  (repeat' split) <;> simp

@[simp] theorem recoverJournal_keeps (s : State) :
    (State.recoverJournal s).pending = s.pending ∧ (State.recoverJournal s).fuses = s.fuses := by
  unfold State.recoverJournal
  simp

@[simp] theorem acceptOff_keeps (s : State) (o : Orderly) (force : Bool) :
    (State.acceptOff s o force).pending = s.pending ∧ (State.acceptOff s o force).fuses = s.fuses := by
  unfold State.acceptOff
  simp

@[simp] theorem eraseRetained_keeps (s : State) :
    (State.eraseRetained s).pending = s.pending ∧ (State.eraseRetained s).fuses = s.fuses := by
  unfold State.eraseRetained
  simp

@[simp] theorem showFuses_keeps (s : State) :
    (State.showFuses s).pending = s.pending ∧ (State.showFuses s).fuses = s.fuses := by
  unfold State.showFuses
  simp

@[simp] theorem blowState_keeps (s : State) (n : Nat) :
    (State.blowState s n).pending = s.pending := by
  unfold State.blowState
  simp

@[simp] theorem enterOff_keeps (s : State) :
    (State.enterOff s).pending = s.pending ∧ (State.enterOff s).fuses = s.fuses := by
  unfold State.enterOff
  simp

@[simp] theorem startLoads_keeps (s : State) :
    (State.startLoads s).pending = s.pending ∧ (State.startLoads s).fuses = s.fuses := by
  unfold State.startLoads
  simp

@[simp] theorem beginDoze_keeps (s : State) :
    (State.beginDoze s).pending = s.pending ∧ (State.beginDoze s).fuses = s.fuses := by
  unfold State.beginDoze
  simp

@[simp] theorem readRecord_keeps (s : State) :
    (State.readRecord s).1.pending = s.pending ∧ (State.readRecord s).1.fuses = s.fuses := by
  unfold State.readRecord
  try dsimp only
  (repeat' split) <;> simp

@[simp] theorem loadAttachment_keeps (s : State) :
    (State.loadAttachment s).pending = s.pending ∧ (State.loadAttachment s).fuses = s.fuses := by
  unfold State.loadAttachment
  simp

@[simp] theorem loadExtents_keeps (s : State) :
    (State.loadExtents s).pending = s.pending ∧ (State.loadExtents s).fuses = s.fuses := by
  unfold State.loadExtents
  simp

@[simp] theorem loadRemap_keeps (s : State) :
    (State.loadRemap s).pending = s.pending ∧ (State.loadRemap s).fuses = s.fuses := by
  unfold State.loadRemap
  try dsimp only
  (repeat' split) <;> simp

@[simp] theorem loadStores_keeps (s : State) :
    (State.loadStores s).pending = s.pending ∧ (State.loadStores s).fuses = s.fuses := by
  unfold State.loadStores
  simp

@[simp] theorem startBoot_keeps (s : State) (skip : Bool) :
    (State.startBoot s skip).pending = s.pending ∧ (State.startBoot s skip).fuses = s.fuses := by
  unfold State.startBoot
  simp

@[simp] theorem selectImages_keeps (s : State) :
    (State.selectImages s).pending = s.pending ∧ (State.selectImages s).fuses = s.fuses := by
  rw [State.selectImages.eq_1]
  have h := findDirectory_keeps s
  generalize s.findDirectory = r at h ⊢
  obtain ⟨t, found⟩ := r
  dsimp only at h ⊢
  simp [h]

@[simp] theorem settleEpoch_keeps (s : State) :
    (State.settleEpoch s).pending = s.pending ∧ (State.settleEpoch s).fuses = s.fuses := by
  unfold State.settleEpoch
  simp

@[simp] theorem bootRecords_keeps (s : State) :
    (State.bootRecords s).pending = s.pending ∧ (State.bootRecords s).fuses = s.fuses := by
  rw [State.bootRecords.eq_1]
  have h := readRecord_keeps s.loadStores
  generalize s.loadStores.readRecord = r at h ⊢
  simp [h]

@[simp] theorem eraseBlocks_keeps (s : State) (ls : List Nat) :
    (State.eraseBlocks s ls).pending = s.pending ∧ (State.eraseBlocks s ls).fuses = s.fuses := by
  unfold State.eraseBlocks
  simp

@[simp] theorem eraseReturned_keeps (s : State) :
    (State.eraseReturned s).pending = s.pending ∧ (State.eraseReturned s).fuses = s.fuses := by
  have h1 : ∀ t : State, ({ t with journal := { t.journal with copy0 := {}, copy1 := {} } } : State).pending = t.pending :=
    fun _ => rfl
  have h2 : ∀ t : State, ({ t with journal := { t.journal with copy0 := {}, copy1 := {} } } : State).fuses = t.fuses :=
    fun _ => rfl
  rw [State.eraseReturned.eq_1]
  exact ⟨(h1 _).trans (eraseBlocks_keeps ..).1, (h2 _).trans (eraseBlocks_keeps ..).2⟩

@[simp] theorem returnFuses_keeps (s : State) :
    (State.returnFuses s).pending = s.pending := by
  unfold State.returnFuses
  simp

@[simp] theorem completeReturn_keeps (s : State) :
    (State.completeReturn s).pending = s.pending := by
  rw [State.completeReturn.eq_1]
  split
  · rfl
  · have h := eraseReturned_keeps s.returnFuses
    generalize s.returnFuses.eraseReturned = t at h ⊢
    exact (showFuses_keeps t).1.trans (h.1.trans (returnFuses_keeps s))

@[simp] theorem repairFlags_keeps (s : State) :
    (State.repairFlags s).pending = s.pending := by
  unfold State.repairFlags
  simp

@[simp] theorem bootFuses_keeps (s : State) :
    (State.bootFuses s).pending = s.pending := by
  unfold State.bootFuses
  simp

@[simp] theorem continueLog_keeps (s : State) :
    (State.continueLog s).pending = s.pending ∧ (State.continueLog s).fuses = s.fuses := by
  unfold State.continueLog
  simp

@[simp] theorem bootStart_keeps (s : State) :
    (State.bootStart s).pending = s.pending ∧ (State.bootStart s).fuses = s.fuses := by
  unfold State.bootStart
  simp

@[simp] theorem boot_keeps (s : State) :
    (State.boot s).pending = s.pending := by
  unfold State.boot
  simp

@[simp] theorem completeDoze_keeps (s : State) :
    (State.completeDoze s).pending = s.pending ∧ (State.completeDoze s).fuses = s.fuses := by
  unfold State.completeDoze
  simp

@[simp] theorem dropWaiting_keeps (s : State) :
    (State.dropWaiting s).pending = s.pending ∧ (State.dropWaiting s).fuses = s.fuses := by
  unfold State.dropWaiting
  simp

@[simp] theorem exitDoze_keeps (s : State) :
    (State.exitDoze s).pending = s.pending ∧ (State.exitDoze s).fuses = s.fuses := by
  unfold State.exitDoze
  simp

@[simp] theorem stopFabric_keeps (s : State) :
    (State.stopFabric s).pending = s.pending ∧ (State.stopFabric s).fuses = s.fuses := by
  unfold State.stopFabric
  simp

@[simp] theorem writeCalInject_keeps (s : State) (o : Nat) (v : Nat) :
    WroteKeeps s (State.writeCalInject s o v) := by
  unfold State.writeCalInject
  try dsimp only
  (repeat' split) <;> simp

@[simp] theorem correctZone_keeps (s : State) (z : Nat) (c : BitVec 8) :
    (State.correctZone s z c).pending = s.pending ∧ (State.correctZone s z c).fuses = s.fuses := by
  unfold State.correctZone
  simp

@[simp] theorem setSeen_keeps (s : State) (loop : Nat) (b : Bool) :
    (State.setSeen s loop b).pending = s.pending ∧ (State.setSeen s loop b).fuses = s.fuses := by
  unfold State.setSeen
  simp

@[simp] theorem discardWindow_keeps (s : State) :
    (State.discardWindow s).pending = s.pending ∧ (State.discardWindow s).fuses = s.fuses := by
  unfold State.discardWindow
  simp

@[simp] theorem moveCorrection_keeps (s : State) (target : ℤ) :
    (State.moveCorrection s target).pending = s.pending ∧ (State.moveCorrection s target).fuses = s.fuses := by
  unfold State.moveCorrection
  simp

@[simp] theorem loseSource_keeps (s : State) :
    (State.loseSource s).pending = s.pending ∧ (State.loseSource s).fuses = s.fuses := by
  unfold State.loseSource
  simp

@[simp] theorem discipline_keeps (s : State) (rs : List RefSeen) :
    (State.discipline s rs).pending = s.pending ∧ (State.discipline s rs).fuses = s.fuses := by
  unfold State.discipline
  try dsimp only
  (repeat' split) <;> simp

@[simp] theorem outOfBounds_keeps (s : State) (loop : Nat) (cause : Nat) (detail : Nat) (injected : Bool) :
    (State.outOfBounds s loop cause detail injected).pending = s.pending ∧
      (State.outOfBounds s loop cause detail injected).fuses = s.fuses := by
  unfold State.outOfBounds
  simp

@[simp] theorem evaluate_keeps (s : State) (loop : Nat) (found : List (Nat × Nat)) :
    (State.evaluate s loop found).pending = s.pending ∧ (State.evaluate s loop found).fuses = s.fuses := by
  unfold State.evaluate
  simp

@[simp] theorem sampleZone_keeps (s : State) (z : Nat) (main : BitVec 12) (check : BitVec 12) :
    (State.sampleZone s z main check).pending = s.pending ∧ (State.sampleZone s z main check).fuses = s.fuses := by
  unfold State.sampleZone
  simp

@[simp] theorem sourceDown_keeps (s : State) (k : Nat) :
    (State.sourceDown s k).pending = s.pending ∧ (State.sourceDown s k).fuses = s.fuses := by
  unfold State.sourceDown
  simp

theorem execSpineRateMeasure_keeps (mtps : BitVec 16) (s : State) :
    OutKeeps s (execSpineRateMeasure mtps s) := by
  unfold execSpineRateMeasure
  try dsimp only
  (repeat' split) <;> simp

theorem execMarginProbe_keeps (percent : Fin 101) (s : State) :
    OutKeeps s (execMarginProbe percent s) := by
  unfold execMarginProbe
  try dsimp only
  (repeat' split) <;> simp

theorem execReferenceOscillatorWindow_keeps (complete : Bool) (refs : List (Fin 4 × ℤ × Nat)) (umber : BitVec 21)
    (s : State) :
    OutKeeps s (execReferenceOscillatorWindow complete refs umber s) := by
  unfold execReferenceOscillatorWindow
  try dsimp only
  (repeat' split) <;> simp

theorem execCorrectionHoldExpiry_keeps (s : State) :
    OutKeeps s (execCorrectionHoldExpiry s) := by
  unfold execCorrectionHoldExpiry
  try dsimp only
  (repeat' split) <;> simp

theorem execSlateReadReferenceWindow_keeps (b : Fin 8) (image : Bool) (onesAsZero : Nat) (zerosAsOne : Nat)
    (s : State) :
    OutKeeps s (execSlateReadReferenceWindow b image onesAsZero zerosAsOne s) := by
  unfold execSlateReadReferenceWindow
  try dsimp only
  (repeat' split) <;> simp

theorem execEnergyMeterWindow_keeps (complete : Bool) (vin : BitVec 8) (int : BitVec 8) (ext : BitVec 8)
    (gain : BitVec 8) (s : State) :
    OutKeeps s (execEnergyMeterWindow complete vin int ext gain s) := by
  unfold execEnergyMeterWindow
  try dsimp only
  (repeat' split) <;> simp

theorem execThermalWindow_keeps (complete : Bool) (zones : List (Fin 19 × BitVec 8)) (s : State) :
    OutKeeps s (execThermalWindow complete zones s) := by
  unfold execThermalWindow
  try dsimp only
  (repeat' split) <;> simp

theorem execThermalSample_keeps (zones : List (Fin 19 × BitVec 12 × BitVec 12)) (s : State) :
    OutKeeps s (execThermalSample zones s) := by
  unfold execThermalSample
  try dsimp only
  (repeat' split) <;> simp

@[simp] theorem writeMarking_keeps (s : State) (value : Fld) (fixed : Fld) (allowed : Nat → Bool) (o : Nat) (v : Nat) :
    WroteKeeps s (State.writeMarking s value fixed allowed o v) := by
  unfold State.writeMarking
  try dsimp only
  (repeat' split) <;> simp

@[simp] theorem writeCfgCrit_keeps (s : State) (o : Nat) (v : Nat) :
    WroteKeeps s (State.writeCfgCrit s o v) := by
  unfold State.writeCfgCrit
  simp

@[simp] theorem writePllCrit_keeps (s : State) (o : Nat) (v : Nat) :
    WroteKeeps s (State.writePllCrit s o v) := by
  unfold State.writePllCrit
  simp

@[simp] theorem writeIoCrit_keeps (s : State) (o : Nat) (v : Nat) :
    WroteKeeps s (State.writeIoCrit s o v) := by
  unfold State.writeIoCrit
  simp

@[simp] theorem writeSafReq_keeps (s : State) (o : Nat) (v : Nat) :
    WroteKeeps s (State.writeSafReq s o v) := by
  unfold State.writeSafReq
  try dsimp only
  (repeat' split) <;> simp

@[simp] theorem passOverdue_keeps (s : State) (n : Nat) (injected : Bool) :
    (State.passOverdue s n injected).pending = s.pending ∧ (State.passOverdue s n injected).fuses = s.fuses := by
  unfold State.passOverdue
  simp

@[simp] theorem classify_keeps (s : State) (marked : Bool) (diag : Nat) (detail : Nat) (value : Option Nat) (owner : Nat)
    (injected : Bool) :
    (State.classify s marked diag detail value owner injected).pending = s.pending ∧
      (State.classify s marked diag detail value owner injected).fuses = s.fuses := by
  unfold State.classify
  simp

@[simp] theorem pllLoss_keeps (s : State) (k : Nat) (reference : Bool) (injected : Bool) :
    (State.pllLoss s k reference injected).pending = s.pending ∧
      (State.pllLoss s k reference injected).fuses = s.fuses := by
  unfold State.pllLoss
  simp

@[simp] theorem gioShort_keeps (s : State) (n : Nat) (driven : Bool) (pad : Bool) (injected : Bool) :
    (State.gioShort s n driven pad injected).pending = s.pending ∧
      (State.gioShort s n driven pad injected).fuses = s.fuses := by
  unfold State.gioShort
  simp

@[simp] theorem noteFio_keeps (s : State) (n : Nat) (kind : Nat) (injected : Bool) :
    (State.noteFio s n kind injected).pending = s.pending ∧ (State.noteFio s n kind injected).fuses = s.fuses := by
  unfold State.noteFio
  simp

@[simp] theorem fioTrip_keeps (s : State) (n : Nat) (mA : Nat) (injected : Bool) :
    (State.fioTrip s n mA injected).pending = s.pending ∧ (State.fioTrip s n mA injected).fuses = s.fuses := by
  unfold State.fioTrip
  simp

@[simp] theorem lockstepMismatch_keeps (s : State) (injected : Bool) :
    (State.lockstepMismatch s injected).pending = s.pending ∧ (State.lockstepMismatch s injected).fuses = s.fuses := by
  unfold State.lockstepMismatch
  simp

@[simp] theorem inject_keeps (s : State) (diag : Nat) (index : Nat) :
    (State.inject s diag index).pending = s.pending ∧ (State.inject s diag index).fuses = s.fuses := by
  unfold State.inject
  try dsimp only
  (repeat' split) <;> simp

@[simp] theorem writeSafInject_keeps (s : State) (o : Nat) (v : Nat) :
    WroteKeeps s (State.writeSafInject s o v) := by
  unfold State.writeSafInject
  try dsimp only
  (repeat' split) <;> simp

@[simp] theorem groupTrip_keeps (s : State) (g : Nat) (mA : Nat) :
    (State.groupTrip s g mA).pending = s.pending ∧ (State.groupTrip s g mA).fuses = s.fuses := by
  unfold State.groupTrip
  simp

@[simp] theorem writeDecerrCount_keeps (s : State) (o : Nat) (v : Nat) :
    WroteKeeps s (State.writeDecerrCount s o v) := by
  unfold State.writeDecerrCount
  try dsimp only
  (repeat' split) <;> simp

@[simp] theorem writeReqTail_keeps (s : State) (m : Nat) (o : Nat) (v : Nat) :
    WroteKeeps s (State.writeReqTail s m o v) := by
  unfold State.writeReqTail
  try dsimp only
  (repeat' split) <;> simp

@[simp] theorem writeRspHead_keeps (s : State) (m : Nat) (o : Nat) (v : Nat) :
    WroteKeeps s (State.writeRspHead s m o v) := by
  unfold State.writeRspHead
  try dsimp only
  (repeat' split) <;> simp

@[simp] theorem clearMail_keeps (s : State) (m : Nat) :
    (State.clearMail s m).pending = s.pending ∧ (State.clearMail s m).fuses = s.fuses := by
  unfold State.clearMail
  try dsimp only
  (repeat' split) <;> simp

@[simp] theorem writeMailCtl_keeps (s : State) (m : Nat) (o : Nat) (v : Nat) :
    WroteKeeps s (State.writeMailCtl s m o v) := by
  unfold State.writeMailCtl
  try dsimp only
  (repeat' split) <;> simp

@[simp] theorem writeMailRo_keeps (s : State) (m : Nat) (o : Nat) :
    WroteKeeps s (State.writeMailRo s m o) := by
  unfold State.writeMailRo
  try dsimp only
  (repeat' split) <;> simp

@[simp] theorem writeEpErrCount_keeps (s : State) (k : Nat) (o : Nat) (v : Nat) :
    WroteKeeps s (State.writeEpErrCount s k o v) := by
  unfold State.writeEpErrCount
  try dsimp only
  (repeat' split) <;> simp

@[simp] theorem writeScrubInject_keeps (s : State) (o : Nat) (v : Nat) :
    WroteKeeps s (State.writeScrubInject s o v) := by
  unfold State.writeScrubInject
  try dsimp only
  (repeat' split) <;> simp

@[simp] theorem writeFair_keeps (s : State) (o : Nat) (v : Nat) :
    WroteKeeps s (State.writeFair s o v) := by
  unfold State.writeFair
  try dsimp only
  (repeat' split) <;> simp

@[simp] theorem writeStallInject_keeps (s : State) (o : Nat) (v : Nat) :
    WroteKeeps s (State.writeStallInject s o v) := by
  unfold State.writeStallInject
  try dsimp only
  (repeat' split) <;> simp

@[simp] theorem writePortTimer_keeps (s : State) (p : Nat) (o : Nat) (v : Nat) :
    WroteKeeps s (State.writePortTimer s p o v) := by
  unfold State.writePortTimer
  try dsimp only
  (repeat' split) <;> simp

@[simp] theorem flipRow_keeps (s : State) (n : Nat) (w : Nat) (mask : BitVec 72) :
    (State.flipRow s n w mask).pending = s.pending ∧ (State.flipRow s n w mask).fuses = s.fuses := by
  unfold State.flipRow
  simp

@[simp] theorem writeBankInject_keeps (s : State) (n : Nat) (o : Nat) (v : Nat) :
    WroteKeeps s (State.writeBankInject s n o v) := by
  unfold State.writeBankInject
  try dsimp only
  (repeat' split) <;> simp

@[simp] theorem writePark_keeps (s : State) (q : Nat) (o : Nat) (v : Nat) :
    WroteKeeps s (State.writePark s q o v) := by
  unfold State.writePark
  try dsimp only
  (repeat' split) <;> simp

@[simp] theorem writeRingPlain_keeps (s : State) (f : Fld) (r : Nat) (o : Nat) (v : Nat) :
    WroteKeeps s (State.writeRingPlain s f r o v) := by
  unfold State.writeRingPlain
  try dsimp only
  (repeat' split) <;> simp

@[simp] theorem writeRingRo_keeps (s : State) (r : Nat) (o : Nat) :
    WroteKeeps s (State.writeRingRo s r o) := by
  unfold State.writeRingRo
  try dsimp only
  (repeat' split) <;> simp

@[simp] theorem writeVeto_keeps (s : State) (i : Nat) (o : Nat) (v : Nat) :
    WroteKeeps s (State.writeVeto s i o v) := by
  unfold State.writeVeto
  try dsimp only
  (repeat' split) <;> simp

@[simp] theorem writeWakeEn_keeps (s : State) (o : Nat) (v : Nat) :
    WroteKeeps s (State.writeWakeEn s o v) := by
  unfold State.writeWakeEn
  try dsimp only
  (repeat' split) <;> simp

@[simp] theorem writePllRef_keeps (s : State) (k : Nat) (o : Nat) (v : Nat) :
    WroteKeeps s (State.writePllRef s k o v) := by
  unfold State.writePllRef
  try dsimp only
  (repeat' split) <;> simp

@[simp] theorem writePllOut_keeps (s : State) (i : Nat) (o : Nat) (v : Nat) :
    WroteKeeps s (State.writePllOut s i o v) := by
  unfold State.writePllOut
  try dsimp only
  (repeat' split) <;> simp

@[simp] theorem writePllBand_keeps (s : State) (i : Nat) (o : Nat) (v : Nat) :
    WroteKeeps s (State.writePllBand s i o v) := by
  unfold State.writePllBand
  try dsimp only
  (repeat' split) <;> simp

@[simp] theorem writeTmbCtl_keeps (s : State) (o : Nat) (v : Nat) :
    WroteKeeps s (State.writeTmbCtl s o v) := by
  unfold State.writeTmbCtl
  try dsimp only
  (repeat' split) <;> simp

@[simp] theorem writeAlarmStage_keeps (s : State) (f : Fld) (a : Nat) (o : Nat) (v : Nat) :
    WroteKeeps s (State.writeAlarmStage s f a o v) := by
  unfold State.writeAlarmStage
  try dsimp only
  (repeat' split) <;> simp

@[simp] theorem writeQuadRo_keeps (s : State) (q : Nat) (o : Nat) :
    WroteKeeps s (State.writeQuadRo s q o) := by
  unfold State.writeQuadRo
  try dsimp only
  (repeat' split) <;> simp

@[simp] theorem writeLaneRo_keeps (s : State) (l : Nat) (o : Nat) :
    WroteKeeps s (State.writeLaneRo s l o) := by
  unfold State.writeLaneRo
  try dsimp only
  (repeat' split) <;> simp

@[simp] theorem writeTestStat_keeps (s : State) (o : Nat) (v : Nat) :
    WroteKeeps s (State.writeTestStat s o v) := by
  unfold State.writeTestStat
  try dsimp only
  (repeat' split) <;> simp

@[simp] theorem writeGioRearm_keeps (s : State) (b : Nat) (o : Nat) (v : Nat) :
    WroteKeeps s (State.writeGioRearm s b o v) := by
  unfold State.writeGioRearm
  try dsimp only
  (repeat' split) <;> simp

@[simp] theorem rearmField_keeps (s : State) (g : Nat) (mask : Nat) :
    (State.rearmField s g mask).pending = s.pending ∧ (State.rearmField s g mask).fuses = s.fuses := by
  unfold State.rearmField
  simp

@[simp] theorem writeFioRearm_keeps (s : State) (g : Nat) (o : Nat) (v : Nat) :
    WroteKeeps s (State.writeFioRearm s g o v) := by
  unfold State.writeFioRearm
  try dsimp only
  (repeat' split) <;> simp

@[simp] theorem writeFioWake_keeps (s : State) (g : Nat) (o : Nat) (v : Nat) :
    WroteKeeps s (State.writeFioWake s g o v) := by
  unfold State.writeFioWake
  try dsimp only
  (repeat' split) <;> simp

@[simp] theorem writeReg_keeps (s : State) (r : Reg) (i : Nat) (high : Bool) (wide : Bool) (o : Nat) (v : Nat) :
    WroteKeeps s (State.writeReg s r i high wide o v) := by
  unfold State.writeReg
  try dsimp only
  (repeat' split) <;> simp

@[simp] theorem writeRequest_keeps (s : State) (m : Nat) (w : Nat) (o : Nat) (v : Nat) :
    WroteKeeps s (State.writeRequest s m w o v) := by
  unfold State.writeRequest
  try dsimp only
  (repeat' split) <;> simp

@[simp] theorem writeReplyRing_keeps (s : State) (m : Nat) (o : Nat) :
    WroteKeeps s (State.writeReplyRing s m o) := by
  unfold State.writeReplyRing
  try dsimp only
  (repeat' split) <;> simp

@[simp] theorem writeAt_keeps (s : State) (o : Nat) (wide : Bool) (v : Nat) (x4 : Located) :
    WroteKeeps s (State.writeAt s o wide v x4) := by
  unfold State.writeAt
  try dsimp only
  (repeat' split) <;> simp

@[simp] theorem writeChecked_keeps (s : State) (o : Nat) (off : Nat) (w : Width) (v : Nat) (p : Located) :
    (State.writeChecked s o off w v p).1.pending = s.pending ∧
      (State.writeChecked s o off w v p).1.fuses = s.fuses := by
  have h := writeAt_keeps s o (w == .w64) v p
  unfold State.writeChecked
  extract_lets narrow cas
  revert h
  generalize s.writeAt o (w == .w64) v p = out
  intro h
  (repeat' split) <;> simp_all [finishWrite_keeps]

@[simp] theorem setLatch_keeps (s : State) (port : Nat) (off : Nat) (v : Option Nat) :
    (State.setLatch s port off v).pending = s.pending ∧ (State.setLatch s port off v).fuses = s.fuses := by
  unfold State.setLatch
  simp

@[simp] theorem latchDetails_keeps (s : State) (port : Nat) (r : Reg) (i : Nat) (v : Nat) :
    (State.latchDetails s port r i v).pending = s.pending ∧ (State.latchDetails s port r i v).fuses = s.fuses := by
  unfold State.latchDetails
  try dsimp only
  (repeat' split) <;> simp

@[simp] theorem readReg_keeps (s : State) (port : Nat) (o : Nat) (r : Reg) (i : Nat) (high : Bool) (wide : Bool) :
    (State.readReg s port o r i high wide).1.pending = s.pending ∧
      (State.readReg s port o r i high wide).1.fuses = s.fuses := by
  unfold State.readReg
  try dsimp only
  (repeat' split) <;> simp

@[simp] theorem readLog_keeps (s : State) (port : Nat) (slot : Nat) (w : Nat) (wide : Bool) :
    (State.readLog s port slot w wide).1.pending = s.pending ∧
      (State.readLog s port slot w wide).1.fuses = s.fuses := by
  unfold State.readLog
  try dsimp only
  (repeat' split) <;> simp

@[simp] theorem readAt_keeps (s : State) (port : Nat) (o : Nat) (wide : Bool) (x4 : Located) :
    (State.readAt s port o wide x4).1.pending = s.pending ∧ (State.readAt s port o wide x4).1.fuses = s.fuses := by
  unfold State.readAt
  try dsimp only
  (repeat' split) <;> simp

@[simp] theorem controlAt_keeps (s : State) (port : Nat) (o : Nat) (off : Nat) (p : Option Located) (w : Width) (ask : Ask) :
    (State.controlAt s port o off p w ask).1.pending = s.pending ∧
      (State.controlAt s port o off p w ask).1.fuses = s.fuses := by
  unfold State.controlAt
  try dsimp only
  (repeat' split) <;> simp

@[simp] theorem controlBy_keeps (s : State) (who : Requester) (off : Nat) (p : Option Located) (w : Width) (ask : Ask) :
    (State.controlBy s who off p w ask).1.pending = s.pending ∧
      (State.controlBy s who off p w ask).1.fuses = s.fuses := by
  unfold State.controlBy
  try dsimp only
  (repeat' split) <;> simp

@[simp] theorem accessAt_keeps (s : State) (who : Requester) (off : Nat) (p : Option Located) (w : Width) (ask : Ask) :
    (State.accessAt s who off p w ask).pending = s.pending ∧ (State.accessAt s who off p w ask).fuses = s.fuses := by
  unfold State.accessAt
  try dsimp only
  (repeat' split) <;> simp

@[simp] theorem access_keeps (s : State) (who : Requester) (off : Nat) (w : Width) (ask : Ask) :
    (State.access s who off w ask).pending = s.pending ∧ (State.access s who off w ask).fuses = s.fuses := by
  unfold State.access
  simp

@[simp] theorem control_keeps (s : State) (port : Nat) (o : Nat) (off : Nat) (w : Width) (ask : Ask) :
    (State.control s port o off w ask).1.pending = s.pending ∧
      (State.control s port o off w ask).1.fuses = s.fuses := by
  unfold State.control
  simp

@[simp] theorem controlTxn_keeps (s : State) (t : Txn) :
    (State.controlTxn s t).1.pending = s.pending ∧ (State.controlTxn s t).1.fuses = s.fuses := by
  unfold State.controlTxn
  simp

@[simp] theorem writeAs_keeps (s : State) (who : Requester) (r : Reg) (i : Nat) (v : Word) :
    (State.writeAs s who r i v).pending = s.pending ∧ (State.writeAs s who r i v).fuses = s.fuses := by
  unfold State.writeAs
  simp

@[simp] theorem captureEndpoint_keeps (s : State) (k : Nat) (addr : Nat) (c : Resp) (write : Bool) :
    (State.captureEndpoint s k addr c write).pending = s.pending ∧
      (State.captureEndpoint s k addr c write).fuses = s.fuses := by
  unfold State.captureEndpoint
  simp

@[simp] theorem putEndpoint_keeps (s : State) (k : Nat) (e : Endpoint) :
    (State.putEndpoint s k e).pending = s.pending ∧ (State.putEndpoint s k e).fuses = s.fuses := by
  unfold State.putEndpoint
  simp

@[simp] theorem putConfig_keeps (s : State) (k : Nat) (w : Nat) (v : Word) :
    (State.putConfig s k w v).pending = s.pending ∧ (State.putConfig s k w v).fuses = s.fuses := by
  unfold State.putConfig
  simp

@[simp] theorem reportAer_keeps (s : State) (k : Nat) :
    (State.reportAer s k).pending = s.pending ∧ (State.reportAer s k).fuses = s.fuses := by
  unfold State.reportAer
  simp

@[simp] theorem completeTo_keeps (s : State) (k : Nat) (a : Answer) :
    (State.completeTo s k a).pending = s.pending ∧ (State.completeTo s k a).fuses = s.fuses := by
  unfold State.completeTo
  simp

@[simp] theorem finishTlp_keeps (s : State) (t : BarTlp) :
    (State.finishTlp s t).pending = s.pending ∧ (State.finishTlp s t).fuses = s.fuses := by
  unfold State.finishTlp
  simp

@[simp] theorem barResponse_keeps (s : State) (id : Nat) (part : Nat) (x : Txn) (bs : List BeatOut) :
    (State.barResponse s id part x bs).pending = s.pending ∧ (State.barResponse s id part x bs).fuses = s.fuses := by
  unfold State.barResponse
  try dsimp only
  (repeat' split) <;> simp

@[simp] theorem startTlp_keeps (s : State) (k : Nat) (write : Bool) (base : Nat) (ds : List Dw) :
    (State.startTlp s k write base ds).pending = s.pending ∧ (State.startTlp s k write base ds).fuses = s.fuses := by
  unfold State.startTlp
  simp

@[simp] theorem writeMsix_keeps (s : State) (k : Nat) (w : Nat) (v : Word) :
    (State.writeMsix s k w v).pending = s.pending ∧ (State.writeMsix s k w v).fuses = s.fuses := by
  unfold State.writeMsix
  simp

@[simp] theorem darkHost_keeps (s : State) (k : Nat) :
    (State.darkHost s k).pending = s.pending ∧ (State.darkHost s k).fuses = s.fuses := by
  unfold State.darkHost
  simp

@[simp] theorem discardBar_keeps (s : State) (k : Nat) :
    (State.discardBar s k).pending = s.pending ∧ (State.discardBar s k).fuses = s.fuses := by
  unfold State.discardBar
  simp

@[simp] theorem hostReset_keeps (s : State) (k : Nat) (cause : Nat) :
    (State.hostReset s k cause).pending = s.pending ∧ (State.hostReset s k cause).fuses = s.fuses := by
  unfold State.hostReset
  simp

@[simp] theorem writeConfig_keeps (s : State) (k : Nat) (w : Nat) (d : Dw) :
    (State.writeConfig s k w d).pending = s.pending ∧ (State.writeConfig s k w d).fuses = s.fuses := by
  unfold State.writeConfig
  simp

@[simp] theorem configRequest_keeps (s : State) (k : Nat) (w : Nat) (write : Bool) (d : Dw) :
    (State.configRequest s k w write d).pending = s.pending ∧ (State.configRequest s k w write d).fuses = s.fuses := by
  unfold State.configRequest
  simp

@[simp] theorem barTlp_keeps (s : State) (k : Nat) (b : Bar) (off : Nat) (write : Bool) (ds : List Dw) :
    (State.barTlp s k b off write ds).pending = s.pending ∧ (State.barTlp s k b off write ds).fuses = s.fuses := by
  unfold State.barTlp
  try dsimp only
  (repeat' split) <;> simp

@[simp] theorem dropLink_keeps (s : State) (k : Nat) :
    (State.dropLink s k).pending = s.pending ∧ (State.dropLink s k).fuses = s.fuses := by
  unfold State.dropLink
  simp

@[simp] theorem linkActivity_keeps (s : State) (k : Nat) :
    (State.linkActivity s k).pending = s.pending ∧ (State.linkActivity s k).fuses = s.fuses := by
  unfold State.linkActivity
  simp

@[simp] theorem putSpi_keeps (s : State) (p : Spi) :
    (State.putSpi s p).pending = s.pending ∧ (State.putSpi s p).fuses = s.fuses := by
  unfold State.putSpi
  simp

@[simp] theorem noteSpi_keeps (s : State) (c : Resp) :
    (State.noteSpi s c).pending = s.pending ∧ (State.noteSpi s c).fuses = s.fuses := by
  unfold State.noteSpi
  simp

@[simp] theorem spiReadWord_keeps (s : State) (off : Nat) :
    (State.spiReadWord s off).1.pending = s.pending ∧ (State.spiReadWord s off).1.fuses = s.fuses := by
  unfold State.spiReadWord
  simp

@[simp] theorem spiReadWords_keeps (s : State) (off : Nat) (x2 : Nat) :
    (State.spiReadWords s off x2).1.pending = s.pending ∧ (State.spiReadWords s off x2).1.fuses = s.fuses := by
  induction x2 generalizing s off with
  | zero => unfold State.spiReadWords; simp
  | succ k ih => unfold State.spiReadWords; simp [ih]

@[simp] theorem spiWriteWord_keeps (s : State) (off : Nat) (v : Word) :
    (State.spiWriteWord s off v).pending = s.pending ∧ (State.spiWriteWord s off v).fuses = s.fuses := by
  unfold State.spiWriteWord
  try dsimp only
  (repeat' split) <;> simp

@[simp] theorem answerDecerr_keeps (s : State) (t : Txn) (cause : Bool) :
    (State.answerDecerr s t cause).pending = s.pending ∧ (State.answerDecerr s t cause).fuses = s.fuses := by
  unfold State.answerDecerr
  simp

@[simp] theorem controlRequest_keeps (s : State) (t : Txn) :
    (State.controlRequest s t).pending = s.pending ∧ (State.controlRequest s t).fuses = s.fuses := by
  unfold State.controlRequest
  dsimp only
  split
  · simp
  · split <;> simp

@[simp] theorem bankWriteBeats_keeps (s : State) (n : Nat) (w : Nat) (x3 : List BeatIn) :
    (State.bankWriteBeats s n w x3).1.pending = s.pending ∧ (State.bankWriteBeats s n w x3).1.fuses = s.fuses := by
  induction x3 generalizing s w with
  | nil => unfold State.bankWriteBeats; simp
  | cons y ys ih => unfold State.bankWriteBeats; simp [ih]

@[simp] theorem bankReadBeats_keeps (s : State) (n : Nat) (w : Nat) (x3 : List BeatIn) :
    (State.bankReadBeats s n w x3).1.pending = s.pending ∧ (State.bankReadBeats s n w x3).1.fuses = s.fuses := by
  induction x3 generalizing s w with
  | nil => unfold State.bankReadBeats; simp
  | cons y ys ih => unfold State.bankReadBeats; simp [ih]

@[simp] theorem bankTxn_keeps (s : State) (t : Txn) (n : Nat) (off : Nat) :
    (State.bankTxn s t n off).pending = s.pending ∧ (State.bankTxn s t n off).fuses = s.fuses := by
  unfold State.bankTxn
  simp

@[simp] theorem answerCode_keeps (s : State) (t : Txn) (c : Resp) :
    (State.answerCode s t c).pending = s.pending ∧ (State.answerCode s t c).fuses = s.fuses := by
  unfold State.answerCode
  try dsimp only
  (repeat' split) <;> simp

@[simp] theorem regionRequest_keeps (s : State) (t : Txn) (p : Nat) :
    (State.regionRequest s t p).pending = s.pending ∧ (State.regionRequest s t p).fuses = s.fuses := by
  unfold State.regionRequest
  simp

@[simp] theorem hostRequest_keeps (s : State) (t : Txn) (k : Nat) (a : Nat) :
    (State.hostRequest s t k a).pending = s.pending ∧ (State.hostRequest s t k a).fuses = s.fuses := by
  unfold State.hostRequest
  simp

@[simp] theorem admitTxn_keeps (s : State) (t : Txn) :
    (State.admitTxn s t).pending = s.pending ∧ (State.admitTxn s t).fuses = s.fuses := by
  unfold State.admitTxn
  try dsimp only
  (repeat' split) <;> simp

@[simp] theorem forget_keeps (s : State) (id : Nat) :
    (State.forget s id).pending = s.pending ∧ (State.forget s id).fuses = s.fuses := by
  unfold State.forget
  simp

@[simp] theorem noteDiscard_keeps (s : State) (p : Nat) :
    (State.noteDiscard s p).pending = s.pending ∧ (State.noteDiscard s p).fuses = s.fuses := by
  unfold State.noteDiscard
  simp

@[simp] theorem deliver_keeps (s : State) (t : Txn) (bs : List BeatOut) :
    (State.deliver s t bs).pending = s.pending ∧ (State.deliver s t bs).fuses = s.fuses := by
  unfold State.deliver
  try dsimp only
  (repeat' split) <;> simp

@[simp] theorem arrive_keeps (s : State) (a : Answered) :
    (State.arrive s a).pending = s.pending ∧ (State.arrive s a).fuses = s.fuses := by
  unfold State.arrive
  simp

@[simp] theorem cutIngress_keeps (s : State) (p : Nat) :
    (State.cutIngress s p).pending = s.pending ∧ (State.cutIngress s p).fuses = s.fuses := by
  unfold State.cutIngress
  simp

@[simp] theorem designAnswer_keeps (s : State) (p : Nat) (t : Txn) (beats : List (Nat × BitVec 256)) :
    (State.designAnswer s p t beats).pending = s.pending ∧ (State.designAnswer s p t beats).fuses = s.fuses := by
  unfold State.designAnswer
  simp

@[simp] theorem mapTxn_keeps (s : State) (id : Nat) (f : Txn → Txn) :
    (State.mapTxn s id f).pending = s.pending ∧ (State.mapTxn s id f).fuses = s.fuses := by
  unfold State.mapTxn
  simp

@[simp] theorem expire_keeps (s : State) (t : Txn) :
    (State.expire s t).pending = s.pending ∧ (State.expire s t).fuses = s.fuses := by
  unfold State.expire
  try dsimp only
  (repeat' split) <;> simp

@[simp] theorem notePassed_keeps (s : State) (t : Nat) (others : List Nat) :
    (State.notePassed s t others).pending = s.pending ∧ (State.notePassed s t others).fuses = s.fuses := by
  unfold State.notePassed
  simp

@[simp] theorem issueTxn_keeps (s : State) (t : Nat) (x : Txn) :
    (State.issueTxn s t x).pending = s.pending ∧ (State.issueTxn s t x).fuses = s.fuses := by
  unfold State.issueTxn
  simp

@[simp] theorem grantCredit_keeps (s : State) (t : Nat) :
    (State.grantCredit s t).pending = s.pending ∧ (State.grantCredit s t).fuses = s.fuses := by
  unfold State.grantCredit
  try dsimp only
  (repeat' split) <;> simp

@[simp] theorem refuseTxn_keeps (s : State) (t : Txn) :
    (State.refuseTxn s t).pending = s.pending ∧ (State.refuseTxn s t).fuses = s.fuses := by
  unfold State.refuseTxn
  simp

@[simp] theorem submit_keeps (s : State) (src : Nat) (owner : Nat) (kind : TxnKind) (addr : Nat) (beats : List BeatIn)
    (user : Consumer) :
    (State.submit s src owner kind addr beats user).pending = s.pending ∧
      (State.submit s src owner kind addr beats user).fuses = s.fuses := by
  unfold State.submit
  simp

@[simp] theorem iniRequest_keeps (s : State) (p : Nat) (d : Nat) (write : Bool) (a : Nat) (beats : List BeatIn) :
    (State.iniRequest s p d write a beats).pending = s.pending ∧
      (State.iniRequest s p d write a beats).fuses = s.fuses := by
  unfold State.iniRequest
  try dsimp only
  (repeat' split) <;> simp

@[simp] theorem recordStall_keeps (s : State) (u : StallUnit) (injected : Bool) :
    (State.recordStall s u injected).pending = s.pending ∧ (State.recordStall s u injected).fuses = s.fuses := by
  unfold State.recordStall
  simp

@[simp] theorem stall_keeps (s : State) (u : StallUnit) :
    (State.stall s u).pending = s.pending ∧ (State.stall s u).fuses = s.fuses := by
  unfold State.stall
  try dsimp only
  (repeat' split) <;> simp

@[simp] theorem transferIni_keeps (s : State) (p : Nat) (o : IniOpen) (bs : List BeatIn) :
    (State.transferIni s p o bs).pending = s.pending ∧ (State.transferIni s p o bs).fuses = s.fuses := by
  unfold State.transferIni
  simp

@[simp] theorem endUnits_keeps (s : State) (m : Nat) (p : Packet) (status : Nat) (results : List Word) :
    (State.endUnits s m p status results).pending = s.pending ∧
      (State.endUnits s m p status results).fuses = s.fuses := by
  unfold State.endUnits
  simp

@[simp] theorem endDirectory_keeps (s : State) (m : Nat) (p : Packet) :
    (State.endDirectory s m p).pending = s.pending ∧ (State.endDirectory s m p).fuses = s.fuses := by
  unfold State.endDirectory
  try dsimp only
  (repeat' split) <;> simp

@[simp] theorem unitProgram_keeps (s : State) (m : Nat) (p : Packet) (l : Nat) (page : Nat) (ws : List DWord) :
    (State.unitProgram s m p l page ws).pending = s.pending ∧ (State.unitProgram s m p l page ws).fuses = s.fuses := by
  unfold State.unitProgram
  simp

@[simp] theorem unitErase_keeps (s : State) (m : Nat) (p : Packet) (l : Nat) :
    (State.unitErase s m p l).pending = s.pending ∧ (State.unitErase s m p l).fuses = s.fuses := by
  unfold State.unitErase
  simp

@[simp] theorem programDir_keeps (s : State) (m : Nat) (p : Packet) (d : Directory) (pos : Nat) :
    (State.programDir s m p d pos).pending = s.pending ∧ (State.programDir s m p d pos).fuses = s.fuses := by
  unfold State.programDir
  simp

@[simp] theorem directoryUnit_keeps (s : State) (m : Nat) (p : Packet) (erase : Bool) (ok : Bool) :
    (State.directoryUnit s m p erase ok).pending = s.pending ∧
      (State.directoryUnit s m p erase ok).fuses = s.fuses := by
  unfold State.directoryUnit
  try dsimp only
  (repeat' split) <;> simp

@[simp] theorem nextUnit_keeps (s : State) (m : Nat) (p : Packet) (erased : Bool) :
    (State.nextUnit s m p erased).pending = s.pending ∧ (State.nextUnit s m p erased).fuses = s.fuses := by
  unfold State.nextUnit
  simp

@[simp] theorem putPointer_keeps (s : State) (p : Packet) (v : Nat) :
    (State.putPointer s p v).pending = s.pending ∧ (State.putPointer s p v).fuses = s.fuses := by
  unfold State.putPointer
  simp

@[simp] theorem imageUnit_keeps (s : State) (m : Nat) (p : Packet) (erase : Bool) (ok : Bool) :
    (State.imageUnit s m p erase ok).pending = s.pending ∧ (State.imageUnit s m p erase ok).fuses = s.fuses := by
  unfold State.imageUnit
  simp

@[simp] theorem userUnit_keeps (s : State) (m : Nat) (p : Packet) (ok : Bool) :
    (State.userUnit s m p ok).pending = s.pending ∧ (State.userUnit s m p ok).fuses = s.fuses := by
  unfold State.userUnit
  simp

@[simp] theorem unitEnds_keeps (s : State) (u : FlashUnit) (ok : Bool) :
    (State.unitEnds s u ok).pending = s.pending ∧ (State.unitEnds s u ok).fuses = s.fuses := by
  unfold State.unitEnds
  try dsimp only
  (repeat' split) <;> simp

@[simp] theorem updateDirectory_keeps (s : State) (m : Nat) (p : Packet) (d : Directory) (results : List Nat) :
    (State.updateDirectory s m p d results).pending = s.pending ∧
      (State.updateDirectory s m p d results).fuses = s.fuses := by
  unfold State.updateDirectory
  simp

end Sys2Proof.Machine
end

