-- ==== Sys2Proof/Laws/KeepsCmdsA.lean ====
section
/-! SUPPORT. What each operation keeps (KeepsBase): the meanings of the power, clock, bank, DMA, host, image and JTAG commands. -/

namespace Sys2Proof.Machine

set_option Elab.async false

theorem execBnkOwnerHandover_keeps (who : Requester) (n : Fin 128) (expect : BitVec 8) (new : BitVec 8) (clr : Bool)
    (s : State) :
    OutKeeps s (execBnkOwnerHandover who n expect new clr s) := by
  unfold execBnkOwnerHandover
  simp

theorem execAttRegionParentHandover_keeps (who : Requester) (k : Fin 16) (expect : BitVec 8) (new : BitVec 8)
    (wipe : Bool) (s : State) :
    OutKeeps s (execAttRegionParentHandover who k expect new wipe s) := by
  unfold execAttRegionParentHandover
  simp

theorem execAttGroupParentHandover_keeps (who : Requester) (g : Fin 64) (expect : BitVec 8) (new : BitVec 8)
    (clr : Bool) (s : State) :
    OutKeeps s (execAttGroupParentHandover who g expect new clr s) := by
  unfold execAttGroupParentHandover
  simp

theorem execClearOnHandover_keeps (n : Fin 128) (s : State) :
    OutKeeps s (execClearOnHandover n s) := by
  unfold execClearOnHandover
  try dsimp only
  (repeat' split) <;> simp

theorem execOwnRead_keeps (m : Fin 5) (s : State) :
    OutKeeps s (execOwnRead m s) := by
  unfold execOwnRead
  simp

theorem execOwnHandover_keeps (m : Fin 5) (s : State) :
    OutKeeps s (execOwnHandover m s) := by
  unfold execOwnHandover
  apply command_out
  intro p
  dsimp only
  split
  · simp
  · split
    · simp
    · split
      · simp
      · simp
      · simp
      · have h := handOver_keeps _ _ _ _ _ _ _ ‹_›
        split <;> simp [h]

theorem execOwnRecordGet_keeps (m : Fin 5) (s : State) :
    OutKeeps s (execOwnRecordGet m s) := by
  unfold execOwnRecordGet
  simp

theorem execOwnRecordSet_keeps (m : Fin 5) (fails0 : Nat) (fails1 : Nat) (s : State) :
    OutKeeps s (execOwnRecordSet m fails0 fails1 s) := by
  unfold execOwnRecordSet
  simp

@[simp] theorem answerWord_keeps (s : State) (c : Resp) (words : List Word) :
    (State.answerWord s c words).pending = s.pending ∧ (State.answerWord s c words).fuses = s.fuses := by
  unfold State.answerWord
  simp

theorem execBankRead_keeps (who : Requester) (n : Fin 128) (w : BitVec 16) (s : State) :
    OutKeeps s (execBankRead who n w s) := by
  unfold execBankRead
  try dsimp only
  (repeat' split) <;> (try (have e := pair_fst ‹_ = (_, _)›; subst e)) <;> simp

theorem execBankWrite_keeps (who : Requester) (n : Fin 128) (w : BitVec 16) (data : BitVec 64) (whole : Bool)
    (s : State) :
    OutKeeps s (execBankWrite who n w data whole s) := by
  unfold execBankWrite
  try dsimp only
  (repeat' split) <;> simp

theorem execScrubStep_keeps (n : Fin 128) (s : State) :
    OutKeeps s (execScrubStep n s) := by
  unfold execScrubStep
  try dsimp only
  (repeat' split) <;> simp

theorem execScrubPassOverdue_keeps (n : Fin 128) (s : State) :
    OutKeeps s (execScrubPassOverdue n s) := by
  unfold execScrubPassOverdue
  try dsimp only
  (repeat' split) <;> simp

theorem execBankClear_keeps (g : Fin 16) (s : State) :
    OutKeeps s (execBankClear g s) := by
  unfold execBankClear
  try dsimp only
  (repeat' split) <;> simp

theorem execBankClearDone_keeps (g : Fin 16) (s : State) :
    OutKeeps s (execBankClearDone g s) := by
  unfold execBankClearDone
  try dsimp only
  (repeat' split) <;> simp

theorem execBnkInject_keeps (who : Requester) (n : Fin 128) (word : BitVec 16) (bitA : BitVec 7) (bitB : BitVec 7)
    (double : Bool) (s : State) :
    OutKeeps s (execBnkInject who n word bitA bitB double s) := by
  unfold execBnkInject
  simp

theorem execBnkParkWrite_keeps (who : Requester) (q : Fin 4) (bankA : Fin 128) (validA : Bool) (bankB : Fin 128)
    (validB : Bool) (s : State) :
    OutKeeps s (execBnkParkWrite who q bankA validA bankB validB s) := by
  unfold execBnkParkWrite
  simp

@[simp] theorem sendAlarm_keeps (s : State) (a : Nat) :
    (State.sendAlarm s a).pending = s.pending ∧ (State.sendAlarm s a).fuses = s.fuses := by
  unfold State.sendAlarm
  simp

theorem execPllApply_keeps (who : Requester) (k : Fin 16) (m : BitVec 6) (n : BitVec 10) (s : State) :
    OutKeeps s (execPllApply who k m n s) := by
  unfold execPllApply
  simp

theorem execReferenceWindow_keeps (k : Fin 16) (khz : BitVec 19) (s : State) :
    OutKeeps s (execReferenceWindow k khz s) := by
  unfold execReferenceWindow
  simp

theorem execPllLock_keeps (k : Fin 16) (s : State) :
    OutKeeps s (execPllLock k s) := by
  unfold execPllLock
  simp

theorem execPllQualified_keeps (k : Fin 16) (s : State) :
    OutKeeps s (execPllQualified k s) := by
  unfold execPllQualified
  simp

theorem execPllLoss_keeps (k : Fin 16) (reference : Bool) (s : State) :
    OutKeeps s (execPllLoss k reference s) := by
  unfold execPllLoss
  simp

theorem execPllSet_keeps (m : Fin 5) (s : State) :
    OutKeeps s (execPllSet m s) := by
  unfold execPllSet
  apply command_out
  intro p
  dsimp only
  have h1 := tryPll_keeps s (p.p 0) p.pllSetting
  have h2 := tryPll_keeps (s.stagePll (p.p 0) p.pllSetting) (p.p 0) p.pllSetting
  revert h1 h2
  generalize s.tryPll (p.p 0) p.pllSetting = w
  generalize (s.stagePll (p.p 0) p.pllSetting).tryPll (p.p 0) p.pllSetting = v
  intro h1 h2
  cases w <;> cases v <;> (repeat' split) <;> simp_all

theorem execPllSetTimeout_keeps (m : Fin 5) (s : State) :
    OutKeeps s (execPllSetTimeout m s) := by
  unfold execPllSetTimeout
  try dsimp only
  (repeat' split) <;> simp

theorem execPllBootSet_keeps (m : Fin 5) (fails0 : Nat) (fails1 : Nat) (s : State) :
    OutKeeps s (execPllBootSet m fails0 fails1 s) := by
  unfold execPllBootSet
  simp

theorem execPllBandLoad_keeps (m : Fin 5) (s : State) :
    OutKeeps s (execPllBandLoad m s) := by
  unfold execPllBandLoad
  simp

theorem execTmbSample_keeps (m : Fin 5) (s : State) :
    OutKeeps s (execTmbSample m s) := by
  unfold execTmbSample
  simp

theorem execAlarmArm_keeps (who : Requester) (a : Fin 5) (vector : BitVec 11) (clear : Bool) (s : State) :
    OutKeeps s (execAlarmArm who a vector clear s) := by
  unfold execAlarmArm
  simp

theorem execAlarmDisarm_keeps (who : Requester) (a : Fin 5) (vector : BitVec 11) (clear : Bool) (s : State) :
    OutKeeps s (execAlarmDisarm who a vector clear s) := by
  unfold execAlarmDisarm
  simp

theorem execAlarmFire_keeps (a : Fin 5) (s : State) :
    OutKeeps s (execAlarmFire a s) := by
  unfold execAlarmFire
  simp

theorem execClrUncert_keeps (who : Requester) (s : State) :
    OutKeeps s (execClrUncert who s) := by
  unfold execClrUncert
  simp

@[simp] theorem writeCtl_keeps (s : State) (who : Requester) (r : Nat) (enable : Bool) (halt : Bool) (resume : Bool) :
    (State.writeCtl s who r enable halt resume).pending = s.pending ∧
      (State.writeCtl s who r enable halt resume).fuses = s.fuses := by
  unfold State.writeCtl
  simp

theorem execDmaDoorbell_keeps (who : Requester) (r : Fin 8192) (tail : BitVec 32) (s : State) :
    OutKeeps s (execDmaDoorbell who r tail s) := by
  unfold execDmaDoorbell
  simp

theorem execRingEnable_keeps (who : Requester) (r : Fin 8192) (size : BitVec 5) (vector : BitVec 11) (s : State) :
    OutKeeps s (execRingEnable who r size vector s) := by
  unfold execRingEnable
  simp

theorem execRingDisable_keeps (who : Requester) (r : Fin 8192) (s : State) :
    OutKeeps s (execRingDisable who r s) := by
  unfold execRingDisable
  simp

theorem execRingHalt_keeps (who : Requester) (r : Fin 8192) (s : State) :
    OutKeeps s (execRingHalt who r s) := by
  unfold execRingHalt
  simp

theorem execRingResume_keeps (who : Requester) (r : Fin 8192) (s : State) :
    OutKeeps s (execRingResume who r s) := by
  unfold execRingResume
  simp

theorem execDmaIssue_keeps (p : Fin 8) (s : State) :
    OutKeeps s (execDmaIssue p s) := by
  unfold execDmaIssue
  try dsimp only
  (repeat' split) <;> simp

theorem execDescriptorStart_keeps (r : Fin 8192) (i : Fin 8) (s : State) :
    OutKeeps s (execDescriptorStart r i s) := by
  unfold execDescriptorStart
  try dsimp only
  (repeat' split) <;> simp

theorem execChainNext_keeps (r : Fin 8192) (i : Fin 8) (s : State) :
    OutKeeps s (execChainNext r i s) := by
  unfold execChainNext
  try dsimp only
  (repeat' split) <;> simp

theorem execCompletionWrite_keeps (r : Fin 8192) (s : State) :
    OutKeeps s (execCompletionWrite r s) := by
  unfold execCompletionWrite
  try dsimp only
  (repeat' split) <;> simp

theorem execMsixSend_keeps (r : Fin 8192) (s : State) :
    OutKeeps s (execMsixSend r s) := by
  unfold execMsixSend
  try dsimp only
  (repeat' split) <;> simp

theorem execAttKeyChange_keeps (who : Requester) (e : Fin 32768) (expect : BitVec 8) (new : BitVec 8) (s : State) :
    OutKeeps s (execAttKeyChange who e expect new s) := by
  unfold execAttKeyChange
  simp

theorem execAttMapWrite_keeps (who : Requester) (e : Fin 32768) (rd : Bool) (wr : Bool) (base : BitVec 32)
    (limit : BitVec 16) (s : State) :
    OutKeeps s (execAttMapWrite who e rd wr base limit s) := by
  unfold execAttMapWrite
  simp

theorem execAttSweep_keeps (s : State) :
    OutKeeps s (execAttSweep s) := by
  unfold execAttSweep
  try dsimp only
  (repeat' split) <;> simp

@[simp] theorem orderlyOff_keeps (s : State) (o : Orderly) :
    (State.orderlyOff s o).pending = s.pending ∧ (State.orderlyOff s o).fuses = s.fuses := by
  unfold State.orderlyOff
  simp

@[simp] theorem replyOrderly_keeps (s : State) (o : Orderly) (status : Nat) :
    (State.replyOrderly s o status).pending = s.pending ∧ (State.replyOrderly s o status).fuses = s.fuses := by
  unfold State.replyOrderly
  try dsimp only
  (repeat' split) <;> simp

@[simp] theorem advance_keeps (s : State) (o : Orderly) (lc : Nat) :
    (State.advance s o lc).pending = s.pending := by
  unfold State.advance
  simp

@[simp] theorem runProgram_keeps (s : State) (program : Nat) (steps : List Word) :
    (State.runProgram s program steps).pending = s.pending ∧ (State.runProgram s program steps).fuses = s.fuses := by
  unfold State.runProgram
  simp

@[simp] theorem logDomain_keeps (s : State) (kind : Nat) (index : Nat) (on : Bool) :
    (State.logDomain s kind index on).pending = s.pending ∧ (State.logDomain s kind index on).fuses = s.fuses := by
  unfold State.logDomain
  simp

@[simp] theorem groupOff_keeps (s : State) (g : Nat) :
    (State.groupOff s g).pending = s.pending ∧ (State.groupOff s g).fuses = s.fuses := by
  rw [State.groupOff]
  have f := forEach_keeps (s.groupPowerDown g) (List.range 4) (fun s q =>
    let s := if groupOfBank (s.get .BNK_PARK_BANK_A q) = g then s.putFlag .BNK_PARK_VALID_A false q else s
    if groupOfBank (s.get .BNK_PARK_BANK_B q) = g then s.putFlag .BNK_PARK_VALID_B false q else s)
    fun t x => by dsimp only; (repeat' split) <;> simp
  simp [f]

@[simp] theorem regionDown_keeps (s : State) (k : Nat) :
    (State.regionDown s k).pending = s.pending ∧ (State.regionDown s k).fuses = s.fuses := by
  unfold State.regionDown
  simp

@[simp] theorem regionUp_keeps (s : State) (k : Nat) :
    (State.regionUp s k).pending = s.pending ∧ (State.regionUp s k).fuses = s.fuses := by
  unfold State.regionUp
  simp

@[simp] theorem shutdownTest_keeps (s : State) (o : Orderly) :
    (State.shutdownTest s o).pending = s.pending ∧ (State.shutdownTest s o).fuses = s.fuses := by
  unfold State.shutdownTest
  simp

theorem execVinGood_keeps (s : State) :
    OutQueue s (execVinGood s) := by
  unfold execVinGood
  try dsimp only
  (repeat' split) <;> simp

theorem execTimebaseSwitch_keeps (s : State) :
    OutKeeps s (execTimebaseSwitch s) := by
  unfold execTimebaseSwitch
  try dsimp only
  (repeat' split) <;> simp

theorem execPwrDoze_keeps (m : Fin 5) (s : State) :
    OutKeeps s (execPwrDoze m s) := by
  unfold execPwrDoze
  try dsimp only
  (repeat' split) <;> simp

theorem execDozeEntryComplete_keeps (s : State) :
    OutKeeps s (execDozeEntryComplete s) := by
  unfold execDozeEntryComplete
  try dsimp only
  (repeat' split) <;> simp

theorem execDozeWake_keeps (source : WakeSource) (s : State) :
    OutKeeps s (execDozeWake source s) := by
  unfold execDozeWake
  try dsimp only
  (repeat' split) <;> simp

theorem execDozeExit_keeps (s : State) :
    OutKeeps s (execDozeExit s) := by
  unfold execDozeExit
  try dsimp only
  (repeat' split) <;> simp

theorem execPwrRegion_keeps (m : Fin 5) (s : State) :
    OutKeeps s (execPwrRegion m s) := by
  unfold execPwrRegion
  apply command_out
  intro p
  try dsimp only
  (repeat' split) <;> simp

theorem execPwrBankGroup_keeps (m : Fin 5) (s : State) :
    OutKeeps s (execPwrBankGroup m s) := by
  unfold execPwrBankGroup
  simp

theorem execPwrQuad_keeps (m : Fin 5) (s : State) :
    OutKeeps s (execPwrQuad m s) := by
  unfold execPwrQuad
  apply command_out
  intro p
  try dsimp only
  (repeat' split) <;> simp

theorem execDevShutdown_keeps (m : Fin 5) (s : State) :
    OutKeeps s (execDevShutdown m s) := by
  unfold execDevShutdown
  apply command_out
  intro p
  try dsimp only
  (repeat' split) <;> simp

theorem execDevReboot_keeps (m : Fin 5) (s : State) :
    OutKeeps s (execDevReboot m s) := by
  unfold execDevReboot
  apply command_out
  intro p
  try dsimp only
  (repeat' split) <;> simp

theorem execOrderlyCommit_keeps (fails : List (Nat × Nat)) (s : State) :
    OutQueue s (execOrderlyCommit fails s) := by
  unfold execOrderlyCommit
  try dsimp only
  (repeat' split) <;> simp

theorem execRestart_keeps (nresetHigh : Bool) (vinGood : Bool) (s : State) :
    OutQueue s (execRestart nresetHigh vinGood s) := by
  unfold execRestart
  try dsimp only
  (repeat' split) <;> simp

theorem execVinOff_keeps (s : State) :
    OutKeeps s (execVinOff s) := by
  unfold execVinOff
  try dsimp only
  (repeat' split) <;> simp

theorem execNresetIn_keeps (s : State) :
    OutKeeps s (execNresetIn s) := by
  unfold execNresetIn
  try dsimp only
  (repeat' split) <;> simp

theorem execRetentionLoss_keeps (s : State) :
    OutKeeps s (execRetentionLoss s) := by
  unfold execRetentionLoss
  try dsimp only
  (repeat' split) <;> simp

@[simp] theorem takeCapacitance_keeps (s : State) (ext : Bool) (cap : Nat) (method : Nat) :
    (State.takeCapacitance s ext cap method).pending = s.pending ∧
      (State.takeCapacitance s ext cap method).fuses = s.fuses := by
  unfold State.takeCapacitance
  simp

@[simp] theorem capForCommand_keeps (s : State) (m : Nat) (p : Packet) (ext : Bool) (cap : Nat) :
    (State.capForCommand s m p ext cap).pending = s.pending ∧ (State.capForCommand s m p ext cap).fuses = s.fuses := by
  unfold State.capForCommand
  try dsimp only
  (repeat' split) <;> simp

@[simp] theorem capTimeouts_keeps (s : State) :
    (State.capTimeouts s).pending = s.pending ∧ (State.capTimeouts s).fuses = s.fuses := by
  unfold State.capTimeouts
  refine forEach_keeps _ _ _ fun t x => ?_
  split
  · dsimp only; split <;> simp
  · simp

@[simp] theorem closeHoldup_keeps (s : State) :
    (State.closeHoldup s).pending = s.pending ∧ (State.closeHoldup s).fuses = s.fuses := by
  unfold State.closeHoldup
  simp

@[simp] theorem countEnergy_keeps (s : State) (d : Nat) (pj : Nat) :
    (State.countEnergy s d pj).pending = s.pending ∧ (State.countEnergy s d pj).fuses = s.fuses := by
  unfold State.countEnergy
  simp

@[simp] theorem dischargeCapacitance_keeps (s : State) (ext : Bool) (drop : Nat) :
    (State.dischargeCapacitance s ext drop).1.pending = s.pending ∧
      (State.dischargeCapacitance s ext drop).1.fuses = s.fuses := by
  unfold State.dischargeCapacitance
  try dsimp only
  (repeat' split) <;> simp

@[simp] theorem openOutcome_keeps (s : State) (fromBoot : Bool) :
    (State.openOutcome s fromBoot).pending = s.pending ∧ (State.openOutcome s fromBoot).fuses = s.fuses := by
  unfold State.openOutcome
  simp

@[simp] theorem suspendErases_keeps (s : State) :
    (State.suspendErases s).pending = s.pending ∧ (State.suspendErases s).fuses = s.fuses := by
  unfold State.suspendErases
  simp

@[simp] theorem stopForHoldup_keeps (s : State) :
    (State.stopForHoldup s).pending = s.pending ∧ (State.stopForHoldup s).fuses = s.fuses := by
  unfold State.stopForHoldup
  simp

@[simp] theorem enterHoldup_keeps (s : State) :
    (State.enterHoldup s).pending = s.pending ∧ (State.enterHoldup s).fuses = s.fuses := by
  unfold State.enterHoldup
  simp

@[simp] theorem sampleVin_keeps (s : State) (mv : Nat) (ma : Nat) :
    (State.sampleVin s mv ma).pending = s.pending ∧ (State.sampleVin s mv ma).fuses = s.fuses := by
  unfold State.sampleVin
  simp

@[simp] theorem shortCommit_keeps (s : State) (fails : List (Nat × Nat)) :
    (State.shortCommit s fails).pending = s.pending ∧ (State.shortCommit s fails).fuses = s.fuses := by
  unfold State.shortCommit
  simp

theorem execLedgerSample_keeps (vinMv : BitVec 16) (iinMa : BitVec 16) (intMv : BitVec 16) (extMv : BitVec 16)
    (charging : Bool) (domains : List (Fin 64 × Nat)) (s : State) :
    OutKeeps s (execLedgerSample vinMv iinMa intMv extMv charging domains s) := by
  unfold execLedgerSample
  try dsimp only
  (repeat' split) <;> simp

theorem execCapacitanceMeasurement_keeps (ext : Bool) (discharge : Bool) (current : Nat) (time : Nat) (drop : Nat)
    (s : State) :
    OutKeeps s (execCapacitanceMeasurement ext discharge current time drop s) := by
  unfold execCapacitanceMeasurement
  try dsimp only
  (repeat' split) <;> simp

theorem execExtHoldChargeTimeout_keeps (s : State) :
    OutKeeps s (execExtHoldChargeTimeout s) := by
  unfold execExtHoldChargeTimeout
  try dsimp only
  (repeat' split) <;> simp

theorem execReserveShort_keeps (fails : List (Nat × Nat)) (s : State) :
    OutKeeps s (execReserveShort fails s) := by
  unfold execReserveShort
  try dsimp only
  (repeat' split) <;> simp

theorem execReserveShortClear_keeps (s : State) :
    OutKeeps s (execReserveShortClear s) := by
  unfold execReserveShortClear
  try dsimp only
  (repeat' split) <;> simp

theorem execHoldupEntry_keeps (s : State) :
    OutKeeps s (execHoldupEntry s) := by
  unfold execHoldupEntry
  try dsimp only
  (repeat' split) <;> simp

theorem execHoldupRound_keeps (fail : Option (Fin 16)) (s : State) :
    OutKeeps s (execHoldupRound fail s) := by
  unfold execHoldupRound
  try dsimp only
  (repeat' split) <;> simp

theorem execHoldupOff_keeps (s : State) :
    OutKeeps s (execHoldupOff s) := by
  unfold execHoldupOff
  try dsimp only
  (repeat' split) <;> simp

theorem execVinReturn_keeps (s : State) :
    OutKeeps s (execVinReturn s) := by
  unfold execVinReturn
  try dsimp only
  (repeat' split) <;> simp

theorem execNrgQuery_keeps (m : Fin 5) (s : State) :
    OutKeeps s (execNrgQuery m s) := by
  unfold execNrgQuery
  simp

theorem execNrgSnapshotRead_keeps (m : Fin 5) (bad : Bool) (s : State) :
    OutKeeps s (execNrgSnapshotRead m bad s) := by
  unfold execNrgSnapshotRead
  apply command_out
  intro p
  try dsimp only
  (repeat' split) <;> simp

theorem execNrgCapMeasure_keeps (m : Fin 5) (s : State) :
    OutKeeps s (execNrgCapMeasure m s) := by
  unfold execNrgCapMeasure
  simp

@[simp] theorem clockElements_keeps (s : State) (k : Nat) (rising : List ClockSource) :
    (State.clockElements s k rising).pending = s.pending ∧ (State.clockElements s k rising).fuses = s.fuses := by
  unfold State.clockElements
  simp

@[simp] theorem clockLanes_keeps (s : State) (t : State) (k : Nat) (rising : List ClockSource) :
    (State.clockLanes s t k rising).pending = t.pending ∧ (State.clockLanes s t k rising).fuses = t.fuses := by
  unfold State.clockLanes
  simp

@[simp] theorem clockPin_keeps (s : State) (t : State) (k : Nat) (n : Nat) (rise : Bool) (fall : Bool) (pads : BitVec 32) :
    (State.clockPin s t k n rise fall pads).pending = t.pending ∧
      (State.clockPin s t k n rise fall pads).fuses = t.fuses := by
  unfold State.clockPin
  simp

@[simp] theorem clockPort_keeps (s : State) (rspReady reqReady : List (Fin 64)) (p : Nat) :
    (State.clockPort s rspReady reqReady p).pending = s.pending ∧
      (State.clockPort s rspReady reqReady p).fuses = s.fuses := by
  unfold State.clockPort
  simp

@[simp] theorem drivePin_keeps (s : State) (k : Nat) (n : Nat) (rise : Bool) (fall : Bool) :
    (State.drivePin s k n rise fall).pending = s.pending ∧ (State.drivePin s k n rise fall).fuses = s.fuses := by
  unfold State.drivePin
  simp

@[simp] theorem drivePins_keeps (s : State) (k : Nat) (rising : List ClockSource) (falling : List ClockSource) :
    (State.drivePins s k rising falling).pending = s.pending ∧
      (State.drivePins s k rising falling).fuses = s.fuses := by
  unfold State.drivePins
  simp

@[simp] theorem samplePad_keeps (s : State) (n : Nat) (pads : BitVec 32) :
    (State.samplePad s n pads).pending = s.pending ∧ (State.samplePad s n pads).fuses = s.fuses := by
  unfold State.samplePad
  simp

@[simp] theorem samplePads_keeps (s : State) (k : Nat) (pads : BitVec 32) :
    (State.samplePads s k pads).pending = s.pending ∧ (State.samplePads s k pads).fuses = s.fuses := by
  unfold State.samplePads
  try dsimp only
  (repeat' split) <;> simp

theorem execFabricClockEdge_keeps (k : Fin 16) (rising : List ClockSource) (falling : List ClockSource)
    (pads : BitVec 32) (lanes : List LaneEdge) (rspReady reqReady : List (Fin 64)) (s : State) :
    OutKeeps s (execFabricClockEdge k rising falling pads lanes rspReady reqReady s) := by
  unfold execFabricClockEdge
  simp

@[simp] theorem takePacket_keeps (s : State) (m : Nat) :
    (State.takePacket s m).pending = s.pending ∧ (State.takePacket s m).fuses = s.fuses := by
  unfold State.takePacket
  simp

theorem execPerstRelease_keeps (k : Fin 4) (s : State) :
    OutKeeps s (execPerstRelease k s) := by
  unfold execPerstRelease
  try dsimp only
  (repeat' split) <;> simp

theorem execLinkUp_keeps (k : Fin 4) (gen : Fin 6) (width : Fin 9) (s : State) :
    OutKeeps s (execLinkUp k gen width s) := by
  unfold execLinkUp
  try dsimp only
  (repeat' split) <;> simp

theorem execPerstLow_keeps (k : Fin 4) (s : State) :
    OutKeeps s (execPerstLow k s) := by
  unfold execPerstLow
  try dsimp only
  (repeat' split) <;> simp

theorem execHotReset_keeps (k : Fin 4) (s : State) :
    OutKeeps s (execHotReset k s) := by
  unfold execHotReset
  try dsimp only
  (repeat' split) <;> simp

theorem execLinkDown_keeps (k : Fin 4) (s : State) :
    OutKeeps s (execLinkDown k s) := by
  unfold execLinkDown
  try dsimp only
  (repeat' split) <;> simp

theorem execFunctionLevelReset_keeps (k : Fin 4) (s : State) :
    OutKeeps s (execFunctionLevelReset k s) := by
  unfold execFunctionLevelReset
  try dsimp only
  (repeat' split) <;> simp

theorem execMailboxClearDone_keeps (m : Fin 5) (s : State) :
    OutKeeps s (execMailboxClearDone m s) := by
  unfold execMailboxClearDone
  try dsimp only
  (repeat' split) <;> simp

theorem execLinkPowerState_keeps (k : Fin 4) (change : LinkPower) (s : State) :
    OutKeeps s (execLinkPowerState k change s) := by
  unfold execLinkPowerState
  try dsimp only
  (repeat' split) <;> simp

theorem execBarTlp_keeps (k : Fin 4) (bar : Bar) (offset : BitVec 32) (write : Bool) (ds : List
    (BitVec 4 × BitVec 32)) (s : State) :
    OutKeeps s (execBarTlp k bar offset write ds s) := by
  unfold execBarTlp
  try dsimp only
  (repeat' split) <;> simp

theorem execSpiRead_keeps (addr : BitVec 24) (words : Nat) (late : Bool) (s : State) :
    OutKeeps s (execSpiRead addr words late s) := by
  unfold execSpiRead
  try dsimp only
  (repeat' split) <;> simp

theorem execSpiWriteWord_keeps (addr : BitVec 24) (data : BitVec 32) (s : State) :
    OutKeeps s (execSpiWriteWord addr data s) := by
  unfold execSpiWriteWord
  try dsimp only
  (repeat' split) <;> simp

theorem execSpiStatus_keeps (s : State) :
    OutKeeps s (execSpiStatus s) := by
  unfold execSpiStatus
  try dsimp only
  (repeat' split) <;> simp

theorem execSpiUnknownOperation_keeps (op : BitVec 8) (s : State) :
    OutKeeps s (execSpiUnknownOperation op s) := by
  unfold execSpiUnknownOperation
  try dsimp only
  (repeat' split) <;> simp

theorem execSpiCsRise_keeps (s : State) :
    OutKeeps s (execSpiCsRise s) := by
  unfold execSpiCsRise
  simp

theorem execMailboxEntryWrite_keeps (who : Requester) (m : Fin 5) (word : Fin 4096) (data : BitVec 32) (s : State) :
    OutKeeps s (execMailboxEntryWrite who m word data s) := by
  unfold execMailboxEntryWrite
  simp

theorem execMbxReqTailWrite_keeps (who : Requester) (m : Fin 5) (tail : BitVec 16) (s : State) :
    OutKeeps s (execMbxReqTailWrite who m tail s) := by
  unfold execMbxReqTailWrite
  simp

theorem execMbxRspHeadWrite_keeps (who : Requester) (m : Fin 5) (head : BitVec 16) (s : State) :
    OutKeeps s (execMbxRspHeadWrite who m head s) := by
  unfold execMbxRspHeadWrite
  simp

theorem execMbxClear_keeps (who : Requester) (m : Fin 5) (irqEn : Bool) (s : State) :
    OutKeeps s (execMbxClear who m irqEn s) := by
  unfold execMbxClear
  simp

theorem execPacketStart_keeps (s : State) :
    OutKeeps s (execPacketStart s) := by
  unfold execPacketStart
  try dsimp only
  (repeat' split) <;> simp

theorem execNop_keeps (m : Fin 5) (s : State) :
    OutKeeps s (execNop m s) := by
  unfold execNop
  simp

theorem execHostAttachGet_keeps (m : Fin 5) (s : State) :
    OutKeeps s (execHostAttachGet m s) := by
  unfold execHostAttachGet
  simp

theorem execHostAttachSet_keeps (m : Fin 5) (fails0 : Nat) (fails1 : Nat) (s : State) :
    OutKeeps s (execHostAttachSet m fails0 fails1 s) := by
  unfold execHostAttachSet
  simp

theorem execPcieCompletion_keeps (id : Nat) (data : List (BitVec 256)) (s : State) :
    OutKeeps s (execPcieCompletion id data s) := by
  unfold execPcieCompletion
  try dsimp only
  (repeat' split) <;> simp

theorem execPcieCompletionTimeout_keeps (id : Nat) (s : State) :
    OutKeeps s (execPcieCompletionTimeout id s) := by
  unfold execPcieCompletionTimeout
  try dsimp only
  (repeat' split) <;> simp

@[simp] theorem checkChunks_keeps (s : State) (h : Header) (l0 : Nat) (errors : List (Nat × List Nat)) (c : Nat) (x5 : List
    (List Byte)) :
    (State.checkChunks s h l0 errors c x5).1.pending = s.pending ∧
      (State.checkChunks s h l0 errors c x5).1.fuses = s.fuses := by
  induction x5 generalizing s c with
  | nil => unfold State.checkChunks; simp
  | cons y ys ih => unfold State.checkChunks; dsimp only; (repeat' split) <;> simp [ih]

@[simp] theorem checkWhole_keeps (s : State) (l0 : Nat) (errors : List (Nat × List Nat)) (agree : Header → Bool) :
    (State.checkWhole s l0 errors agree).1.pending = s.pending ∧
      (State.checkWhole s l0 errors agree).1.fuses = s.fuses := by
  unfold State.checkWhole
  try dsimp only
  (repeat' split) <;> simp

@[simp] theorem startWrite_keeps (s : State) (m : Nat) (p : Packet) (base : Nat) (pos : Nat) (addr : Nat) (len : Nat)
    (locked : Bool) :
    (State.startWrite s m p base pos addr len locked).pending = s.pending ∧
      (State.startWrite s m p base pos addr len locked).fuses = s.fuses := by
  unfold State.startWrite
  try dsimp only
  (repeat' split) <;> (try (have e := pair_fst ‹_ = (_, _)›; subst e)) <;> simp

theorem execImgDirRead_keeps (m : Fin 5) (s : State) :
    OutKeeps s (execImgDirRead m s) := by
  unfold execImgDirRead
  simp

theorem execImgAlloc_keeps (m : Fin 5) (s : State) :
    OutKeeps s (execImgAlloc m s) := by
  unfold execImgAlloc
  try dsimp only
  (repeat' split) <;> simp

theorem execImgWrite_keeps (m : Fin 5) (s : State) :
    OutKeeps s (execImgWrite m s) := by
  unfold execImgWrite
  simp

theorem execImgCommit_keeps (m : Fin 5) (errors : List (Nat × List Nat)) (s : State) :
    OutKeeps s (execImgCommit m errors s) := by
  unfold execImgCommit
  simp

theorem execImgSetState_keeps (m : Fin 5) (s : State) :
    OutKeeps s (execImgSetState m s) := by
  unfold execImgSetState
  simp

theorem execImgSelect_keeps (m : Fin 5) (s : State) :
    OutKeeps s (execImgSelect m s) := by
  unfold execImgSelect
  simp

theorem execImgRegionSelect_keeps (m : Fin 5) (s : State) :
    OutKeeps s (execImgRegionSelect m s) := by
  unfold execImgRegionSelect
  simp

@[simp] theorem driveJtag_keeps (s : State) (f : Nat → Option PinLevel) (g : Nat → Option Bool) :
    (State.driveJtag s f g).pending = s.pending ∧ (State.driveJtag s f g).fuses = s.fuses := by
  unfold State.driveJtag
  simp

@[simp] theorem driveCells_keeps (s : State) :
    (State.driveCells s).pending = s.pending ∧ (State.driveCells s).fuses = s.fuses := by
  unfold State.driveCells
  simp

@[simp] theorem setIr_keeps (s : State) (code : Nat) :
    (State.setIr s code).pending = s.pending ∧ (State.setIr s code).fuses = s.fuses := by
  unfold State.setIr
  simp

@[simp] theorem releaseJtag_keeps (s : State) :
    (State.releaseJtag s).pending = s.pending ∧ (State.releaseJtag s).fuses = s.fuses := by
  unfold State.releaseJtag
  simp

@[simp] theorem pinControl_keeps (s : State) (code : Nat) (f : State → State) (h : ∀ t, (f t).pending = t.pending ∧
    (f t).fuses = t.fuses) :
    (State.pinControl s code f).pending = s.pending ∧ (State.pinControl s code f).fuses = s.fuses := by
  unfold State.pinControl
  (repeat' split) <;> simp [h]

@[simp] theorem plainJtag_keeps (s : State) (code : Nat) (f : State → State) (h : ∀ t, (f t).pending = t.pending ∧
    (f t).fuses = t.fuses) :
    (State.plainJtag s code f).pending = s.pending ∧ (State.plainJtag s code f).fuses = s.fuses := by
  unfold State.plainJtag
  (repeat' split) <;> simp [h]

@[simp] theorem scan_keeps (s : State) (pins : BitVec 1552) (load : BitVec 1552) :
    (State.scan s pins load).pending = s.pending ∧ (State.scan s pins load).fuses = s.fuses := by
  unfold State.scan
  simp

theorem execTestLogicReset_keeps (s : State) :
    OutKeeps s (execTestLogicReset s) := by
  unfold execTestLogicReset
  simp

theorem execExtest_keeps (pins : BitVec 1552) (load : BitVec 1552) (s : State) :
    OutKeeps s (execExtest pins load s) := by
  unfold execExtest
  simp

theorem execSamplePreload_keeps (pins : BitVec 1552) (load : BitVec 1552) (s : State) :
    OutKeeps s (execSamplePreload pins load s) := by
  unfold execSamplePreload
  simp

theorem execIdcode_keeps (s : State) :
    OutKeeps s (execIdcode s) := by
  unfold execIdcode
  simp

theorem execClamp_keeps (s : State) :
    OutKeeps s (execClamp s) := by
  unfold execClamp
  simp

theorem execHighz_keeps (s : State) :
    OutKeeps s (execHighz s) := by
  unfold execHighz
  simp

theorem execExtestPulse_keeps (pins : BitVec 1552) (load : BitVec 1552) (s : State) :
    OutKeeps s (execExtestPulse pins load s) := by
  unfold execExtestPulse
  simp

theorem execExtestTrain_keeps (pins : BitVec 1552) (load : BitVec 1552) (s : State) :
    OutKeeps s (execExtestTrain pins load s) := by
  unfold execExtestTrain
  simp

theorem execBypass_keeps (s : State) :
    OutKeeps s (execBypass s) := by
  unfold execBypass
  simp

theorem execJtagReg_keeps (offset : BitVec 24) (write : Bool) (data : BitVec 32) (s : State) :
    OutKeeps s (execJtagReg offset write data s) := by
  unfold execJtagReg
  simp

theorem execJtagLoad_keeps (bytes : List Byte) (s : State) :
    OutKeeps s (execJtagLoad bytes s) := by
  unfold execJtagLoad
  simp

end Sys2Proof.Machine
end

