-- ==== Sys2Proof/Laws/KeepsCmdsB.lean ====
section
/-! SUPPORT. What each operation keeps (KeepsBase): the meanings of the other commands. -/

namespace Sys2Proof.Machine

set_option Elab.async false

@[simp] theorem loseAlignment_keeps (s : State) (l : Nat) :
    (State.loseAlignment s l).pending = s.pending ∧ (State.loseAlignment s l).fuses = s.fuses := by
  unfold State.loseAlignment
  simp

theorem execLcPllApply_keeps (who : Requester) (q : Fin 8) (p : Fin 2) (refsel : BitVec 4) (m : BitVec 3)
    (n : BitVec 9) (khz : BitVec 19) (s : State) :
    OutKeeps s (execLcPllApply who q p refsel m n khz s) := by
  unfold execLcPllApply
  simp

theorem execLcPllLoss_keeps (q : Fin 8) (p : Fin 2) (s : State) :
    OutKeeps s (execLcPllLoss q p s) := by
  unfold execLcPllLoss
  simp

theorem execLcPllLock_keeps (q : Fin 8) (p : Fin 2) (s : State) :
    OutKeeps s (execLcPllLock q p s) := by
  unfold execLcPllLock
  simp

theorem execLaneConfiguration_keeps (who : Requester) (l : Fin 32) (setting : BitVec 20) (s : State) :
    OutKeeps s (execLaneConfiguration who l setting s) := by
  unfold execLaneConfiguration
  simp

theorem execCdrLock_keeps (l : Fin 32) (s : State) :
    OutKeeps s (execCdrLock l s) := by
  unfold execCdrLock
  simp

theorem execAlignment_keeps (l : Fin 32) (s : State) :
    OutKeeps s (execAlignment l s) := by
  unfold execAlignment
  simp

theorem execAdaptation_keeps (l : Fin 32) (s : State) :
    OutKeeps s (execAdaptation l s) := by
  unfold execAdaptation
  simp

theorem execTxUnderrun_keeps (l : Fin 32) (s : State) :
    OutKeeps s (execTxUnderrun l s) := by
  unfold execTxUnderrun
  simp

theorem execRxOverflow_keeps (l : Fin 32) (s : State) :
    OutKeeps s (execRxOverflow l s) := by
  unfold execRxOverflow
  simp

theorem execRecoveredClockStart_keeps (q : Fin 8) (i : Fin 2) (s : State) :
    OutKeeps s (execRecoveredClockStart q i s) := by
  unfold execRecoveredClockStart
  simp

theorem execEyeScanStart_keeps (who : Requester) (l : Fin 32) (phase : BitVec 6) (voff : BitVec 7)
    (log2Bits : BitVec 6) (s : State) :
    OutKeeps s (execEyeScanStart who l phase voff log2Bits s) := by
  unfold execEyeScanStart
  simp

theorem execEyeScanDone_keeps (l : Fin 32) (errors : Nat) (s : State) :
    OutKeeps s (execEyeScanDone l errors s) := by
  unfold execEyeScanDone
  simp

theorem execCdrLockLoss_keeps (l : Fin 32) (s : State) :
    OutKeeps s (execCdrLockLoss l s) := by
  unfold execCdrLockLoss
  simp

theorem execAlignmentLoss_keeps (l : Fin 32) (s : State) :
    OutKeeps s (execAlignmentLoss l s) := by
  unfold execAlignmentLoss
  simp

@[simp] theorem beginRegions_keeps (s : State) (j : LoadJob) :
    (State.beginRegions s j).pending = s.pending ∧ (State.beginRegions s j).fuses = s.fuses := by
  unfold State.beginRegions
  simp

@[simp] theorem checkJob_keeps (s : State) (i : Nat) (j : LoadJob) (errors : List (Nat × List Nat)) :
    (State.checkJob s i j errors).pending = s.pending ∧ (State.checkJob s i j errors).fuses = s.fuses := by
  unfold State.checkJob
  simp

@[simp] theorem noteStatus_keeps (s : State) (mask : Nat) (st : Nat) :
    (State.noteStatus s mask st).pending = s.pending ∧ (State.noteStatus s mask st).fuses = s.fuses := by
  unfold State.noteStatus
  simp

@[simp] theorem refuseReload_keeps (s : State) (j : LoadJob) (st : Nat) :
    (State.refuseReload s j st).pending = s.pending ∧ (State.refuseReload s j st).fuses = s.fuses := by
  unfold State.refuseReload
  try dsimp only
  (repeat' split) <;> simp

@[simp] theorem checkStream_keeps (s : State) :
    (State.checkStream s).pending = s.pending ∧ (State.checkStream s).fuses = s.fuses := by
  unfold State.checkStream
  simp

@[simp] theorem failChunk_keeps (s : State) (i : Nat) (j : LoadJob) (st : Nat) :
    (State.failChunk s i j st).pending = s.pending ∧ (State.failChunk s i j st).fuses = s.fuses := by
  unfold State.failChunk
  simp

@[simp] theorem openAndRoute_keeps (s : State) (i : Nat) (j : LoadJob) (h : Header) (chunk : Span) (leaf : List Byte) :
    (State.openAndRoute s i j h chunk leaf).pending = s.pending ∧
      (State.openAndRoute s i j h chunk leaf).fuses = s.fuses := by
  unfold State.openAndRoute
  simp

@[simp] theorem settleJobs_keeps (s : State) :
    (State.settleJobs s).pending = s.pending ∧ (State.settleJobs s).fuses = s.fuses := by
  unfold State.settleJobs
  simp

@[simp] theorem takeChunk_keeps (s : State) (i : Nat) (j : LoadJob) (h : Header) (errors : List (Nat × List Nat)) :
    (State.takeChunk s i j h errors).pending = s.pending ∧ (State.takeChunk s i j h errors).fuses = s.fuses := by
  unfold State.takeChunk
  simp

theorem execImageCheck_keeps (errors : List (Nat × List Nat)) (s : State) :
    OutKeeps s (execImageCheck errors s) := by
  unfold execImageCheck
  try dsimp only
  (repeat' split) <;> simp

theorem execChunkArrival_keeps (i : Nat) (errors : List (Nat × List Nat)) (s : State) :
    OutKeeps s (execChunkArrival i errors s) := by
  unfold execChunkArrival
  try dsimp only
  (repeat' split) <;> simp

theorem execFrameWrite_keeps (k : Fin 16) (misses : Fin 4) (s : State) :
    OutKeeps s (execFrameWrite k misses s) := by
  unfold execFrameWrite
  try dsimp only
  (repeat' split) <;> simp

theorem execLoadComplete_keeps (k : Fin 16) (s : State) :
    OutKeeps s (execLoadComplete k s) := by
  unfold execLoadComplete
  try dsimp only
  (repeat' split) <;> simp

theorem execWipeDone_keeps (k : Fin 16) (s : State) :
    OutKeeps s (execWipeDone k s) := by
  unfold execWipeDone
  try dsimp only
  (repeat' split) <;> simp

theorem execGoldFallback_keeps (s : State) :
    OutKeeps s (execGoldFallback s) := by
  unfold execGoldFallback
  try dsimp only
  (repeat' split) <;> simp

theorem execRunEntry_keeps (s : State) :
    OutKeeps s (execRunEntry s) := by
  unfold execRunEntry
  try dsimp only
  (repeat' split) <;> simp

theorem execLdReload_keeps (m : Fin 5) (errors : List (Nat × List Nat)) (s : State) :
    OutKeeps s (execLdReload m errors s) := by
  unfold execLdReload
  simp

theorem execReloadFence_keeps (s : State) :
    OutKeeps s (execReloadFence s) := by
  unfold execReloadFence
  try dsimp only
  (repeat' split) <;> simp

@[simp] theorem loseField_keeps (s : State) (g : Nat) (kind : Nat) :
    (State.loseField s g kind).pending = s.pending ∧ (State.loseField s g kind).fuses = s.fuses := by
  unfold State.loseField
  simp

@[simp] theorem setOpenLoad_keeps (s : State) (n : Nat) (isOpen : Bool) :
    (State.setOpenLoad s n isOpen).pending = s.pending ∧ (State.setOpenLoad s n isOpen).fuses = s.fuses := by
  unfold State.setOpenLoad
  simp

theorem execOutputShort_keeps (n : Fin 448) (s : State) :
    OutKeeps s (execOutputShort n s) := by
  unfold execOutputShort
  try dsimp only
  (repeat' split) <;> simp

theorem execGioRearm_keeps (who : Requester) (b : Fin 14) (pins : BitVec 32) (s : State) :
    OutKeeps s (execGioRearm who b pins s) := by
  unfold execGioRearm
  simp

theorem execFieldOvercurrent_keeps (n : Fin 64) (mA : BitVec 16) (s : State) :
    OutKeeps s (execFieldOvercurrent n mA s) := by
  unfold execFieldOvercurrent
  try dsimp only
  (repeat' split) <;> simp

theorem execGroupOverload_keeps (g : Fin 4) (mA : BitVec 16) (s : State) :
    OutKeeps s (execGroupOverload g mA s) := by
  unfold execGroupOverload
  try dsimp only
  (repeat' split) <;> simp

theorem execInrushWindowEnd_keeps (n : Fin 64) (s : State) :
    OutKeeps s (execInrushWindowEnd n s) := by
  unfold execInrushWindowEnd
  simp

theorem execFioRearm_keeps (who : Requester) (g : Fin 4) (pins : BitVec 16) (s : State) :
    OutKeeps s (execFioRearm who g pins s) := by
  unfold execFioRearm
  simp

theorem execFieldInputChange_keeps (n : Fin 64) (value : Bool) (s : State) :
    OutKeeps s (execFieldInputChange n value s) := by
  unfold execFieldInputChange
  try dsimp only
  (repeat' split) <;> simp

theorem execWireBreak_keeps (n : Fin 64) (broken : Bool) (s : State) :
    OutKeeps s (execWireBreak n broken s) := by
  unfold execWireBreak
  try dsimp only
  (repeat' split) <;> simp

theorem execOpenLoadTest_keeps (n : Fin 64) (mV : BitVec 16) (s : State) :
    OutKeeps s (execOpenLoadTest n mV s) := by
  unfold execOpenLoadTest
  try dsimp only
  (repeat' split) <;> simp

theorem execOpenLoad_keeps (n : Fin 64) (isOpen : Bool) (s : State) :
    OutKeeps s (execOpenLoad n isOpen s) := by
  unfold execOpenLoad
  try dsimp only
  (repeat' split) <;> simp

theorem execVfieldGood_keeps (g : Fin 4) (mV : BitVec 16) (s : State) :
    OutKeeps s (execVfieldGood g mV s) := by
  unfold execVfieldGood
  try dsimp only
  (repeat' split) <;> simp

theorem execVfieldUndervoltage_keeps (g : Fin 4) (mV : BitVec 16) (s : State) :
    OutKeeps s (execVfieldUndervoltage g mV s) := by
  unfold execVfieldUndervoltage
  try dsimp only
  (repeat' split) <;> simp

theorem execVfieldReversal_keeps (g : Fin 4) (mV : BitVec 16) (s : State) :
    OutKeeps s (execVfieldReversal g mV s) := by
  unfold execVfieldReversal
  try dsimp only
  (repeat' split) <;> simp

theorem execCalInject_keeps (who : Requester) (loop : BitVec 3) (s : State) :
    OutKeeps s (execCalInject who loop s) := by
  unfold execCalInject
  simp

theorem execLockstepMismatch_keeps (s : State) :
    OutKeeps s (execLockstepMismatch s) := by
  unfold execLockstepMismatch
  try dsimp only
  (repeat' split) <;> simp

theorem execSafReq_keeps (who : Requester) (s : State) :
    OutKeeps s (execSafReq who s) := by
  unfold execSafReq
  simp

theorem execSafEnter_keeps (m : Fin 5) (s : State) :
    OutKeeps s (execSafEnter m s) := by
  unfold execSafEnter
  simp

theorem execSafCfgCritWrite_keeps (who : Requester) (regions : BitVec 16) (s : State) :
    OutKeeps s (execSafCfgCritWrite who regions s) := by
  unfold execSafCfgCritWrite
  simp

theorem execSafPllCritWrite_keeps (who : Requester) (plls : BitVec 16) (s : State) :
    OutKeeps s (execSafPllCritWrite who plls s) := by
  unfold execSafPllCritWrite
  simp

theorem execSafIoCritWrite_keeps (who : Requester) (regions : BitVec 16) (s : State) :
    OutKeeps s (execSafIoCritWrite who regions s) := by
  unfold execSafIoCritWrite
  simp

theorem execSafInject_keeps (who : Requester) (diag : BitVec 4) (index : BitVec 9) (s : State) :
    OutKeeps s (execSafInject who diag index s) := by
  unfold execSafInject
  simp

theorem execEventLogEntry_keeps (s : State) :
    OutKeeps s (execEventLogEntry s) := by
  unfold execEventLogEntry
  simp

@[simp] theorem noteMismatch_keeps (s : State) (k : Nat) (f : Nat) (outcome : Nat) (injected : Bool) :
    (State.noteMismatch s k f outcome injected).pending = s.pending ∧
      (State.noteMismatch s k f outcome injected).fuses = s.fuses := by
  unfold State.noteMismatch
  simp

@[simp] theorem mismatch_keeps (s : State) (k : Nat) (o : Nat) (injected : Bool) :
    (State.mismatch s k o injected).pending = s.pending ∧ (State.mismatch s k o injected).fuses = s.fuses := by
  unfold State.mismatch
  simp

theorem execScrubCompare_keeps (k : Fin 16) (struck : List (Fin 10240)) (s : State) :
    OutKeeps s (execScrubCompare k struck s) := by
  unfold execScrubCompare
  try dsimp only
  (repeat' split) <;> simp

theorem execScrubRepair_keeps (k : Fin 16) (misses : Fin 4) (errors : List (Nat × List Nat)) (s : State) :
    OutKeeps s (execScrubRepair k misses errors s) := by
  unfold execScrubRepair
  try dsimp only
  (repeat' split) <;> simp

theorem execCfgScrubInject_keeps (who : Requester) (frame : BitVec 16) (s : State) :
    OutKeeps s (execCfgScrubInject who frame s) := by
  unfold execCfgScrubInject
  simp

theorem execScrubQuery_keeps (m : Fin 5) (s : State) :
    OutKeeps s (execScrubQuery m s) := by
  unfold execScrubQuery
  simp

@[simp] theorem blowFlag_keeps (s : State) (n : Nat) :
    (State.blowFlag s n).pending = s.pending := by
  unfold State.blowFlag
  simp

@[simp] theorem noteToken_keeps (s : State) (t : List Byte) (status : Nat) :
    (State.noteToken s t status).pending = s.pending ∧ (State.noteToken s t status).fuses = s.fuses := by
  unfold State.noteToken
  simp

@[simp] theorem programSlot_keeps (s : State) (i : Nat) (hash : List Byte) (good : Bool) :
    (State.programSlot s i hash good).pending = s.pending := by
  unfold State.programSlot
  simp

@[simp] theorem withToken_keeps (s : State) (m : Nat) (action : Nat) (p : Packet) (f : State → List Byte → State) (h : ∀ t x,
    (f t x).pending = t.pending ∧ (f t x).fuses = t.fuses) :
    (State.withToken s m action p f).pending = s.pending ∧ (State.withToken s m action p f).fuses = s.fuses := by
  unfold State.withToken
  (repeat' split) <;> simp [h]

theorem withToken_queue (s : State) (m kind : Nat) (p : Packet) (f : State → List Byte → State)
    (h : ∀ t x, (f t x).pending = t.pending) : (s.withToken m kind p f).pending = s.pending := by
  unfold State.withToken
  (repeat' split) <;> simp [h]

theorem execLcAdvance_keeps (m : Fin 5) (s : State) :
    OutKeeps s (execLcAdvance m s) := by
  unfold execLcAdvance
  simp

theorem execLcKeySet_keeps (m : Fin 5) (good : Bool) (s : State) :
    OutQueue s (execLcKeySet m good s) := by
  unfold execLcKeySet
  apply command_outq
  intro p
  dsimp only
  split
  · split <;> simp
  · exact withToken_queue _ _ _ _ _ fun t x => by split <;> simp

theorem execLcRevoke_keeps (m : Fin 5) (s : State) :
    OutQueue s (execLcRevoke m s) := by
  unfold execLcRevoke
  apply command_outq
  intro p
  exact withToken_queue _ _ _ _ _ fun t x => by simp

theorem execLcImageKeySet_keeps (m : Fin 5) (s : State) :
    OutQueue s (execLcImageKeySet m s) := by
  unfold execLcImageKeySet
  apply command_outq
  intro p
  try dsimp only
  (repeat' split) <;> simp

theorem execLcGoldWrite_keeps (m : Fin 5) (s : State) :
    OutKeeps s (execLcGoldWrite m s) := by
  unfold execLcGoldWrite
  simp

theorem execLcGoldCommit_keeps (m : Fin 5) (errors : List (Nat × List Nat)) (s : State) :
    OutKeeps s (execLcGoldCommit m errors s) := by
  unfold execLcGoldCommit
  simp

@[simp] theorem endPatrol_keeps (s : State) :
    (State.endPatrol s).pending = s.pending ∧ (State.endPatrol s).fuses = s.fuses := by
  unfold State.endPatrol
  simp

@[simp] theorem failArchive_keeps (s : State) :
    (State.failArchive s).pending = s.pending ∧ (State.failArchive s).fuses = s.fuses := by
  unfold State.failArchive
  simp

@[simp] theorem pageResponse_keeps (s : State) (t : Txn) (off : Nat) (flips : List Nat) :
    (State.pageResponse s t off flips).pending = s.pending ∧ (State.pageResponse s t off flips).fuses = s.fuses := by
  unfold State.pageResponse
  try dsimp only
  (repeat' split) <;> simp

@[simp] theorem settingsReady_keeps (s : State) :
    (State.settingsReady s).pending = s.pending ∧ (State.settingsReady s).fuses = s.fuses := by
  unfold State.settingsReady
  simp

@[simp] theorem slateResponse_keeps (s : State) (t : Txn) (off : Nat) (flips : List Nat) :
    (State.slateResponse s t off flips).pending = s.pending ∧ (State.slateResponse s t off flips).fuses = s.fuses := by
  unfold State.slateResponse
  simp

theorem execSlateRead_keeps (id : Nat) (flips : List Nat) (s : State) :
    OutKeeps s (execSlateRead id flips s) := by
  unfold execSlateRead
  try dsimp only
  (repeat' split) <;> simp

theorem execEraseResume_keeps (l : Fin 4096) (s : State) :
    OutKeeps s (execEraseResume l s) := by
  unfold execEraseResume
  simp

theorem execSlateIngressTimeout_keeps (s : State) :
    OutKeeps s (execSlateIngressTimeout s) := by
  unfold execSlateIngressTimeout
  try dsimp only
  (repeat' split) <;> simp

theorem execPageProgramDone_keeps (l : Fin 4096) (pulses : BitVec 6) (s : State) :
    OutKeeps s (execPageProgramDone l pulses s) := by
  unfold execPageProgramDone
  try dsimp only
  (repeat' split) <;> simp

theorem execBlockEraseDone_keeps (l : Fin 4096) (pulses : BitVec 4) (badSpares : Nat) (s : State) :
    OutKeeps s (execBlockEraseDone l pulses badSpares s) := by
  unfold execBlockEraseDone
  try dsimp only
  (repeat' split) <;> simp

theorem execPatrolRead_keeps (flips : List Nat) (s : State) :
    OutKeeps s (execPatrolRead flips s) := by
  unfold execPatrolRead
  try dsimp only
  (repeat' split) <;> simp

theorem execCheckpoint_keeps (fails0 : Nat) (fails1 : Nat) (s : State) :
    OutKeeps s (execCheckpoint fails0 fails1 s) := by
  unfold execCheckpoint
  simp

theorem execJournalEraseAhead_keeps (c : Fin 2) (s : State) :
    OutKeeps s (execJournalEraseAhead c s) := by
  unfold execJournalEraseAhead
  simp

theorem execIndexRebuild_keeps (s : State) :
    OutKeeps s (execIndexRebuild s) := by
  unfold execIndexRebuild
  simp

theorem execArchiveWrite_keeps (failed : Bool) (s : State) :
    OutKeeps s (execArchiveWrite failed s) := by
  unfold execArchiveWrite
  try dsimp only
  (repeat' split) <;> simp

theorem execExtentErase_keeps (x : Fin 64) (s : State) :
    OutKeeps s (execExtentErase x s) := by
  unfold execExtentErase
  simp

@[simp] theorem checkPages_keeps (s : State) (l : Nat) (times : Nat) (flips : Nat → List (List Nat)) (x4 : List Nat) :
    (State.checkPages s l times flips x4).1.pending = s.pending ∧
      (State.checkPages s l times flips x4).1.fuses = s.fuses := by
  induction x4 generalizing s with
  | nil => unfold State.checkPages; simp
  | cons y ys ih => unfold State.checkPages; simp [ih]

@[simp] theorem replyItem_keeps (s : State) (m : Nat) (p : Packet) (v : List Byte) (pending : Bool) (unreadable : Bool) :
    (State.replyItem s m p v pending unreadable).pending = s.pending ∧
      (State.replyItem s m p v pending unreadable).fuses = s.fuses := by
  unfold State.replyItem
  simp

@[simp] theorem replyStage_keeps (s : State) (m : Nat) (c : Change) :
    (State.replyStage s m c).pending = s.pending ∧ (State.replyStage s m c).fuses = s.fuses := by
  unfold State.replyStage
  simp

theorem execSetRead_keeps (m : Fin 5) (unreadable : Bool) (s : State) :
    OutKeeps s (execSetRead m unreadable s) := by
  unfold execSetRead
  apply command_out
  intro p
  try dsimp only
  (repeat' split) <;> simp

theorem execSetWrite_keeps (m : Fin 5) (s : State) :
    OutKeeps s (execSetWrite m s) := by
  unfold execSetWrite
  apply command_out
  intro p
  dsimp only
  have h := useBank_keeps s (mailOwner m) (p.p64 2) (p.p 1)
  generalize s.useBank (mailOwner m) (p.p64 2) (p.p 1) = r at h ⊢
  have k := readBankBytes_keeps r.1 (p.p64 2) (p.p 1)
  generalize r.1.readBankBytes (p.p64 2) (p.p 1) = q at k ⊢
  obtain ⟨u, o⟩ := q
  cases o <;> (repeat' split) <;> simp_all

theorem execSetDelete_keeps (m : Fin 5) (s : State) :
    OutKeeps s (execSetDelete m s) := by
  unfold execSetDelete
  simp

theorem execSetCommit_keeps (m : Fin 5) (fails0 : Nat) (fails1 : Nat) (s : State) :
    OutKeeps s (execSetCommit m fails0 fails1 s) := by
  unfold execSetCommit
  simp

theorem execSetList_keeps (m : Fin 5) (s : State) :
    OutKeeps s (execSetList m s) := by
  unfold execSetList
  simp

theorem execPageStability_keeps (m : Fin 5) (flips : List (List (List Nat))) (s : State) :
    OutKeeps s (execPageStability m flips s) := by
  unfold execPageStability
  simp

theorem execUsrWrite_keeps (m : Fin 5) (s : State) :
    OutKeeps s (execUsrWrite m s) := by
  unfold execUsrWrite
  simp

theorem execUsrErase_keeps (m : Fin 5) (s : State) :
    OutKeeps s (execUsrErase m s) := by
  unfold execUsrErase
  simp

theorem execUsrExtentSet_keeps (m : Fin 5) (fails0 : Nat) (fails1 : Nat) (s : State) :
    OutKeeps s (execUsrExtentSet m fails0 fails1 s) := by
  unfold execUsrExtentSet
  simp

@[simp] theorem transferAnswer_keeps (s : State) (p : Nat) (t : Txn) (rest : List (Option Nat)) (bs : List (Nat × BitVec 256))
    (last : Bool) :
    (State.transferAnswer s p t rest bs last).pending = s.pending ∧
      (State.transferAnswer s p t rest bs last).fuses = s.fuses := by
  unfold State.transferAnswer
  simp

theorem execRegisterWrite_keeps (who : Requester) (off : BitVec 24) (wide : Bool) (data : BitVec 64) (s : State) :
    OutKeeps s (execRegisterWrite who off wide data s) := by
  unfold execRegisterWrite
  simp

theorem execLatchingRead_keeps (who : Requester) (off : BitVec 24) (wide : Bool) (s : State) :
    OutKeeps s (execLatchingRead who off wide s) := by
  unfold execLatchingRead
  simp

theorem execRequestSubmit_keeps (who : Requester) (kind : TxnKind) (addr : BitVec 48) (beats : List BeatIn)
    (s : State) :
    OutKeeps s (execRequestSubmit who kind addr beats s) := by
  unfold execRequestSubmit
  try dsimp only
  (repeat' split) <;> simp

theorem execCreditGrant_keeps (t : Fin 97) (s : State) :
    OutKeeps s (execCreditGrant t s) := by
  unfold execCreditGrant
  try dsimp only
  (repeat' split) <;> simp

theorem execSpineRequest_keeps (t : Fin 97) (s : State) :
    OutKeeps s (execSpineRequest t s) := by
  unfold execSpineRequest
  try dsimp only
  (repeat' split) <;> simp

theorem execFlush_keeps (t : Fin 97) (s : State) :
    OutKeeps s (execFlush t s) := by
  unfold execFlush
  try dsimp only
  (repeat' split) <;> simp

theorem execResponseArrival_keeps (port : Fin 97) (tag : Fin 2048) (s : State) :
    OutKeeps s (execResponseArrival port tag s) := by
  unfold execResponseArrival
  try dsimp only
  (repeat' split) <;> simp

theorem execRequesterTimeout_keeps (id : Nat) (s : State) :
    OutKeeps s (execRequesterTimeout id s) := by
  unfold execRequesterTimeout
  try dsimp only
  (repeat' split) <;> simp

theorem execIniReq_keeps (p : Fin 64) (dtag : Fin 64) (write : Bool) (addr : BitVec 48) (offered : IniBeats) (s : State) :
    OutKeeps s (execIniReq p dtag write addr offered s) := by
  unfold execIniReq
  try dsimp only
  (repeat' split) <;> simp

theorem execTgtRsp_keeps (p : Fin 64) (code : Fin 16) (offered : RspBeats) (s : State) :
    OutKeeps s (execTgtRsp p code offered s) := by
  unfold execTgtRsp
  try dsimp only
  (repeat' split) <;> simp

theorem execTargetResponseTimeout_keeps (p : Fin 64) (s : State) :
    OutKeeps s (execTargetResponseTimeout p s) := by
  unfold execTargetResponseTimeout
  try dsimp only
  (repeat' split) <;> simp

theorem execIngressWaitTimeout_keeps (p : Fin 64) (s : State) :
    OutKeeps s (execIngressWaitTimeout p s) := by
  unfold execIngressWaitTimeout
  try dsimp only
  (repeat' split) <;> simp

theorem execResyncAck_keeps (p : Fin 64) (s : State) :
    OutKeeps s (execResyncAck p s) := by
  unfold execResyncAck
  try dsimp only
  (repeat' split) <;> simp

theorem execChannelReopen_keeps (c : Fin 24) (s : State) :
    OutKeeps s (execChannelReopen c s) := by
  unfold execChannelReopen
  try dsimp only
  (repeat' split) <;> simp

theorem execStallDetect_keeps (stalled : StallUnit) (s : State) :
    OutKeeps s (execStallDetect stalled s) := by
  unfold execStallDetect
  try dsimp only
  (repeat' split) <;> simp

theorem execSpnFairClr_keeps (who : Requester) (s : State) :
    OutKeeps s (execSpnFairClr who s) := by
  unfold execSpnFairClr
  simp

theorem execSpnStallInject_keeps (who : Requester) (node : BitVec 5) (input : BitVec 4) (plane : Bool) (s : State) :
    OutKeeps s (execSpnStallInject who node input plane s) := by
  unfold execSpnStallInject
  simp

@[simp] theorem acceptProgram_keeps (s : State) (m : Fin 5) (p : Packet) (program : Nat) (steps : List Word) (force : Bool) :
    (State.acceptProgram s m p program steps force).pending = s.pending ∧
      (State.acceptProgram s m p program steps force).fuses = s.fuses := by
  unfold State.acceptProgram
  try dsimp only
  (repeat' split) <;> simp

@[simp] theorem afterTest_keeps (s : State) (program : Nat) :
    (State.afterTest s program).pending = s.pending ∧ (State.afterTest s program).fuses = s.fuses := by
  unfold State.afterTest
  try dsimp only
  (repeat' split) <;> simp

@[simp] theorem readList_keeps (s : State) (addr : Nat) (n : Nat) :
    (State.readList s addr n).1.pending = s.pending ∧ (State.readList s addr n).1.fuses = s.fuses := by
  unfold State.readList
  try dsimp only
  (repeat' split) <;> (try (have e := pair_fst ‹_ = (_, _)›; subst e)) <;> simp

theorem execSlicePage_keeps (g : Fin 16) (found : List (Nat × Nat)) (s : State) :
    OutKeeps s (execSlicePage g found s) := by
  unfold execSlicePage
  try dsimp only
  (repeat' split) <;> simp

theorem execBstSlice_keeps (m : Fin 5) (s : State) :
    OutKeeps s (execBstSlice m s) := by
  unfold execBstSlice
  simp

theorem execBstProgRun_keeps (m : Fin 5) (s : State) :
    OutKeeps s (execBstProgRun m s) := by
  unfold execBstProgRun
  apply command_out
  intro p
  dsimp only
  have h := useBank_keeps s (mailOwner m) (p.p64 2 / 8 * 8) (p.p64 2 % 8 + 4 * p.p 1)
  generalize s.useBank (mailOwner m) (p.p64 2 / 8 * 8) (p.p64 2 % 8 + 4 * p.p 1) = r at h ⊢
  have k := readList_keeps r.1 (p.p64 2) (p.p 1)
  generalize r.1.readList (p.p64 2) (p.p 1) = q at k ⊢
  obtain ⟨u, o⟩ := q
  cases o <;> (repeat' split) <;> simp_all

theorem execSelftestDone_keeps (counts : List (Option Nat)) (fails : List (Fin 6 × BitVec 24)) (s : State) :
    OutKeeps s (execSelftestDone counts fails s) := by
  unfold execSelftestDone
  try dsimp only
  (repeat' split) <;> simp

end Sys2Proof.Machine
end

