-- ==== Sys2Proof/Laws/Sparse.lean ====
section
/-! SUPPORT. Laws of sparse data: a read after a write gives what was written, a write leaves every other key alone, and
every operation keeps the canonical form. -/

namespace Sys2Proof

set_option Elab.async false

variable {α : Type} {d : α}

theorem SMap.look_insert_same (k : Nat) (v : α) (m : SMap α) (h : ∀ e ∈ m, e.1 ≠ k) :
    SMap.look d (SMap.insert k v m) k = v := by
  induction m with
  | nil => simp [SMap.insert, SMap.look]
  | cons e m ih =>
    have he : k ≠ e.1 := fun x => h e (by simp) x.symm
    unfold SMap.insert
    split
    · simp [SMap.look]
    · simp only [SMap.look, if_neg he]
      exact ih fun x hx => h x (by simp [hx])

theorem SMap.look_insert_ne (k k' : Nat) (v : α) (m : SMap α) (h : k' ≠ k) :
    SMap.look d (SMap.insert k v m) k' = SMap.look d m k' := by
  induction m with
  | nil => simp [SMap.insert, SMap.look, h]
  | cons e m ih =>
    unfold SMap.insert
    split
    · simp [SMap.look, h]
    · simp [SMap.look, ih]

theorem SMap.look_filter (m : SMap α) (p : Nat → Bool) (k : Nat) :
    SMap.look d (m.filter fun e => p e.1) k = if p k then SMap.look d m k else d := by
  induction m with
  | nil => simp [SMap.look]
  | cons e m ih =>
    by_cases hk : k = e.1
    · subst hk
      by_cases hp : p e.1 <;> simp [List.filter, hp, SMap.look, ih]
    · by_cases hp : p e.1 <;> simp [List.filter, hp, SMap.look, ih, hk]

/-- A read after a write to the same key. -/
@[simp] theorem SMap.look_put_same [DecidableEq α] (m : SMap α) (k : Nat) (v : α) :
    SMap.look d (SMap.put d m k v) k = v := by
  unfold SMap.put
  dsimp only
  split
  · rename_i hv
    rw [SMap.look_filter m (· != k)]
    simp [hv]
  · exact SMap.look_insert_same k v _ (by simp)

/-- A write leaves every other key alone. -/
theorem SMap.look_put_ne [DecidableEq α] (m : SMap α) (k k' : Nat) (v : α) (h : k' ≠ k) :
    SMap.look d (SMap.put d m k v) k' = SMap.look d m k' := by
  have hf : SMap.look d (m.filter fun e => e.1 != k) k' = SMap.look d m k' := by
    rw [SMap.look_filter m (· != k)]
    simp [h]
  unfold SMap.put
  dsimp only
  split
  · exact hf
  · rw [SMap.look_insert_ne _ _ _ _ h, hf]

theorem SMap.look_put [DecidableEq α] (m : SMap α) (k k' : Nat) (v : α) :
    SMap.look d (SMap.put d m k v) k' = if k' = k then v else SMap.look d m k' := by
  split
  · rename_i h; rw [h, SMap.look_put_same]
  · rename_i h; exact SMap.look_put_ne m k k' v h

theorem SMap.look_drop (m : SMap α) (p : Nat → Bool) (k : Nat) :
    SMap.look d (m.drop p) k = if p k then d else SMap.look d m k := by
  unfold SMap.drop
  rw [SMap.look_filter m fun k => !p k]
  cases p k <;> simp

/-! ## The canonical form -/

theorem SMap.mem_insert (k : Nat) (v : α) (m : SMap α) (e : Nat × α) (h : e ∈ SMap.insert k v m) :
    e = (k, v) ∨ e ∈ m := by
  induction m with
  | nil => simpa [SMap.insert] using h
  | cons x m ih =>
    unfold SMap.insert at h
    split at h
    · simpa using h
    · rcases List.mem_cons.1 h with rfl | h
      · simp
      · rcases ih h with h | h <;> simp [h]

theorem SMap.wf_filter (m : SMap α) (p : Nat × α → Bool) (h : SMap.wf d m) : SMap.wf d (m.filter p) :=
  ⟨h.1.filter _, fun e he => h.2 e (List.mem_filter.1 he).1⟩

theorem SMap.wf_insert (k : Nat) (v : α) (m : SMap α) (hv : v ≠ d) (hk : ∀ e ∈ m, e.1 ≠ k) (h : SMap.wf d m) :
    SMap.wf d (SMap.insert k v m) := by
  induction m with
  | nil => simp [SMap.insert, SMap.wf, hv]
  | cons x m ih =>
    obtain ⟨hs, hd⟩ := h
    have hs' := List.pairwise_cons.1 hs
    unfold SMap.insert
    split
    · rename_i hlt
      refine ⟨List.pairwise_cons.2 ⟨fun e he => ?_, hs⟩, fun e he => ?_⟩
      · rcases List.mem_cons.1 he with rfl | he
        · exact hlt
        · exact Nat.lt_trans hlt (hs'.1 e he)
      · rcases List.mem_cons.1 he with rfl | he
        · exact hv
        · exact hd e he
    · rename_i hlt
      have hne := hk x (by simp)
      have rest := ih (fun e he => hk e (by simp [he])) ⟨hs'.2, fun e he => hd e (by simp [he])⟩
      refine ⟨List.pairwise_cons.2 ⟨fun e he => ?_, rest.1⟩, fun e he => ?_⟩
      · rcases SMap.mem_insert k v m e he with rfl | he
        · have := hne; simp only at hlt this ⊢; omega
        · exact hs'.1 e he
      · rcases List.mem_cons.1 he with rfl | he
        · exact hd _ (by simp)
        · exact rest.2 e he

/-- A write keeps the canonical form. -/
theorem SMap.wf_put [DecidableEq α] (m : SMap α) (k : Nat) (v : α) (h : SMap.wf d m) : SMap.wf d (SMap.put d m k v) := by
  unfold SMap.put
  dsimp only
  split
  · exact SMap.wf_filter m _ h
  · rename_i hv
    exact SMap.wf_insert k v _ hv (by simp) (SMap.wf_filter m _ h)

theorem SMap.wf_drop (m : SMap α) (p : Nat → Bool) (h : SMap.wf d m) : SMap.wf d (m.drop p) := SMap.wf_filter m _ h

theorem SMap.wf_clearRange (m : SMap α) (lo n : Nat) (h : SMap.wf d m) : SMap.wf d (m.clearRange lo n) :=
  SMap.wf_drop m _ h

theorem SMap.wf_putList [DecidableEq α] (l : List α) (m : SMap α) (lo : Nat) (h : SMap.wf d m) :
    SMap.wf d (SMap.putList d m lo l) := by
  induction l generalizing m lo with
  | nil => exact h
  | cons v vs ih => exact ih _ _ (SMap.wf_put m lo v h)

end Sys2Proof
end

