-- ==== Sys2Proof/Laws/Spine.lean ====
section
/-! SUPPORT. What stands on the spine's planes comes through: nothing but the spine and its fairness register changes. -/

namespace Sys2Proof.Machine

set_option Elab.async false

@[simp] theorem noteGrant_mode (s : State) (arb input : Nat) (others : List Nat) :
    (s.noteGrant arb input others).mode = s.mode := rfl

/-- A grant leaves the mode alone. -/
theorem linkGrant_mode {s t : State} {plane : Bool} {xs : List OnLink} {y : OnLink}
    (h : s.linkGrant plane xs = some (t, y)) : t.mode = s.mode := by
  unfold State.linkGrant at h
  dsimp only at h
  (repeat' split at h) <;> cases h
  rfl

@[simp] theorem moveRequests_mode (n : Nat) (s : State) : (State.moveRequests n s).mode = s.mode := by
  induction n generalizing s with
  | zero => rfl
  | succ n ih =>
    unfold State.moveRequests
    dsimp only
    split
    · rfl
    · rename_i h
      rw [ih]
      exact (linkGrant_mode h :)

@[simp] theorem moveResponses_mode (n : Nat) (s : State) : (State.moveResponses n s).mode = s.mode := by
  induction n generalizing s with
  | zero => rfl
  | succ n ih =>
    unfold State.moveResponses
    dsimp only
    split
    · rfl
    · rename_i h
      rw [ih]
      exact (linkGrant_mode h :)

@[simp] theorem flowRequests_mode (s : State) : s.flowRequests.mode = s.mode := by
  simp [State.flowRequests]

@[simp] theorem flowResponses_mode (s : State) : s.flowResponses.mode = s.mode := by
  simp [State.flowResponses]

end Sys2Proof.Machine
end

