-- ==== Sys2Proof/Laws/State.lean ====
section
/-! SUPPORT. The state's fields under its updates, and a register field under writes of register fields. -/

namespace Sys2Proof.Machine

set_option Elab.async false

/-! ## Register fields -/

/-- A field just written reads as the value written, cut to the field's width. -/
@[simp] theorem get_put_same (s : State) (f : Fld) (v i : Nat) : (s.put f v i).get f i = v % 2 ^ f.width := by
  simp only [State.get, State.put, SMap.look_put_same]
  exact Nat.xor_xor_cancel_right ..

/-- A field at another place of the register file keeps its value. -/
theorem get_put_ne (s : State) (f g : Fld) (v i j : Nat) (h : g.key j ≠ f.key i) : (s.put f v i).get g j = s.get g j := by
  simp only [State.get, State.put]
  rw [SMap.look_put_ne _ _ _ _ h]

/-- A flag just written reads as written. -/
theorem flag_putFlag_same (s : State) (f : Fld) (b : Bool) (i : Nat) (h : 0 < f.width) :
    (s.putFlag f b i).flag f i = b := by
  have : b.toNat % 2 ^ f.width = b.toNat := by
    refine Nat.mod_eq_of_lt (Nat.lt_of_lt_of_le (m := 2) ?_ (Nat.pow_le_pow_right (n := 2) (by decide) h))
    cases b <;> decide
  simp only [State.flag, State.putFlag, get_put_same, this]
  cases b <;> rfl

/-- A flag at another place keeps its value. -/
theorem flag_putFlag_ne (s : State) (f g : Fld) (b : Bool) (i j : Nat) (h : g.key j ≠ f.key i) :
    (s.putFlag f b i).flag g j = s.flag g j := by
  simp only [State.flag, State.putFlag, get_put_ne s f g _ i j h]

/-- The register file keeps its canonical form. -/
theorem regs_put_wf (s : State) (f : Fld) (v i : Nat) (h : SMap.wf 0 s.regs) : SMap.wf 0 (s.put f v i).regs :=
  SMap.wf_put _ _ _ h

/-! ## put -/

@[simp] theorem put_freeCount (s : State) (f : Fld) (v i : Nat) : (s.put f v i).freeCount = s.freeCount := rfl
@[simp] theorem put_latch (s : State) (f : Fld) (v i : Nat) : (s.put f v i).latch = s.latch := rfl
@[simp] theorem put_answer (s : State) (f : Fld) (v i : Nat) : (s.put f v i).answer = s.answer := rfl
@[simp] theorem put_mode (s : State) (f : Fld) (v i : Nat) : (s.put f v i).mode = s.mode := rfl
@[simp] theorem put_mail (s : State) (f : Fld) (v i : Nat) : (s.put f v i).mail = s.mail := rfl
@[simp] theorem put_hosts (s : State) (f : Fld) (v i : Nat) : (s.put f v i).hosts = s.hosts := rfl
@[simp] theorem put_spine (s : State) (f : Fld) (v i : Nat) : (s.put f v i).spine = s.spine := rfl
@[simp] theorem put_fences (s : State) (f : Fld) (v i : Nat) : (s.put f v i).fences = s.fences := rfl
@[simp] theorem put_ports (s : State) (f : Fld) (v i : Nat) : (s.put f v i).ports = s.ports := rfl
@[simp] theorem put_fabric (s : State) (f : Fld) (v i : Nat) : (s.put f v i).fabric = s.fabric := rfl
@[simp] theorem put_loader (s : State) (f : Fld) (v i : Nat) : (s.put f v i).loader = s.loader := rfl
@[simp] theorem put_clocks (s : State) (f : Fld) (v i : Nat) : (s.put f v i).clocks = s.clocks := rfl
@[simp] theorem put_lanes (s : State) (f : Fld) (v i : Nat) : (s.put f v i).lanes = s.lanes := rfl
@[simp] theorem put_safety (s : State) (f : Fld) (v i : Nat) : (s.put f v i).safety = s.safety := rfl
@[simp] theorem put_ledger (s : State) (f : Fld) (v i : Nat) : (s.put f v i).ledger = s.ledger := rfl
@[simp] theorem put_power (s : State) (f : Fld) (v i : Nat) : (s.put f v i).power = s.power := rfl
@[simp] theorem put_slate (s : State) (f : Fld) (v i : Nat) : (s.put f v i).slate = s.slate := rfl
@[simp] theorem put_journal (s : State) (f : Fld) (v i : Nat) : (s.put f v i).journal = s.journal := rfl
@[simp] theorem put_banks (s : State) (f : Fld) (v i : Nat) : (s.put f v i).banks = s.banks := rfl
@[simp] theorem put_dma (s : State) (f : Fld) (v i : Nat) : (s.put f v i).dma = s.dma := rfl
@[simp] theorem put_holdup (s : State) (f : Fld) (v i : Nat) : (s.put f v i).holdup = s.holdup := rfl
@[simp] theorem put_test (s : State) (f : Fld) (v i : Nat) : (s.put f v i).test = s.test := rfl
@[simp] theorem put_goldPointer (s : State) (f : Fld) (v i : Nat) : (s.put f v i).goldPointer = s.goldPointer := rfl
@[simp] theorem put_jtag (s : State) (f : Fld) (v i : Nat) : (s.put f v i).jtag = s.jtag := rfl
@[simp] theorem put_calib (s : State) (f : Fld) (v i : Nat) : (s.put f v i).calib = s.calib := rfl

/-! ## putFlag -/

@[simp] theorem putFlag_freeCount (s : State) (f : Fld) (b : Bool) (i : Nat) : (s.putFlag f b i).freeCount = s.freeCount := rfl
@[simp] theorem putFlag_latch (s : State) (f : Fld) (b : Bool) (i : Nat) : (s.putFlag f b i).latch = s.latch := rfl
@[simp] theorem putFlag_answer (s : State) (f : Fld) (b : Bool) (i : Nat) : (s.putFlag f b i).answer = s.answer := rfl
@[simp] theorem putFlag_mode (s : State) (f : Fld) (b : Bool) (i : Nat) : (s.putFlag f b i).mode = s.mode := rfl
@[simp] theorem putFlag_mail (s : State) (f : Fld) (b : Bool) (i : Nat) : (s.putFlag f b i).mail = s.mail := rfl
@[simp] theorem putFlag_hosts (s : State) (f : Fld) (b : Bool) (i : Nat) : (s.putFlag f b i).hosts = s.hosts := rfl
@[simp] theorem putFlag_spine (s : State) (f : Fld) (b : Bool) (i : Nat) : (s.putFlag f b i).spine = s.spine := rfl
@[simp] theorem putFlag_fences (s : State) (f : Fld) (b : Bool) (i : Nat) : (s.putFlag f b i).fences = s.fences := rfl
@[simp] theorem putFlag_ports (s : State) (f : Fld) (b : Bool) (i : Nat) : (s.putFlag f b i).ports = s.ports := rfl
@[simp] theorem putFlag_fabric (s : State) (f : Fld) (b : Bool) (i : Nat) : (s.putFlag f b i).fabric = s.fabric := rfl
@[simp] theorem putFlag_loader (s : State) (f : Fld) (b : Bool) (i : Nat) : (s.putFlag f b i).loader = s.loader := rfl
@[simp] theorem putFlag_clocks (s : State) (f : Fld) (b : Bool) (i : Nat) : (s.putFlag f b i).clocks = s.clocks := rfl
@[simp] theorem putFlag_lanes (s : State) (f : Fld) (b : Bool) (i : Nat) : (s.putFlag f b i).lanes = s.lanes := rfl
@[simp] theorem putFlag_safety (s : State) (f : Fld) (b : Bool) (i : Nat) : (s.putFlag f b i).safety = s.safety := rfl
@[simp] theorem putFlag_ledger (s : State) (f : Fld) (b : Bool) (i : Nat) : (s.putFlag f b i).ledger = s.ledger := rfl
@[simp] theorem putFlag_power (s : State) (f : Fld) (b : Bool) (i : Nat) : (s.putFlag f b i).power = s.power := rfl
@[simp] theorem putFlag_slate (s : State) (f : Fld) (b : Bool) (i : Nat) : (s.putFlag f b i).slate = s.slate := rfl
@[simp] theorem putFlag_journal (s : State) (f : Fld) (b : Bool) (i : Nat) : (s.putFlag f b i).journal = s.journal := rfl
@[simp] theorem putFlag_banks (s : State) (f : Fld) (b : Bool) (i : Nat) : (s.putFlag f b i).banks = s.banks := rfl
@[simp] theorem putFlag_dma (s : State) (f : Fld) (b : Bool) (i : Nat) : (s.putFlag f b i).dma = s.dma := rfl
@[simp] theorem putFlag_holdup (s : State) (f : Fld) (b : Bool) (i : Nat) : (s.putFlag f b i).holdup = s.holdup := rfl
@[simp] theorem putFlag_test (s : State) (f : Fld) (b : Bool) (i : Nat) : (s.putFlag f b i).test = s.test := rfl
@[simp] theorem putFlag_goldPointer (s : State) (f : Fld) (b : Bool) (i : Nat) : (s.putFlag f b i).goldPointer = s.goldPointer := rfl
@[simp] theorem putFlag_jtag (s : State) (f : Fld) (b : Bool) (i : Nat) : (s.putFlag f b i).jtag = s.jtag := rfl
@[simp] theorem putFlag_calib (s : State) (f : Fld) (b : Bool) (i : Nat) : (s.putFlag f b i).calib = s.calib := rfl

/-! ## putBit -/

@[simp] theorem putBit_freeCount (s : State) (f : Fld) (n : Nat) (b : Bool) (i : Nat) : (s.putBit f n b i).freeCount = s.freeCount := rfl
@[simp] theorem putBit_latch (s : State) (f : Fld) (n : Nat) (b : Bool) (i : Nat) : (s.putBit f n b i).latch = s.latch := rfl
@[simp] theorem putBit_answer (s : State) (f : Fld) (n : Nat) (b : Bool) (i : Nat) : (s.putBit f n b i).answer = s.answer := rfl
@[simp] theorem putBit_mode (s : State) (f : Fld) (n : Nat) (b : Bool) (i : Nat) : (s.putBit f n b i).mode = s.mode := rfl
@[simp] theorem putBit_mail (s : State) (f : Fld) (n : Nat) (b : Bool) (i : Nat) : (s.putBit f n b i).mail = s.mail := rfl
@[simp] theorem putBit_hosts (s : State) (f : Fld) (n : Nat) (b : Bool) (i : Nat) : (s.putBit f n b i).hosts = s.hosts := rfl
@[simp] theorem putBit_spine (s : State) (f : Fld) (n : Nat) (b : Bool) (i : Nat) : (s.putBit f n b i).spine = s.spine := rfl
@[simp] theorem putBit_fences (s : State) (f : Fld) (n : Nat) (b : Bool) (i : Nat) : (s.putBit f n b i).fences = s.fences := rfl
@[simp] theorem putBit_ports (s : State) (f : Fld) (n : Nat) (b : Bool) (i : Nat) : (s.putBit f n b i).ports = s.ports := rfl
@[simp] theorem putBit_fabric (s : State) (f : Fld) (n : Nat) (b : Bool) (i : Nat) : (s.putBit f n b i).fabric = s.fabric := rfl
@[simp] theorem putBit_loader (s : State) (f : Fld) (n : Nat) (b : Bool) (i : Nat) : (s.putBit f n b i).loader = s.loader := rfl
@[simp] theorem putBit_clocks (s : State) (f : Fld) (n : Nat) (b : Bool) (i : Nat) : (s.putBit f n b i).clocks = s.clocks := rfl
@[simp] theorem putBit_lanes (s : State) (f : Fld) (n : Nat) (b : Bool) (i : Nat) : (s.putBit f n b i).lanes = s.lanes := rfl
@[simp] theorem putBit_safety (s : State) (f : Fld) (n : Nat) (b : Bool) (i : Nat) : (s.putBit f n b i).safety = s.safety := rfl
@[simp] theorem putBit_ledger (s : State) (f : Fld) (n : Nat) (b : Bool) (i : Nat) : (s.putBit f n b i).ledger = s.ledger := rfl
@[simp] theorem putBit_power (s : State) (f : Fld) (n : Nat) (b : Bool) (i : Nat) : (s.putBit f n b i).power = s.power := rfl
@[simp] theorem putBit_slate (s : State) (f : Fld) (n : Nat) (b : Bool) (i : Nat) : (s.putBit f n b i).slate = s.slate := rfl
@[simp] theorem putBit_journal (s : State) (f : Fld) (n : Nat) (b : Bool) (i : Nat) : (s.putBit f n b i).journal = s.journal := rfl
@[simp] theorem putBit_banks (s : State) (f : Fld) (n : Nat) (b : Bool) (i : Nat) : (s.putBit f n b i).banks = s.banks := rfl
@[simp] theorem putBit_dma (s : State) (f : Fld) (n : Nat) (b : Bool) (i : Nat) : (s.putBit f n b i).dma = s.dma := rfl
@[simp] theorem putBit_holdup (s : State) (f : Fld) (n : Nat) (b : Bool) (i : Nat) : (s.putBit f n b i).holdup = s.holdup := rfl
@[simp] theorem putBit_test (s : State) (f : Fld) (n : Nat) (b : Bool) (i : Nat) : (s.putBit f n b i).test = s.test := rfl
@[simp] theorem putBit_goldPointer (s : State) (f : Fld) (n : Nat) (b : Bool) (i : Nat) : (s.putBit f n b i).goldPointer = s.goldPointer := rfl
@[simp] theorem putBit_jtag (s : State) (f : Fld) (n : Nat) (b : Bool) (i : Nat) : (s.putBit f n b i).jtag = s.jtag := rfl
@[simp] theorem putBit_calib (s : State) (f : Fld) (n : Nat) (b : Bool) (i : Nat) : (s.putBit f n b i).calib = s.calib := rfl

/-! ## bump -/

@[simp] theorem bump_freeCount (s : State) (f : Fld) (i k : Nat) : (s.bump f i k).freeCount = s.freeCount := rfl
@[simp] theorem bump_latch (s : State) (f : Fld) (i k : Nat) : (s.bump f i k).latch = s.latch := rfl
@[simp] theorem bump_answer (s : State) (f : Fld) (i k : Nat) : (s.bump f i k).answer = s.answer := rfl
@[simp] theorem bump_mode (s : State) (f : Fld) (i k : Nat) : (s.bump f i k).mode = s.mode := rfl
@[simp] theorem bump_mail (s : State) (f : Fld) (i k : Nat) : (s.bump f i k).mail = s.mail := rfl
@[simp] theorem bump_hosts (s : State) (f : Fld) (i k : Nat) : (s.bump f i k).hosts = s.hosts := rfl
@[simp] theorem bump_spine (s : State) (f : Fld) (i k : Nat) : (s.bump f i k).spine = s.spine := rfl
@[simp] theorem bump_fences (s : State) (f : Fld) (i k : Nat) : (s.bump f i k).fences = s.fences := rfl
@[simp] theorem bump_ports (s : State) (f : Fld) (i k : Nat) : (s.bump f i k).ports = s.ports := rfl
@[simp] theorem bump_fabric (s : State) (f : Fld) (i k : Nat) : (s.bump f i k).fabric = s.fabric := rfl
@[simp] theorem bump_loader (s : State) (f : Fld) (i k : Nat) : (s.bump f i k).loader = s.loader := rfl
@[simp] theorem bump_clocks (s : State) (f : Fld) (i k : Nat) : (s.bump f i k).clocks = s.clocks := rfl
@[simp] theorem bump_lanes (s : State) (f : Fld) (i k : Nat) : (s.bump f i k).lanes = s.lanes := rfl
@[simp] theorem bump_safety (s : State) (f : Fld) (i k : Nat) : (s.bump f i k).safety = s.safety := rfl
@[simp] theorem bump_ledger (s : State) (f : Fld) (i k : Nat) : (s.bump f i k).ledger = s.ledger := rfl
@[simp] theorem bump_power (s : State) (f : Fld) (i k : Nat) : (s.bump f i k).power = s.power := rfl
@[simp] theorem bump_slate (s : State) (f : Fld) (i k : Nat) : (s.bump f i k).slate = s.slate := rfl
@[simp] theorem bump_journal (s : State) (f : Fld) (i k : Nat) : (s.bump f i k).journal = s.journal := rfl
@[simp] theorem bump_banks (s : State) (f : Fld) (i k : Nat) : (s.bump f i k).banks = s.banks := rfl
@[simp] theorem bump_dma (s : State) (f : Fld) (i k : Nat) : (s.bump f i k).dma = s.dma := rfl
@[simp] theorem bump_holdup (s : State) (f : Fld) (i k : Nat) : (s.bump f i k).holdup = s.holdup := rfl
@[simp] theorem bump_test (s : State) (f : Fld) (i k : Nat) : (s.bump f i k).test = s.test := rfl
@[simp] theorem bump_goldPointer (s : State) (f : Fld) (i k : Nat) : (s.bump f i k).goldPointer = s.goldPointer := rfl
@[simp] theorem bump_jtag (s : State) (f : Fld) (i k : Nat) : (s.bump f i k).jtag = s.jtag := rfl
@[simp] theorem bump_calib (s : State) (f : Fld) (i k : Nat) : (s.bump f i k).calib = s.calib := rfl

/-! ## stamp -/

@[simp] theorem stamp_freeCount (s : State) (f : Fld) (i : Nat) : (s.stamp f i).freeCount = s.freeCount := rfl
@[simp] theorem stamp_latch (s : State) (f : Fld) (i : Nat) : (s.stamp f i).latch = s.latch := rfl
@[simp] theorem stamp_answer (s : State) (f : Fld) (i : Nat) : (s.stamp f i).answer = s.answer := rfl
@[simp] theorem stamp_mode (s : State) (f : Fld) (i : Nat) : (s.stamp f i).mode = s.mode := rfl
@[simp] theorem stamp_mail (s : State) (f : Fld) (i : Nat) : (s.stamp f i).mail = s.mail := rfl
@[simp] theorem stamp_hosts (s : State) (f : Fld) (i : Nat) : (s.stamp f i).hosts = s.hosts := rfl
@[simp] theorem stamp_spine (s : State) (f : Fld) (i : Nat) : (s.stamp f i).spine = s.spine := rfl
@[simp] theorem stamp_fences (s : State) (f : Fld) (i : Nat) : (s.stamp f i).fences = s.fences := rfl
@[simp] theorem stamp_ports (s : State) (f : Fld) (i : Nat) : (s.stamp f i).ports = s.ports := rfl
@[simp] theorem stamp_fabric (s : State) (f : Fld) (i : Nat) : (s.stamp f i).fabric = s.fabric := rfl
@[simp] theorem stamp_loader (s : State) (f : Fld) (i : Nat) : (s.stamp f i).loader = s.loader := rfl
@[simp] theorem stamp_clocks (s : State) (f : Fld) (i : Nat) : (s.stamp f i).clocks = s.clocks := rfl
@[simp] theorem stamp_lanes (s : State) (f : Fld) (i : Nat) : (s.stamp f i).lanes = s.lanes := rfl
@[simp] theorem stamp_safety (s : State) (f : Fld) (i : Nat) : (s.stamp f i).safety = s.safety := rfl
@[simp] theorem stamp_ledger (s : State) (f : Fld) (i : Nat) : (s.stamp f i).ledger = s.ledger := rfl
@[simp] theorem stamp_power (s : State) (f : Fld) (i : Nat) : (s.stamp f i).power = s.power := rfl
@[simp] theorem stamp_slate (s : State) (f : Fld) (i : Nat) : (s.stamp f i).slate = s.slate := rfl
@[simp] theorem stamp_journal (s : State) (f : Fld) (i : Nat) : (s.stamp f i).journal = s.journal := rfl
@[simp] theorem stamp_banks (s : State) (f : Fld) (i : Nat) : (s.stamp f i).banks = s.banks := rfl
@[simp] theorem stamp_dma (s : State) (f : Fld) (i : Nat) : (s.stamp f i).dma = s.dma := rfl
@[simp] theorem stamp_holdup (s : State) (f : Fld) (i : Nat) : (s.stamp f i).holdup = s.holdup := rfl
@[simp] theorem stamp_test (s : State) (f : Fld) (i : Nat) : (s.stamp f i).test = s.test := rfl
@[simp] theorem stamp_goldPointer (s : State) (f : Fld) (i : Nat) : (s.stamp f i).goldPointer = s.goldPointer := rfl
@[simp] theorem stamp_jtag (s : State) (f : Fld) (i : Nat) : (s.stamp f i).jtag = s.jtag := rfl
@[simp] theorem stamp_calib (s : State) (f : Fld) (i : Nat) : (s.stamp f i).calib = s.calib := rfl

/-! ## spend -/

@[simp] theorem spend_regs (s : State) : (s.spend).regs = s.regs := rfl
@[simp] theorem spend_latch (s : State) : (s.spend).latch = s.latch := rfl
@[simp] theorem spend_answer (s : State) : (s.spend).answer = s.answer := rfl
@[simp] theorem spend_mode (s : State) : (s.spend).mode = s.mode := rfl
@[simp] theorem spend_mail (s : State) : (s.spend).mail = s.mail := rfl
@[simp] theorem spend_hosts (s : State) : (s.spend).hosts = s.hosts := rfl
@[simp] theorem spend_spine (s : State) : (s.spend).spine = s.spine := rfl
@[simp] theorem spend_fences (s : State) : (s.spend).fences = s.fences := rfl
@[simp] theorem spend_ports (s : State) : (s.spend).ports = s.ports := rfl
@[simp] theorem spend_fabric (s : State) : (s.spend).fabric = s.fabric := rfl
@[simp] theorem spend_loader (s : State) : (s.spend).loader = s.loader := rfl
@[simp] theorem spend_clocks (s : State) : (s.spend).clocks = s.clocks := rfl
@[simp] theorem spend_lanes (s : State) : (s.spend).lanes = s.lanes := rfl
@[simp] theorem spend_safety (s : State) : (s.spend).safety = s.safety := rfl
@[simp] theorem spend_ledger (s : State) : (s.spend).ledger = s.ledger := rfl
@[simp] theorem spend_power (s : State) : (s.spend).power = s.power := rfl
@[simp] theorem spend_slate (s : State) : (s.spend).slate = s.slate := rfl
@[simp] theorem spend_journal (s : State) : (s.spend).journal = s.journal := rfl
@[simp] theorem spend_banks (s : State) : (s.spend).banks = s.banks := rfl
@[simp] theorem spend_dma (s : State) : (s.spend).dma = s.dma := rfl
@[simp] theorem spend_holdup (s : State) : (s.spend).holdup = s.holdup := rfl
@[simp] theorem spend_test (s : State) : (s.spend).test = s.test := rfl
@[simp] theorem spend_goldPointer (s : State) : (s.spend).goldPointer = s.goldPointer := rfl
@[simp] theorem spend_jtag (s : State) : (s.spend).jtag = s.jtag := rfl
@[simp] theorem spend_calib (s : State) : (s.spend).calib = s.calib := rfl

/-! ## setRunning -/

@[simp] theorem setRunning_freeCount (s : State) (m : Nat) (p : Option Packet) : (s.setRunning m p).freeCount = s.freeCount := rfl
@[simp] theorem setRunning_regs (s : State) (m : Nat) (p : Option Packet) : (s.setRunning m p).regs = s.regs := rfl
@[simp] theorem setRunning_latch (s : State) (m : Nat) (p : Option Packet) : (s.setRunning m p).latch = s.latch := rfl
@[simp] theorem setRunning_answer (s : State) (m : Nat) (p : Option Packet) : (s.setRunning m p).answer = s.answer := rfl
@[simp] theorem setRunning_mode (s : State) (m : Nat) (p : Option Packet) : (s.setRunning m p).mode = s.mode := rfl
@[simp] theorem setRunning_hosts (s : State) (m : Nat) (p : Option Packet) : (s.setRunning m p).hosts = s.hosts := rfl
@[simp] theorem setRunning_spine (s : State) (m : Nat) (p : Option Packet) : (s.setRunning m p).spine = s.spine := rfl
@[simp] theorem setRunning_fences (s : State) (m : Nat) (p : Option Packet) : (s.setRunning m p).fences = s.fences := rfl
@[simp] theorem setRunning_ports (s : State) (m : Nat) (p : Option Packet) : (s.setRunning m p).ports = s.ports := rfl
@[simp] theorem setRunning_fabric (s : State) (m : Nat) (p : Option Packet) : (s.setRunning m p).fabric = s.fabric := rfl
@[simp] theorem setRunning_loader (s : State) (m : Nat) (p : Option Packet) : (s.setRunning m p).loader = s.loader := rfl
@[simp] theorem setRunning_clocks (s : State) (m : Nat) (p : Option Packet) : (s.setRunning m p).clocks = s.clocks := rfl
@[simp] theorem setRunning_lanes (s : State) (m : Nat) (p : Option Packet) : (s.setRunning m p).lanes = s.lanes := rfl
@[simp] theorem setRunning_safety (s : State) (m : Nat) (p : Option Packet) : (s.setRunning m p).safety = s.safety := rfl
@[simp] theorem setRunning_ledger (s : State) (m : Nat) (p : Option Packet) : (s.setRunning m p).ledger = s.ledger := rfl
@[simp] theorem setRunning_power (s : State) (m : Nat) (p : Option Packet) : (s.setRunning m p).power = s.power := rfl
@[simp] theorem setRunning_slate (s : State) (m : Nat) (p : Option Packet) : (s.setRunning m p).slate = s.slate := rfl
@[simp] theorem setRunning_journal (s : State) (m : Nat) (p : Option Packet) : (s.setRunning m p).journal = s.journal := rfl
@[simp] theorem setRunning_banks (s : State) (m : Nat) (p : Option Packet) : (s.setRunning m p).banks = s.banks := rfl
@[simp] theorem setRunning_dma (s : State) (m : Nat) (p : Option Packet) : (s.setRunning m p).dma = s.dma := rfl
@[simp] theorem setRunning_holdup (s : State) (m : Nat) (p : Option Packet) : (s.setRunning m p).holdup = s.holdup := rfl
@[simp] theorem setRunning_test (s : State) (m : Nat) (p : Option Packet) : (s.setRunning m p).test = s.test := rfl
@[simp] theorem setRunning_goldPointer (s : State) (m : Nat) (p : Option Packet) : (s.setRunning m p).goldPointer = s.goldPointer := rfl
@[simp] theorem setRunning_jtag (s : State) (m : Nat) (p : Option Packet) : (s.setRunning m p).jtag = s.jtag := rfl
@[simp] theorem setRunning_calib (s : State) (m : Nat) (p : Option Packet) : (s.setRunning m p).calib = s.calib := rfl

/-! ## putReply -/

@[simp] theorem putReply_freeCount (s : State) (m a : Nat) (ws : List Word) : (s.putReply m a ws).freeCount = s.freeCount := rfl
@[simp] theorem putReply_regs (s : State) (m a : Nat) (ws : List Word) : (s.putReply m a ws).regs = s.regs := rfl
@[simp] theorem putReply_latch (s : State) (m a : Nat) (ws : List Word) : (s.putReply m a ws).latch = s.latch := rfl
@[simp] theorem putReply_answer (s : State) (m a : Nat) (ws : List Word) : (s.putReply m a ws).answer = s.answer := rfl
@[simp] theorem putReply_mode (s : State) (m a : Nat) (ws : List Word) : (s.putReply m a ws).mode = s.mode := rfl
@[simp] theorem putReply_hosts (s : State) (m a : Nat) (ws : List Word) : (s.putReply m a ws).hosts = s.hosts := rfl
@[simp] theorem putReply_spine (s : State) (m a : Nat) (ws : List Word) : (s.putReply m a ws).spine = s.spine := rfl
@[simp] theorem putReply_fences (s : State) (m a : Nat) (ws : List Word) : (s.putReply m a ws).fences = s.fences := rfl
@[simp] theorem putReply_ports (s : State) (m a : Nat) (ws : List Word) : (s.putReply m a ws).ports = s.ports := rfl
@[simp] theorem putReply_fabric (s : State) (m a : Nat) (ws : List Word) : (s.putReply m a ws).fabric = s.fabric := rfl
@[simp] theorem putReply_loader (s : State) (m a : Nat) (ws : List Word) : (s.putReply m a ws).loader = s.loader := rfl
@[simp] theorem putReply_clocks (s : State) (m a : Nat) (ws : List Word) : (s.putReply m a ws).clocks = s.clocks := rfl
@[simp] theorem putReply_lanes (s : State) (m a : Nat) (ws : List Word) : (s.putReply m a ws).lanes = s.lanes := rfl
@[simp] theorem putReply_safety (s : State) (m a : Nat) (ws : List Word) : (s.putReply m a ws).safety = s.safety := rfl
@[simp] theorem putReply_ledger (s : State) (m a : Nat) (ws : List Word) : (s.putReply m a ws).ledger = s.ledger := rfl
@[simp] theorem putReply_power (s : State) (m a : Nat) (ws : List Word) : (s.putReply m a ws).power = s.power := rfl
@[simp] theorem putReply_slate (s : State) (m a : Nat) (ws : List Word) : (s.putReply m a ws).slate = s.slate := rfl
@[simp] theorem putReply_journal (s : State) (m a : Nat) (ws : List Word) : (s.putReply m a ws).journal = s.journal := rfl
@[simp] theorem putReply_banks (s : State) (m a : Nat) (ws : List Word) : (s.putReply m a ws).banks = s.banks := rfl
@[simp] theorem putReply_dma (s : State) (m a : Nat) (ws : List Word) : (s.putReply m a ws).dma = s.dma := rfl
@[simp] theorem putReply_holdup (s : State) (m a : Nat) (ws : List Word) : (s.putReply m a ws).holdup = s.holdup := rfl
@[simp] theorem putReply_test (s : State) (m a : Nat) (ws : List Word) : (s.putReply m a ws).test = s.test := rfl
@[simp] theorem putReply_goldPointer (s : State) (m a : Nat) (ws : List Word) : (s.putReply m a ws).goldPointer = s.goldPointer := rfl
@[simp] theorem putReply_jtag (s : State) (m a : Nat) (ws : List Word) : (s.putReply m a ws).jtag = s.jtag := rfl
@[simp] theorem putReply_calib (s : State) (m a : Nat) (ws : List Word) : (s.putReply m a ws).calib = s.calib := rfl

/-! ## admitOp -/

@[simp] theorem admitOp_freeCount (s : State) (c w : Nat) : (s.admitOp c w).freeCount = s.freeCount := rfl
@[simp] theorem admitOp_regs (s : State) (c w : Nat) : (s.admitOp c w).regs = s.regs := rfl
@[simp] theorem admitOp_latch (s : State) (c w : Nat) : (s.admitOp c w).latch = s.latch := rfl
@[simp] theorem admitOp_answer (s : State) (c w : Nat) : (s.admitOp c w).answer = s.answer := rfl
@[simp] theorem admitOp_mode (s : State) (c w : Nat) : (s.admitOp c w).mode = s.mode := rfl
@[simp] theorem admitOp_mail (s : State) (c w : Nat) : (s.admitOp c w).mail = s.mail := rfl
@[simp] theorem admitOp_hosts (s : State) (c w : Nat) : (s.admitOp c w).hosts = s.hosts := rfl
@[simp] theorem admitOp_spine (s : State) (c w : Nat) : (s.admitOp c w).spine = s.spine := rfl
@[simp] theorem admitOp_fences (s : State) (c w : Nat) : (s.admitOp c w).fences = s.fences := rfl
@[simp] theorem admitOp_ports (s : State) (c w : Nat) : (s.admitOp c w).ports = s.ports := rfl
@[simp] theorem admitOp_fabric (s : State) (c w : Nat) : (s.admitOp c w).fabric = s.fabric := rfl
@[simp] theorem admitOp_loader (s : State) (c w : Nat) : (s.admitOp c w).loader = s.loader := rfl
@[simp] theorem admitOp_clocks (s : State) (c w : Nat) : (s.admitOp c w).clocks = s.clocks := rfl
@[simp] theorem admitOp_lanes (s : State) (c w : Nat) : (s.admitOp c w).lanes = s.lanes := rfl
@[simp] theorem admitOp_safety (s : State) (c w : Nat) : (s.admitOp c w).safety = s.safety := rfl
@[simp] theorem admitOp_power (s : State) (c w : Nat) : (s.admitOp c w).power = s.power := rfl
@[simp] theorem admitOp_slate (s : State) (c w : Nat) : (s.admitOp c w).slate = s.slate := rfl
@[simp] theorem admitOp_journal (s : State) (c w : Nat) : (s.admitOp c w).journal = s.journal := rfl
@[simp] theorem admitOp_banks (s : State) (c w : Nat) : (s.admitOp c w).banks = s.banks := rfl
@[simp] theorem admitOp_dma (s : State) (c w : Nat) : (s.admitOp c w).dma = s.dma := rfl
@[simp] theorem admitOp_holdup (s : State) (c w : Nat) : (s.admitOp c w).holdup = s.holdup := rfl
@[simp] theorem admitOp_test (s : State) (c w : Nat) : (s.admitOp c w).test = s.test := rfl
@[simp] theorem admitOp_goldPointer (s : State) (c w : Nat) : (s.admitOp c w).goldPointer = s.goldPointer := rfl
@[simp] theorem admitOp_jtag (s : State) (c w : Nat) : (s.admitOp c w).jtag = s.jtag := rfl
@[simp] theorem admitOp_calib (s : State) (c w : Nat) : (s.admitOp c w).calib = s.calib := rfl

/-! ## releaseOp -/

@[simp] theorem releaseOp_freeCount (s : State) (c w : Nat) : (s.releaseOp c w).freeCount = s.freeCount := rfl
@[simp] theorem releaseOp_regs (s : State) (c w : Nat) : (s.releaseOp c w).regs = s.regs := rfl
@[simp] theorem releaseOp_latch (s : State) (c w : Nat) : (s.releaseOp c w).latch = s.latch := rfl
@[simp] theorem releaseOp_answer (s : State) (c w : Nat) : (s.releaseOp c w).answer = s.answer := rfl
@[simp] theorem releaseOp_mode (s : State) (c w : Nat) : (s.releaseOp c w).mode = s.mode := rfl
@[simp] theorem releaseOp_mail (s : State) (c w : Nat) : (s.releaseOp c w).mail = s.mail := rfl
@[simp] theorem releaseOp_hosts (s : State) (c w : Nat) : (s.releaseOp c w).hosts = s.hosts := rfl
@[simp] theorem releaseOp_spine (s : State) (c w : Nat) : (s.releaseOp c w).spine = s.spine := rfl
@[simp] theorem releaseOp_fences (s : State) (c w : Nat) : (s.releaseOp c w).fences = s.fences := rfl
@[simp] theorem releaseOp_ports (s : State) (c w : Nat) : (s.releaseOp c w).ports = s.ports := rfl
@[simp] theorem releaseOp_fabric (s : State) (c w : Nat) : (s.releaseOp c w).fabric = s.fabric := rfl
@[simp] theorem releaseOp_loader (s : State) (c w : Nat) : (s.releaseOp c w).loader = s.loader := rfl
@[simp] theorem releaseOp_clocks (s : State) (c w : Nat) : (s.releaseOp c w).clocks = s.clocks := rfl
@[simp] theorem releaseOp_lanes (s : State) (c w : Nat) : (s.releaseOp c w).lanes = s.lanes := rfl
@[simp] theorem releaseOp_safety (s : State) (c w : Nat) : (s.releaseOp c w).safety = s.safety := rfl
@[simp] theorem releaseOp_power (s : State) (c w : Nat) : (s.releaseOp c w).power = s.power := rfl
@[simp] theorem releaseOp_slate (s : State) (c w : Nat) : (s.releaseOp c w).slate = s.slate := rfl
@[simp] theorem releaseOp_journal (s : State) (c w : Nat) : (s.releaseOp c w).journal = s.journal := rfl
@[simp] theorem releaseOp_banks (s : State) (c w : Nat) : (s.releaseOp c w).banks = s.banks := rfl
@[simp] theorem releaseOp_dma (s : State) (c w : Nat) : (s.releaseOp c w).dma = s.dma := rfl
@[simp] theorem releaseOp_holdup (s : State) (c w : Nat) : (s.releaseOp c w).holdup = s.holdup := rfl
@[simp] theorem releaseOp_test (s : State) (c w : Nat) : (s.releaseOp c w).test = s.test := rfl
@[simp] theorem releaseOp_goldPointer (s : State) (c w : Nat) : (s.releaseOp c w).goldPointer = s.goldPointer := rfl
@[simp] theorem releaseOp_jtag (s : State) (c w : Nat) : (s.releaseOp c w).jtag = s.jtag := rfl
@[simp] theorem releaseOp_calib (s : State) (c w : Nat) : (s.releaseOp c w).calib = s.calib := rfl

/-! ## setLoader -/

@[simp] theorem setLoader_freeCount (s : State) (l : Loader) : (s.setLoader l).freeCount = s.freeCount := rfl
@[simp] theorem setLoader_regs (s : State) (l : Loader) : (s.setLoader l).regs = s.regs := rfl
@[simp] theorem setLoader_latch (s : State) (l : Loader) : (s.setLoader l).latch = s.latch := rfl
@[simp] theorem setLoader_answer (s : State) (l : Loader) : (s.setLoader l).answer = s.answer := rfl
@[simp] theorem setLoader_mode (s : State) (l : Loader) : (s.setLoader l).mode = s.mode := rfl
@[simp] theorem setLoader_mail (s : State) (l : Loader) : (s.setLoader l).mail = s.mail := rfl
@[simp] theorem setLoader_hosts (s : State) (l : Loader) : (s.setLoader l).hosts = s.hosts := rfl
@[simp] theorem setLoader_spine (s : State) (l : Loader) : (s.setLoader l).spine = s.spine := rfl
@[simp] theorem setLoader_fences (s : State) (l : Loader) : (s.setLoader l).fences = s.fences := rfl
@[simp] theorem setLoader_ports (s : State) (l : Loader) : (s.setLoader l).ports = s.ports := rfl
@[simp] theorem setLoader_fabric (s : State) (l : Loader) : (s.setLoader l).fabric = s.fabric := rfl
@[simp] theorem setLoader_clocks (s : State) (l : Loader) : (s.setLoader l).clocks = s.clocks := rfl
@[simp] theorem setLoader_lanes (s : State) (l : Loader) : (s.setLoader l).lanes = s.lanes := rfl
@[simp] theorem setLoader_safety (s : State) (l : Loader) : (s.setLoader l).safety = s.safety := rfl
@[simp] theorem setLoader_ledger (s : State) (l : Loader) : (s.setLoader l).ledger = s.ledger := rfl
@[simp] theorem setLoader_power (s : State) (l : Loader) : (s.setLoader l).power = s.power := rfl
@[simp] theorem setLoader_slate (s : State) (l : Loader) : (s.setLoader l).slate = s.slate := rfl
@[simp] theorem setLoader_journal (s : State) (l : Loader) : (s.setLoader l).journal = s.journal := rfl
@[simp] theorem setLoader_banks (s : State) (l : Loader) : (s.setLoader l).banks = s.banks := rfl
@[simp] theorem setLoader_dma (s : State) (l : Loader) : (s.setLoader l).dma = s.dma := rfl
@[simp] theorem setLoader_holdup (s : State) (l : Loader) : (s.setLoader l).holdup = s.holdup := rfl
@[simp] theorem setLoader_test (s : State) (l : Loader) : (s.setLoader l).test = s.test := rfl
@[simp] theorem setLoader_goldPointer (s : State) (l : Loader) : (s.setLoader l).goldPointer = s.goldPointer := rfl
@[simp] theorem setLoader_jtag (s : State) (l : Loader) : (s.setLoader l).jtag = s.jtag := rfl
@[simp] theorem setLoader_calib (s : State) (l : Loader) : (s.setLoader l).calib = s.calib := rfl

/-! ## acked -/

@[simp] theorem acked_freeCount (s : State) : (s.acked).freeCount = s.freeCount := rfl
@[simp] theorem acked_regs (s : State) : (s.acked).regs = s.regs := rfl
@[simp] theorem acked_latch (s : State) : (s.acked).latch = s.latch := rfl
@[simp] theorem acked_mode (s : State) : (s.acked).mode = s.mode := rfl
@[simp] theorem acked_mail (s : State) : (s.acked).mail = s.mail := rfl
@[simp] theorem acked_hosts (s : State) : (s.acked).hosts = s.hosts := rfl
@[simp] theorem acked_spine (s : State) : (s.acked).spine = s.spine := rfl
@[simp] theorem acked_fences (s : State) : (s.acked).fences = s.fences := rfl
@[simp] theorem acked_ports (s : State) : (s.acked).ports = s.ports := rfl
@[simp] theorem acked_fabric (s : State) : (s.acked).fabric = s.fabric := rfl
@[simp] theorem acked_loader (s : State) : (s.acked).loader = s.loader := rfl
@[simp] theorem acked_clocks (s : State) : (s.acked).clocks = s.clocks := rfl
@[simp] theorem acked_lanes (s : State) : (s.acked).lanes = s.lanes := rfl
@[simp] theorem acked_safety (s : State) : (s.acked).safety = s.safety := rfl
@[simp] theorem acked_ledger (s : State) : (s.acked).ledger = s.ledger := rfl
@[simp] theorem acked_power (s : State) : (s.acked).power = s.power := rfl
@[simp] theorem acked_slate (s : State) : (s.acked).slate = s.slate := rfl
@[simp] theorem acked_journal (s : State) : (s.acked).journal = s.journal := rfl
@[simp] theorem acked_banks (s : State) : (s.acked).banks = s.banks := rfl
@[simp] theorem acked_dma (s : State) : (s.acked).dma = s.dma := rfl
@[simp] theorem acked_holdup (s : State) : (s.acked).holdup = s.holdup := rfl
@[simp] theorem acked_test (s : State) : (s.acked).test = s.test := rfl
@[simp] theorem acked_goldPointer (s : State) : (s.acked).goldPointer = s.goldPointer := rfl
@[simp] theorem acked_jtag (s : State) : (s.acked).jtag = s.jtag := rfl
@[simp] theorem acked_calib (s : State) : (s.acked).calib = s.calib := rfl

end Sys2Proof.Machine
end

