-- ==== Sys2Proof/Tests/Slice0.lean ====
section
/-! SUPPORT. Tests: ill-formed commands, the manual's worked examples, and for every statement with hypotheses a state and
operands that meet them all. -/

open Sys2Proof Sys2Proof.Machine

namespace Sys2Proof.Tests

set_option maxRecDepth 20000
set_option Elab.async false


/-! ## States and packets the tests start from -/

/-- RUN, with everything else as at reset. -/
def runState : State := { State.reset with mode := .run }

/-- RUN with region 0 loaded, powered, unfenced and owned by host 4's family, and port 0 enabled on both sides. -/
def regionState : State :=
  let s := (((runState.put .CFG_REGION_STAT_STATE 3).put .PWR_DOMAINS_REGION_ON 1).put .ATT_REGION_PARENT_PARENT 0x14)
  (s.putFence 0 { load := false }).putPort 0 { iniOn := true, tgtOn := true }

/-- `regionState` with region 1 like region 0. -/
def twoRegions : State :=
  (((regionState.put .CFG_REGION_STAT_STATE 3 1).put .PWR_DOMAINS_REGION_ON 3).put .ATT_REGION_PARENT_PARENT 0x14 1).putFence
    1 { load := false }

/-- `s` with every source of a clock line running. -/
def clocked (s : State) : State :=
  let s := (List.range 16).foldl (fun s k => s.putFlag .PLL_STAT_QUALIFIED true k) s
  let s := (List.range 8).foldl (fun s q => (s.putFlag .XCV_RCLK_RUN0 true q).putFlag .XCV_RCLK_RUN1 true q) s
  { s with
    clocks := { s.clocks with
      pll := (List.range 16).map fun k => (k, { inForce := { outs := List.replicate 5 (16, true) } }) }
    fabric := { s.fabric with globalLines := [(5, 0x80), (6, 0x80), (7, 0x80)] } }

/-- Port 0 is clocked where every line of quadrant 0 has a source that runs: whichever of them the cells select. -/
theorem port_clocked (s : State) (h : ∀ line < 32, (s.lineSource 0 line).any s.sourceRuns = true) :
    s.portClocked 0 = true :=
  h _ (Nat.mod_lt _ (by decide))

theorem port_ready (s : State) (h : ∀ line < 32, (s.lineSource 0 line).any s.sourceRuns = true)
    (h1 : s.regionRuns 0 = true) (h2 : (s.port 0).iniOn = true) (h3 : (s.port 0).resync = false) :
    s.portReady 0 = true := by
  simp [State.portReady, port_clocked s h, h1, h2, h3]

/-- A packet of opcode `op`, from a sender who acts as `acts`. -/
def packet (op : Nat) (params : List Word) (acts : Nat) : Packet := { opcode := op, irq := false, seq := 0, params, acts }

/-- A one-beat transaction of host 4's SPI port to `addr`, numbered 1. -/
def txnTo (addr : Nat) (kind : TxnKind) : Txn :=
  { id := 1, src := 68, owner := 0x14, kind, addr, beats := [{ be := 0, data := 0 }] }

/-- A read of the Slate window's first bank numbered `i`, by ADMIN. -/
def slateTxn (i : Nat) : Txn := { txnTo 0x1_0000_0000 .read with id := i }

/-- Flash bank 0 with 64 reads taken, and one more at the Slate controller's ingress. -/
def fullQueue : State :=
  let s := (runState.put .ATT_ADMIN_ADMIN 0x14).put .ATT_REGION_PARENT_PARENT 0x14
  { s with spine := { s.spine with taken := (List.range 64).map fun i => slateTxn (i + 2), ingress := [slateTxn 1] } }

def withIngress (s : State) (t : Txn) : State := { s with spine := { s.spine with ingress := [t] } }
def withTaken (s : State) (t : Txn) : State := { s with spine := { s.spine with taken := [t] } }

/-- `s` with host 0 attached: its endpoint enabled, out of reset, and its link up. -/
def hostUp (s : State) : State :=
  (((s.putFlag .MBX_EP_STAT_ENABLED true).putFlag .MBX_EP_STAT_LINK_UP true)).putEndpoint 0 { perstHigh := true }

/-- `s` with all sixteen ring and bank groups powered, and the ledger full. -/
def powered (s : State) : State := ((s.put .PWR_DOMAINS_GROUP_ON 0xFFFF).put .NRG_AVAIL_UJ 100000)

/-- RUN with the journal recovered, power for a commit, and every bank group on. -/
def storeState : State := (powered runState).put .SLT_SET_STAT_STATE 1

/-- The words of an ownership record: host 4 owns everything. -/
def ownershipTest : List Word := List.replicate 52 0x14141414 ++ [0x14]

/-- Every scrubber running. -/
def scrubState : State := (powered runState).putFlag .BNK_SCRUB_RUNNING true

/-- `s` with a slice test of page 0 of bank 0, parked in bank 8, at step 1. -/
def sliceState (s : State) : State :=
  { s with banks := { s.banks with
      slice := [(0, some { bank := 0, page := 0, parkBank := 8, parkPage := 0, step := 1 })] } }

/-- RUN with ring 0, of group 0 whose parent is the host 0, in state `n` of DMA_RING_STAT. -/
def ringState (n : Nat) : State :=
  (((hostUp runState).put .ATT_GROUP_PARENT_PARENT 0x10).put .DMA_RING_STAT_STATE n).put .DMA_RING_CTL_VECTOR 1

/-- `ringState 1` with one job on ring 0. -/
def jobState (j : DmaJob) : State := (ringState 1).putRing 0 { jobs := [j] }

def emptyDescriptor : Descriptor :=
  { opcode := 0, barrier := false, irq := false, chain := false, sglSrc := false, sglDst := false, poisonOk := false,
    reserved := false, user := 0, length := 0, src := 0, dst := 0, next := 0 }

/-- HOLDUP, with the reserve still there and nothing under way. -/
def holdupState : State := { powered runState with mode := .holdup }

/-- HOLDUP with one transaction of owner 0x10 that copy 0 still needs. -/
def holdupWork : State :=
  { holdupState with holdup := { copy0 := [{ owner := 0x10, seq := 1, changes := [] }] } }

/-- `storeState` with bank 0 held by host 0. -/
def hostStore : State := storeState.put .BNK_OWNER_OWNER 0x10

/-- `hostStore` with the committed items and staged changes given. -/
def withItems (items : List Item) (staged : List Change) : State :=
  { hostStore with journal := { hostStore.journal with copy0 := { items }, staged } }

/-- `s` with one flash unit under way. -/
def withUnit (s : State) (u : FlashUnit) : State := { s with slate := { s.slate with units := [u] } }

/-- The entry numbered `i` of a log, with nothing else in it. -/
def blankEntry (i : Nat) : LogEntry :=
  { index := i, time := 0, epoch := 0, code := 0, flags := 0, owner := 0, arg0 := 0, arg1 := 0 }

/-- `storeState` with 1,024 log entries that are not archived. -/
def archiveState : State :=
  { storeState.put .SAF_LOG_HEAD_NEXT 1024 with
    safety := { slots := (List.range' 0 1024).map fun i => (i, some (blankEntry i)) } }

theorem look_range {α : Type} (d : α) (g : Nat → α) (n : Nat) :
    ∀ a i, a ≤ i → i < a + n → SMap.look d ((List.range' a n).map fun i => (i, g i)) i = g i := by
  induction n with
  | zero => intro a i h h'; omega
  | succ n ih =>
    intro a i h h'
    simp only [List.range'_succ, List.map_cons, SMap.look]
    split
    · simp_all
    · exact ih (a + 1) i (by omega) (by omega)

theorem archive_full (s : State) (h : s.safety = archiveState.safety)
    (h' : s.get .SAF_LOG_HEAD_NEXT = 1024) : 1024 ≤ s.unarchived.length := by
  have e : s.unarchived = (List.range 1024).map blankEntry := by
    simp only [State.unarchived, h, h']
    rw [← List.filterMap_eq_map]
    apply List.filterMap_congr
    intro i hi
    have hi := List.mem_range.1 hi
    have : logSlot (max archiveState.safety.archived (1024 - 4096) + i) = i := by simp [archiveState, logSlot]; omega
    rw [this]
    simp only [archiveState]
    rw [look_range none (fun i => some (blankEntry i)) 1024 0 i (by omega) (by omega)]
    simp [blankEntry, Option.filter]
  simp [e]

theorem pair_of_snd {α β : Type} {x : α × β} {b : β} (h : x.2 = b) : x = (x.1, b) := by cases x; simp_all

/-- The device in OFF. -/
def offState : State := State.reset

/-- `regionState` with PLL 0 powered and a band that covers 4 GHz. -/
def pllState : State :=
  ((regionState.put .PLL_BAND_FMIN_MHZ 3000).put .PLL_BAND_FMAX_MHZ 5000).putFlag .PLL_STAT_POWERED true

/-- The parameters of a PLL command for PLL 0: 100 MHz, M 1, N 40, no output enabled. -/
def pllParams : List Word := [0, 1600000, 10241]

/-- `regionState` with host 4 as ADMIN, quad 0 powered, its LC PLL A locked, and lane 0 enabled on it. -/
def laneState : State :=
  ((((regionState.put .ATT_ADMIN_ADMIN 0x14).put .PWR_DOMAINS_QUAD_ON 1).putFlag .XCV_QUAD_STAT_LOCK_A true).putFlag
    .XCV_LANE_CFG_EN true)

/-- `laneState` with lane 0's clock recovered. -/
def lockedLane : State := laneState.putFlag .XCV_LANE_STAT_CDR_LOCK true

/-- An orderly OFF under way. -/
def leaving (c : PowerCause) (program lc : Option Nat) : State :=
  { runState with power :=
      { orderly := some { cause := c, mailbox := none, restart := true, noTest := true, program := program, lifeCycle := lc } } }

/-- `regionState` with host 4 as ADMIN, all five calibration loops running, and region 0 scrubbed. -/
def watchState : State :=
  let s := (regionState.put .ATT_ADMIN_ADMIN 0x14).put .CAL_STAT_RUN 0x3E
  { s with loader := { lane := [(0, { running := true, next := 3999 })] } }

/-- A header of a one-region image for region 0 in one chunk. -/
def testHeader : Header :=
  { imageType := 2, mask := 1, keySlot := 0, encrypted := false, frameCount := 4000, chunkCount := 1, imageLen := 4096,
    trailer := 0, nonce := [], lines := [], version := 0 }

/-- A load of region 0, with its header checked or not. -/
def testJob (h : Option Header) : LoadJob := { kind := .reload, entry := 0, regions := [0], header := h }

/-- Region 0 LOADING, with the job and the records given. -/
def loadState (h : Option Header) (ws : List FrameWord) : State :=
  { regionState.put .CFG_REGION_STAT_STATE 2 with
    loader := { jobs := [testJob h], writer := [(0, { waiting := ws, tile := [] })] } }

def testFrame (f : Nat) : FrameWord := { frame := f, payload := 0, crc := 0, dynamic := false, chunk := 0, record := 0 }

/-- `hostStore` with host 0 as ADMIN and a directory: the Gold image in entry 0, and entry 1 as given. -/
def dirState (e : DirEntry) : State :=
  { (hostStore.put .ATT_ADMIN_ADMIN 0x10).put .PWR_DOMAINS_REGION_ON 1 with loader :=
    { dir := some { goldEntry := 0, entry := [{ state := 2, segments := 1, imageType := 1 }, e] } } }

/-- BOOT that has failed. -/
def failedState : State := { runState.put .CFG_BOOT_STAT_STATE 5 with mode := .boot }

/-- `s` in life-cycle state `n`. -/
def inLifeCycle (n : Nat) (s : State) : State := s.put .DEV_LC_STATE n

/-- Pins whose regions host 4's family holds: general pin 0 drives its hold level, low; field output 0 holds on. -/
def pinState (f : FioPin) : State :=
  let s := (((runState.put .ATT_REGION_PARENT_PARENT 0x14).put .ATT_REGION_PARENT_PARENT 0x14 12).put
    .GIO_BANK_STAT_VCCIO 1).putFlag .FIO_GRP_STAT_VFIELD_OK true
  (s.putGio 0 { hold := some .low, settings := 0x80 }).putFio 0 f

/-- DOZE with a wake pending. -/
def wokenState : State := { runState with mode := .doze, power := { woken := true } }

/-- The offset of instance `i` of a register, as an access carries it. -/
def offsetOf (r : Reg) (i : Nat) : BitVec 24 := BitVec.ofNat 24 (r.addr i)

/-! ## Ill-formed commands are refused, one for each check -/

theorem test_rejects_check_operands :
    (Instr.imageCheck [(1, []), (1, [])]).wellFormed = false ∧ (Instr.imageCheck [(1, [37504])]).wellFormed = false ∧
    (Instr.chunkArrival 0 [(1, []), (1, [])]).wellFormed = false ∧
    (Instr.scrubRepair 0 0 [(1, []), (1, [])]).wellFormed = false ∧
    (Instr.ldReload 0 [(1, []), (1, [])]).wellFormed = false ∧ (Instr.imgCommit 0 [(1, []), (1, [])]).wellFormed = false ∧
    (Instr.lcGoldCommit 0 [(1, []), (1, [])]).wellFormed = false := by decide

theorem test_rejects_tlp : (Instr.barTlp 0 .bar0 2 false [(0, 0)]).wellFormed = false ∧
    (Instr.barTlp 0 .bar0 0 false []).wellFormed = false ∧ (Instr.spiRead 0 0 false).wellFormed = false := by decide

theorem test_rejects_beats : (Instr.requestSubmit .mgc .read 0 []).wellFormed = false ∧
    (Instr.iniReq 0 0 false 0 { count := 0, beats := [] }).wellFormed = false ∧
    (Instr.tgtRsp 0 0 { data := List.replicate 17 0, last := true }).wellFormed = false ∧
    (Instr.pcieCompletion 0 (List.replicate 17 0)).wellFormed = false := by decide

theorem test_rejects_code_bits : (Instr.slateRead 0 [37504]).wellFormed = false ∧
    (Instr.patrolRead [3, 3]).wellFormed = false ∧ (Instr.pageStability 0 [[[37504]]]).wellFormed = false := by decide

theorem test_rejects_repeats : (Instr.slicePage 0 [(1, 1), (1, 2)]).wellFormed = false ∧
    (Instr.ledgerSample 0 0 0 0 false [(1, 0), (1, 0)]).wellFormed = false ∧
    (Instr.referenceOscillatorWindow true [(0, 0, 0), (0, 0, 0)] 0).wellFormed = false ∧
    (Instr.thermalWindow true [(0, 0), (0, 0)]).wellFormed = false ∧
    (Instr.thermalSample [(0, 0, 0), (0, 0, 0)]).wellFormed = false ∧
    (Instr.scrubCompare 0 [0, 0]).wellFormed = false ∧ (Instr.selftestDone [] [(0, 0), (0, 0)]).wellFormed = false := by
  decide

theorem test_rejects_edges :
    let n : LaneEdge := { lane := 0, arrived := [] }
    (Instr.fabricClockEdge 0 [.oscillator] [.oscillator] 0 [] [] []).wellFormed = false ∧
    (Instr.fabricClockEdge 0 [] [] 0 [n, n] [] []).wellFormed = false ∧
    (Instr.fabricClockEdge 0 [] [] 0 [] [0, 0] []).wellFormed = false ∧
    (Instr.fabricClockEdge 0 [] [] 0 [] [] [0, 0]).wellFormed = false := by decide

/-! ## The manual's worked examples -/

/-- 01, decoding a bank address and a region window. -/
theorem test_addresses : decodeAddr 0x0269_1040 = some (.bank 77 0x1_1040) ∧ groupOfBank 77 = 9 ∧
    decodeAddr 0x2_B000_0000 = some (.region 11 0) ∧ decodeAddr 0x2_BFFF_FFFF = some (.region 11 0xFFF_FFFF) := by decide

/-- 02, a packet that wraps: two entries, and one for the reply. -/
theorem test_packet_entries : entries 20 = 2 ∧ entries 3 = 1 := by decide

/-- 02, a packet that wraps: the doorbell write of host 2. -/
theorem test_doorbell :
    let s := (runState.put .MBX_REQ_HEAD_HEAD 0x3FF 2).put .MBX_REQ_TAIL_TAIL 0x3FF 2
    ∃ t, exec (.mbxReqTailWrite (.host 2) 2 0x401) s = .next t ∧ t.get .MBX_REQ_TAIL_TAIL 2 = 0x401 ∧ t.occupancy 2 = 2 ∧
      t.answer = some { codes := [.ok], words := [] } :=
  ⟨_, rfl, by decide +kernel⟩

/-- 03, rounding modes. -/
theorem test_rounding : roundShift 0 8 2688 = 10 ∧ roundShift 1 8 2688 = 11 ∧ roundShift 2 8 2688 = 10 ∧
    roundShift 0 8 (-2688) = -11 ∧ roundShift 1 8 (-2688) = -11 ∧ roundShift 2 8 (-2688) = -10 := by decide +kernel

/-- 04 R121: the check value of the CRC. -/
theorem test_crc : crc32 [0x31, 0x32, 0x33, 0x34, 0x35, 0x36, 0x37, 0x38, 0x39] = 0xCBF4_3926 := by decide +kernel

/-- 04, finding frame 37,123 in a FULL image and in one for regions 3 and 9. -/
theorem test_frame_place :
    recordPlace { testHeader with imageType := 1, mask := 0xFFFF } 17977 = (9, 37123) ∧
    recordPlace { testHeader with imageType := 2, mask := 0x0208 } 2247 = (9, 37123) := by decide +kernel

/-- 08, reclaiming a bank from an absent host: the SPI port's register write. -/
theorem test_reclaim :
    let s := (((runState.put .ATT_ADMIN_ADMIN 0x14).put .ATT_REGION_PARENT_PARENT 0x11 6).put .BNK_OWNER_OWNER 0x26 40)
    ∃ t, exec (.registerWrite .spi 0x40_0A00 false 0x0113_2600) s = .next t ∧ t.get .BNK_OWNER_OWNER 40 = 0x13 ∧
      t.flag .BNK_OWNER_CLEARING 40 = true ∧ t.answer = some { codes := [.ok], words := [] } :=
  ⟨_, rfl, by decide +kernel⟩

/-- 09, the word code. -/
theorem test_word_code : checkByte 3 = 0x0C ∧ decodeRow (BitVec.ofNat 72 (0x0C * 2 ^ 64 + 1)) = .corrected 3 ∧
    decodeRow (BitVec.ofNat 72 (0x0C * 2 ^ 64)) = .uncorrectable 0 := by decide +kernel

/-- 11, committing host items: the bytes pending, and the pages they take. -/
theorem test_pending :
    let cs : List Change :=
      [{ owner := 0x11, id := 0x42, value := some (List.replicate 6000 0) },
       { owner := 0x11, id := 0x43, value := some (List.replicate 200 0) }, { owner := 0x11, id := 0x40, value := none }]
    pendingOf cs = 6400 ∧ txnPages cs = 2 := by decide +kernel

/-- 12, a HOLDUP budget. -/
theorem test_reserve : rounds 204800 = 5 ∧ reserve 204800 = 9280 := by decide

/-- 14, setting PLL 6: the band of 5,000 MHz and that of 3,800 MHz, and a divider that breaks Table 14-2. -/
theorem test_pll_band :
    let bands := [(3000, 3450), (3375, 3825), (3750, 4200), (4125, 4575), (4500, 4950), (4875, 5325), (5250, 5700), (5625, 6000)]
    let s := bands.zipIdx.foldl (fun s b =>
      (s.put .PLL_BAND_FMIN_MHZ b.1.1 (192 + b.2)).put .PLL_BAND_FMAX_MHZ b.1.2 (192 + b.2)) runState
    let c : PllSetting := { refsel := 2, m := 1, n := 50, outs := [(16, true), (20, true), (8, true), (16, false), (16, false)] }
    s.chooseBand 6 c (100000, 1) = some (5, 5000000) ∧ s.chooseBand 6 { c with n := 38 } (100000, 1) = some (1, 3800000) ∧
    { c with outs := [(6, true)] }.rangeError = 4 := by decide +kernel

/-- 15, 10GBASE-R on lane 5. -/
theorem test_line_rate :
    let c : LcSetting := { khz := 156250, m := 1, n := 66 }
    c.inRange = true ∧ lineRate c 1 = (2 * 10312500, 2) ∧ (laneSetting 0x0003_0285).fits c = true ∧
    (laneSetting 0x0003_0285).mode = 4 := by decide +kernel

/-! ## Registers lie where their chapters put them -/

theorem test_offsets : locate 0x0060_0604 = some (.reg .PLL_CFG 6 false) ∧
    locate 0x00C0_0100 = some (.reg .XCV_LCPLL 2 false) ∧ locate 0x00C1_0500 = some (.reg .XCV_LANE_CFG 5 false) ∧
    locate 0x0040_0A00 = some (.reg .BNK_OWNER 40 false) ∧ locate 0x00A0_0004 = some (.reg .TMB_NOW 0 true) := by
  decide +kernel

/-! ## A step, and the queue -/

theorem test_step_takes_front :
    ∃ t, step { State.reset with pending := [.perstRelease 0, .timebaseSwitch] } = .next t ∧
      (t.endpoint 0).perstHigh = true ∧ t.pending = [.timebaseSwitch] := ⟨_, rfl, by decide +kernel⟩

theorem test_idle_off : step State.reset = .next State.reset := rfl

/-! ## Hypotheses that are met -/

theorem test_meets_IdleStepPassesTime : State.reset.pending = [] ∧ State.reset.mode = .off := ⟨rfl, rfl⟩

theorem test_meets_ExecLeavesQueueAlone : ∃ t, exec .spiCsRise runState = .next t := ⟨_, rfl⟩

theorem test_meets_FusesOnlyRise : State.reset.fuse 0 = true ∧ ∃ t, Steps State.reset t := ⟨by decide +kernel, _, rfl⟩

/-- Host 4's family hands bank 0, region 0 and group 0 to host 0. -/
theorem test_meets_HandoverByRegisterReplacesHolder :
    let s := ((runState.put .BNK_OWNER_OWNER 0x14).put .ATT_REGION_PARENT_PARENT 0x14).put .ATT_GROUP_PARENT_PARENT 0x14
    ∀ r ∈ [Resource.bank 0, .region 0, .group 0],
      s.mode = .run ∧ Requester.spi ≠ .jtag ∧ 0x14 = s.holder r ∧ s.mayHandOver r Requester.spi.owner 0x14 0x10 = true ∧
      r.eligible 0x10 = true ∧ s.handoverBusy r = false ∧ (true && s.loading 0) = false := by decide +kernel

/-- A wrong EXPECT; and, of an authorised writer, a NEW that is not eligible. -/
theorem test_meets_HandoverByRegisterIsRefusedInOrder :
    let s := runState.put .BNK_OWNER_OWNER 0x14
    s.mode ≠ .off ∧ Requester.spi ≠ .jtag ∧ 0x10 ≠ s.holder (.bank 0) ∧
    0x14 = s.holder (.bank 0) ∧ s.mayHandOver (.bank 0) Requester.spi.owner 0x14 0x01 = true ∧
    (Resource.bank 0).eligible 0x01 = false := by decide +kernel

theorem test_meets_SpineTransactionsMove :
  (∃ (who : Requester) (kind : TxnKind) (addr : BitVec 48) (beats : List BeatIn) (s : State),
    s.mode ≠ .off ∧ who ≠ .jtag ∧ (∀ g, who ≠ .scrubber g) ∧ (∀ p, who ≠ .region p) ∧ (∀ g : Fin 16, who = .selftest g
      → portOf addr.toNat ≠ 77 + g.val) ∧ sendable who.port kind addr.toNat beats.length = true) ∧
  (∃ (who : Requester) (kind : TxnKind) (addr : BitVec 48) (beats : List BeatIn) (s : State),
    s.mode ≠ .off ∧ who ≠ .jtag ∧ (∀ g, who ≠ .scrubber g) ∧ (∀ p, who ≠ .region p) ∧ (∀ g : Fin 16, who = .selftest g
      → portOf addr.toNat ≠ 77 + g.val) ∧ sendable who.port kind addr.toNat beats.length = false) ∧
  (∃ (p d : Fin 64) (kind : TxnKind) (addr : BitVec 48) (beats : List BeatIn) (s : State),
    s.mode ≠ .off ∧ ((List.range 64).find? fun e => !(s.port p).busy.contains e) = some d.val ∧ s.portReady p = true ∧
      (s.port p).opened = none ∧ (kind = .read ∨ kind = .write) ∧ s.iniReady p d (kind == .write) addr.toNat
      beats.length = true) ∧
  (∃ (who : Requester) (addr : BitVec 48) (s : State),
    (who = .jtag ∨ (∃ g, who = .scrubber g) ∨ (∃ g : Fin 16, who = .selftest g ∧ portOf addr.toNat = 77 + g.val))) ∧
  (∃ (t : Fin 97) (s : State),
    s.mode ≠ .off ∧ 0 < s.spine.credits t) ∧
  (∃ (t : Fin 97) (u : State) (x : Txn) (s : State),
    s.mode ≠ .off ∧ u = s.flowRequests ∧ (u.spine.ingress.find? fun y => portOf y.addr == t.val) = some x) ∧
  (∃ (t : Fin 97) (u : State) (x : Txn) (here : List Txn) (s : State),
    s.mode ≠ .off ∧ u = s.flowRequests ∧ (64 ≤ t.val && decide (t.val < 68)) = false ∧ (here = u.spine.taken.filter
      fun y => portOf y.addr == t.val && !y.lost) ∧ (here.find? fun y => y.kind == .flush && !(u.spine.network.map
      (·.1) ++ here ++ u.spine.ingress).any fun w => w.isWrite && w.src == y.src && portOf w.addr == t.val && decide
      (w.id < y.id)) = some x) ∧
  (∃ (port : Fin 97) (tag : Fin 2048) (u : State) (a : Answered) (s : State),
    s.mode ≠ .off ∧ u = s.flowResponses ∧ (u.spine.answered.find? fun b => b.txn.src == port.val && b.txn.tag ==
      tag.val && !b.txn.lost && !b.txn.freed && b.way.isEmpty) = some a) ∧
  (∃ (id : Nat) (t : Txn) (s : State),
    s.mode ≠ .off ∧ ((s.spine.waiting ++ s.spine.issued).find? fun x => x.id == id && !x.expired) = some t) :=
  ⟨⟨.mgc, .read, 0, [{ be := 0, data := 0 }], runState, by decide +kernel⟩,
   ⟨.mgc, .read, 0, [], runState, by decide +kernel⟩,
   ⟨0, 0, .read, 0, [{ be := 0, data := 0 }], clocked regionState, by decide +kernel, by decide +kernel, port_ready _
     (by decide +kernel) (by decide +kernel) rfl rfl, by decide +kernel, .inl rfl, by decide +kernel⟩,
   ⟨.jtag, 0, runState, by decide +kernel⟩,
   ⟨0, runState, by decide +kernel⟩,
   ⟨77, _, _, (withIngress runState (txnTo 0 .read)), by decide +kernel, rfl, rfl⟩,
   ⟨77, _, _, _, (withTaken runState (txnTo 0 .flush)), by decide +kernel, rfl, by decide +kernel, rfl, rfl⟩,
   ⟨68, 0, _, _,
     { runState with spine := { runState.spine with answered := [{ txn := txnTo 0 .read, beats := [], way := [] }] } },
     by decide +kernel, rfl, rfl⟩,
   ⟨1, _, (withTaken runState (txnTo 0 .read)), by decide +kernel, rfl⟩⟩

theorem test_meets_RegionPortsAnswer :
  (∃ (p dtag : Fin 64) (write : Bool) (addr : BitVec 48) (offered : IniBeats) (o : IniOpen) (s : State),
    s.portReady p = true ∧ s.openRequest p dtag write addr.toNat (offered.count.val + 1) = some o) ∧
  (∃ (p : Fin 64) (id : Nat) (rest : List (Option Nat)) (t : Txn) (s : State),
    s.regionRuns (p.val / 4) = true ∧ s.portClocked p = true ∧ (s.port p).resync = false ∧ (s.port p).delivered = some
      id :: rest ∧ s.takenTxn id = some t) ∧
  (∃ (p : Fin 64) (id : Nat) (t : Txn) (s : State),
    (s.port p).answering = none ∧ (s.port p).owed = some id ∧ s.takenTxn id = some t) ∧
  (∃ (p : Fin 64) (u : State) (t : Txn) (s : State),
    s.mode ≠ .off ∧ u = s.flowRequests ∧ (u.spine.ingress.find? fun x => portOf x.addr == p.val) = some t ∧
      u.regionCheck t.owner (p.val / 4) p = .ok) ∧
  (∃ (p : Fin 64) (s : State),
    s.regionRuns (p.val / 4) = true ∧ (s.port p).resync = true) ∧
  (∃ (c : Fin 24) (a ea b eb : Nat) (s : State),
    channelSides c = ((a, ea), (b, eb)) ∧ s.coreOn = true ∧ s.loaded a = true ∧ s.loaded b = true ∧ s.fenced a = false
      ∧ s.fenced b = false ∧ s.regionDark a = false ∧ s.regionDark b = false ∧ s.parent a = s.parent b) ∧
  (∃ (c : Fin 24) (s : State),
    s.channelMayOpen c = false) ∧
  (∃ (n : Fin 21) (i : Fin 16) (plane : Bool) (s : State),
    s.mode ≠ .off ∧ watched (.hop n i plane) = true ∧ .hop n i plane ∉ s.spine.isolated ∧ s.waitsAt (.hop n i plane) =
      true) ∧
  (∃ (p : Fin 97) (u : State) (s : State),
    s.mode ≠ .off ∧ u = s.flowRequests ∧ watched (.ingress p) = true ∧ .ingress p ∉ u.spine.isolated ∧ u.waitsAt
      (.ingress p) = true) :=
  ⟨⟨0, 0, false, 0, { count := 0, beats := [{ be := 0, data := 0 }] }, _, clocked regionState, port_ready _
    (by decide +kernel) (by decide +kernel) rfl rfl, rfl⟩,
   ⟨0, _, _, _, (withTaken (clocked regionState) (txnTo 0x2_0000_0000 .read)).putPort 0
     { iniOn := true, tgtOn := true, delivered := [some 1] }, by decide +kernel, port_clocked _ (by decide +kernel),
     by decide +kernel, rfl, rfl⟩,
   ⟨0, 1, _, (withTaken (clocked regionState) (txnTo 0x2_0000_0000 .read)).putPort 0
     { iniOn := true, tgtOn := true, delivered := [some 1] }, by decide +kernel, by decide +kernel, rfl⟩,
   ⟨0, _, _, (withIngress regionState (txnTo 0x2_0000_0000 .read)), by decide +kernel, rfl, rfl, by decide +kernel⟩,
   ⟨0, regionState.putPort 0 { iniOn := true, resync := true }, by decide +kernel⟩,
   ⟨0, 0, 1, 1, 3, twoRegions, by decide +kernel⟩,
   ⟨0, runState, by decide +kernel⟩,
   ⟨0, 0, false, { runState with spine := { network := [(txnTo 0 .read, [(0, 0)])] } }, by decide +kernel⟩,
   ⟨77, _, (withIngress runState (txnTo 0 .read)), by decide +kernel, rfl, by decide +kernel⟩⟩

theorem test_meets_SpineAndBankRegisterWrites :
  (∃ (who : Requester) (s : State),
    RegisterOpen s who .SPN_FAIR ∧ s.maintains who.owner = true) ∧
  (∃ (who : Requester) (node : BitVec 5) (input : BitVec 4) (plane : Bool) (s : State),
    RegisterOpen s who .SPN_STALL_INJECT ∧ s.maintains who.owner = true ∧ nodeInput node.toNat input.toNat plane =
      true) ∧
  (∃ (who : Requester) (n : Fin 128) (word : BitVec 16) (bitA bitB : BitVec 7) (double : Bool) (s : State),
    RegisterOpen s who .BNK_INJECT ∧ (s.maintains who.owner = true ∨ (who.owner = s.top (s.bankOwner n) ∧ s.top
      (s.bankOwner n) ≠ 0)) ∧ bitA.toNat ≤ 71 ∧ (double = true → bitB.toNat ≤ 71 ∧ bitA ≠ bitB) ∧ s.shieldedWord n
      word.toNat = false) ∧
  (∃ (who : Requester) (q : Fin 4) (a : Fin 128) (va : Bool) (b : Fin 128) (vb : Bool) (s : State),
    RegisterOpen s who .BNK_PARK ∧ s.maintains who.owner = true ∧ s.get .BNK_PARK_IN_USE q = 0 ∧ (va = true →
      s.mayPark q a = true) ∧ (vb = true → s.mayPark q b = true) ∧ (va = true → vb = true → groupOfBank a ≠
      groupOfBank b)) :=
  ⟨⟨.mgc, runState, ⟨by decide, (fun h => nomatch h), by decide⟩, by decide +kernel⟩,
   ⟨.mgc, 0, 0, false, runState, ⟨by decide, (fun h => nomatch h), by decide⟩, by decide +kernel⟩,
   ⟨.mgc, 0, 0, 0, 0, false, runState, ⟨by decide, (fun h => nomatch h), by decide⟩, by decide +kernel⟩,
   ⟨.mgc, 0, 0, false, 0, false, runState, ⟨by decide, (fun h => nomatch h), by decide⟩, by decide +kernel⟩⟩

theorem test_meets_LinkEventsResetTheHost :
  (∃ (k : Fin 4) (s : State),
    (s.endpoint k).perstHigh = false) ∧
  (∃ (k : Fin 4) (s : State),
    (s.endpoint k).perstHigh = true) ∧
  (∃ (k : Fin 4) (gen : Fin 6) (width : Fin 9) (s : State),
    s.mode ≠ .off ∧ s.flag .MBX_EP_STAT_ENABLED k = true ∧ (s.endpoint k).perstHigh = true ∧ s.linkUp k = false ∧ 1 ≤
      gen.val ∧ gen.val ≤ s.get .MBX_EP_STAT_CFG_GEN k ∧ width.val ∈ [1, 2, 4, 8] ∧ width.val ≤ 2 ^ s.get
      .MBX_EP_STAT_CFG_WIDTH k) ∧
  (∃ (k : Fin 4) (gen : Fin 6) (width : Fin 9) (s : State),
    (s.mode = .off ∨ s.flag .MBX_EP_STAT_ENABLED k = false ∨ (s.endpoint k).perstHigh = false ∨ s.linkUp k = true ∨
      gen.val = 0 ∨ s.get .MBX_EP_STAT_CFG_GEN k < gen.val ∨ width.val ∉ [1, 2, 4, 8] ∨ 2 ^ s.get
      .MBX_EP_STAT_CFG_WIDTH k < width.val)) ∧
  (∃ (k : Fin 4) (s : State),
    s.mode ≠ .off ∧ (s.endpoint k).perstHigh = true) ∧
  (∃ (k : Fin 4) (s : State),
    s.mode = .off ∧ (s.endpoint k).perstHigh = true) ∧
  (∃ (k : Fin 4) (s : State),
    (s.endpoint k).perstHigh = false) ∧
  (∃ (k : Fin 4) (s : State),
    s.mode ≠ .off ∧ s.linkUp k = true) ∧
  (∃ (k : Fin 4) (s : State),
    s.mode ≠ .off ∧ s.linkUp k = true) ∧
  (∃ (k : Fin 4) (s : State),
    s.mode ≠ .off ∧ s.linkUp k = true) ∧
  (∃ (k : Fin 4) (c : Instr) (s : State),
    (s.mode = .off ∨ s.linkUp k = false) ∧ (c = .hotReset k ∨ c = .linkDown k ∨ c = .functionLevelReset k ∨ ∃ x, c =
      .linkPowerState k x)) ∧
  (∃ (k : Fin 4) (s : State),
    s.mode ≠ .off ∧ s.linkUp k = true) ∧
  (∃ (k : Fin 4) (s : State),
    s.mode ≠ .off ∧ s.linkUp k = true) ∧
  (∃ (k : Fin 4) (s : State),
    s.mode ≠ .off ∧ s.linkUp k = true) ∧
  (∃ (k : Fin 4) (s : State),
    s.mode ≠ .off ∧ s.linkUp k = true ∧ (s.endpoint k).aspmL1 = true) ∧
  (∃ (k : Fin 4) (s : State),
    s.mode ≠ .off ∧ s.linkUp k = true ∧ (s.endpoint k).aspmL1 = false) :=
  ⟨⟨0, runState, by decide +kernel⟩,
   ⟨0, hostUp runState, by decide +kernel⟩,
   ⟨0, 1, 1, ((hostUp runState).putFlag .MBX_EP_STAT_LINK_UP false).put .MBX_EP_STAT_CFG_GEN 5, by decide +kernel⟩,
   ⟨0, 0, 0, runState, .inr (.inr (.inr (.inr (.inl rfl))))⟩,
   ⟨0, hostUp runState, by decide +kernel⟩,
   ⟨0, hostUp State.reset, by decide +kernel⟩,
   ⟨0, runState, by decide +kernel⟩,
   ⟨0, hostUp runState, by decide +kernel⟩,
   ⟨0, hostUp runState, by decide +kernel⟩,
   ⟨0, hostUp runState, by decide +kernel⟩,
   ⟨0, .hotReset 0, runState, .inr (by decide), .inl rfl⟩,
   ⟨0, hostUp runState, by decide +kernel⟩,
   ⟨0, hostUp runState, by decide +kernel⟩,
   ⟨0, hostUp runState, by decide +kernel⟩,
   ⟨0, (hostUp runState).putEndpoint 0 { (hostUp runState).endpoint 0 with aspmL1 := true }, by decide +kernel⟩,
   ⟨0, hostUp runState, by decide +kernel⟩⟩

theorem test_meets_HostTransfersComplete :
  (∃ (k : Fin 4) (bar : Bar) (u : State) (s : State),
    s.mode ≠ .off ∧ s.linkUp k = true ∧ s.flag .MBX_EP_STAT_ENABLED k = true ∧ u = (if (s.endpoint k).aspmL1 then
      (s.putEndpoint k { s.endpoint k with aspmL1 := false }).linkActivity k else s) ∧ ((s.endpoint k).d3hot = false ∨
      bar = .config)) ∧
  (∃ (k : Fin 4) (bar : Bar) (u : State) (s : State),
    s.mode ≠ .off ∧ s.linkUp k = true ∧ s.flag .MBX_EP_STAT_ENABLED k = true ∧ u = (if (s.endpoint k).aspmL1 then
      (s.putEndpoint k { s.endpoint k with aspmL1 := false }).linkActivity k else s) ∧ (s.endpoint k).d3hot = true ∧
      bar ≠ .config) ∧
  (∃ (s : State),
    s.mode ≠ .off ∧ s.hosts.spi.op = none) ∧
  (∃ (s : State),
    s.mode ≠ .off ∧ s.hosts.spi.op = none) ∧
  (∃ (s : State),
    s.mode ≠ .off ∧ s.hosts.spi.op = some .write) ∧
  (∃ (s : State),
    s.mode ≠ .off ∧ s.hosts.spi.op = none) ∧
  (∃ (op : BitVec 8) (s : State),
    s.mode ≠ .off ∧ s.hosts.spi.op = none ∧ op ≠ 0x0B ∧ op ≠ 0x02 ∧ op ≠ 0x05) ∧
  (∃ (id : Nat) (data : List (BitVec 256)) (t : Txn) (s : State),
    (s.spine.taken.find? fun x => x.id == id && decide (64 ≤ portOf x.addr) && decide (portOf x.addr < 68) && !x.lost)
      = some t ∧ (t.kind = .read → data.length = t.beats.length)) ∧
  (∃ (id : Nat) (t : Txn) (s : State),
    (s.spine.taken.find? fun x => x.id == id && decide (64 ≤ portOf x.addr) && decide (portOf x.addr < 68) && !x.lost)
      = some t) :=
  ⟨⟨0, .bar0, _, hostUp runState, by decide +kernel, by decide +kernel, by decide +kernel, rfl, by decide +kernel⟩,
   ⟨0, .bar0, _, (hostUp runState).putEndpoint 0 { (hostUp runState).endpoint 0 with d3hot := true },
     by decide +kernel, by decide +kernel, by decide +kernel, rfl, by decide +kernel⟩,
   ⟨runState, by decide +kernel⟩,
   ⟨runState, by decide +kernel⟩,
   ⟨runState.putSpi { op := some .write }, by decide +kernel⟩,
   ⟨runState, by decide +kernel⟩,
   ⟨0, runState, by decide +kernel⟩,
   ⟨1, [0], _, withTaken runState (txnTo 0x1000_0000_0000 .read), rfl, by decide +kernel⟩,
   ⟨1, _, withTaken runState (txnTo 0x1000_0000_0000 .read), rfl⟩⟩

theorem test_meets_MailboxRegistersAndRings :
  (∃ (who : Requester) (m : Fin 5) (w : Fin 4096) (s : State),
    s.mode ≠ .off ∧ mayUseMail m who.owner = true ∧ s.clearingMail m = false ∧ ¬(w.val / 16 + 65536 - s.get
      .MBX_REQ_HEAD_HEAD m) % 256 < s.occupancy m ∧ WriteIssues s who) ∧
  (∃ (who : Requester) (m : Fin 5) (tail : BitVec 16) (s : State),
    s.mode ≠ .off ∧ mayUseMail m who.owner = true ∧ s.clearingMail m = false ∧ (tail.toNat + 65536 - s.get
      .MBX_REQ_HEAD_HEAD m) % 65536 ≤ 256 ∧ s.occupancy m ≤ (tail.toNat + 65536 - s.get .MBX_REQ_HEAD_HEAD m) % 65536
      ∧ WriteIssues s who) ∧
  (∃ (who : Requester) (m : Fin 5) (head : BitVec 16) (s : State),
    s.mode ≠ .off ∧ mayUseMail m who.owner = true ∧ s.clearingMail m = false ∧ (head.toNat + 65536 - s.get
      .MBX_RSP_HEAD_HEAD m) % 65536 ≤ (s.get .MBX_RSP_TAIL_TAIL m + 65536 - s.get .MBX_RSP_HEAD_HEAD m) % 65536 ∧
      WriteIssues s who) ∧
  (∃ (who : Requester) (m : Fin 5) (irqEn : Bool) (t : State) (s : State),
    s.mode ≠ .off ∧ mayUseMail m who.owner = true ∧ s.clearingMail m = false ∧ t = (if m.val < 4 then s.putFlag
      .MBX_CTL_IRQ_EN irqEn m else s).clearMail m ∧ WriteIssues s who) ∧
  (∃ (m : Fin 5) (s : State),
    s.clearingMail m = true ∧ SMap.look 0 s.mail.clearAck m = 1) :=
  ⟨⟨.mgc, 0, 0, runState, by decide +kernel, by decide +kernel, by decide +kernel, by decide +kernel, (fun h =>
    nomatch h)⟩,
   ⟨.mgc, 0, 0, runState, by decide +kernel, by decide +kernel, by decide +kernel, by decide +kernel,
     by decide +kernel, (fun h => nomatch h)⟩,
   ⟨.mgc, 0, 0, runState, by decide +kernel, by decide +kernel, by decide +kernel, by decide +kernel, (fun h =>
     nomatch h)⟩,
   ⟨.mgc, 0, false, _, runState, by decide +kernel, by decide +kernel, by decide +kernel, rfl, (fun h => nomatch h)⟩,
   ⟨0, { runState with mail := { clearing := [(0, true)], clearAck := [(0, 1)] } }, by decide +kernel⟩⟩

theorem test_meets_PacketsStartAndSimpleCommandsReply :
  (∃ (m : Nat) (s : State),
    s.takesPackets = true ∧ s.nextMailbox = some m) ∧
  (∃ (m : Fin 5) (p : Packet) (s : State),
    CommandRuns s m 0x00 p) ∧
  (∃ (m : Fin 5) (p : Packet) (s : State),
    CommandRuns s m 0x0E p) ∧
  (∃ (m : Fin 5) (f0 f1 : Nat) (p : Packet) (u : State) (s : State),
    CommandRuns s m 0x0F p ∧ (∀ i < 4, attachmentWord (p.p i) = true) ∧ JournalTakes s 1 (wordBytes (p.params.take 4))
      f0 f1 u) :=
  ⟨⟨_, runState.put .MBX_REQ_TAIL_TAIL 1, by decide +kernel, rfl⟩,
   ⟨0, (packet 0x00 [] 0x14), ((runState).setRunning 0 (some (packet 0x00 [] 0x14))),
     (by constructor <;> decide +kernel)⟩,
   ⟨0, (packet 0x0E [] 0x14), ((runState).setRunning 0 (some (packet 0x0E [] 0x14))),
     (by constructor <;> decide +kernel)⟩,
   ⟨0, 0, 0, (packet 0x0F [0x10, 0x10, 0x10, 0x10] 0x14), _, ((storeState).setRunning 0 (some (packet 0x0F [0x10,
     0x10, 0x10, 0x10] 0x14))), (by constructor <;> decide +kernel), by decide +kernel, ⟨by decide +kernel,
     by decide +kernel, by decide +kernel, by decide +kernel, Prod.ext (by decide +kernel) rfl, by decide +kernel⟩⟩⟩

theorem test_meets_BankAccessesAnswer :
  (∃ (who : Requester) (n : Fin 128) (w : BitVec 16) (d : DWord) (t : State) (s : State),
    s.bankCheck who.owner n = .ok ∧ s.bankRead n w.toNat = (t, some d)) ∧
  (∃ (who : Requester) (n : Fin 128) (w : BitVec 16) (t : State) (s : State),
    s.bankCheck who.owner n = .ok ∧ s.bankRead n w.toNat = (t, none)) ∧
  (∃ (who : Requester) (n : Fin 128) (s : State),
    s.bankCheck who.owner n = .ok) ∧
  (∃ (who : Requester) (n : Fin 128) (s : State),
    s.bankCheck who.owner n = .ok) :=
  ⟨⟨.mgc, 0, 0, _, _, powered runState, by decide +kernel, rfl⟩,
   ⟨.mgc, 0, 0, _, (powered runState).setPoison 0 0 true, by decide +kernel, rfl⟩,
   ⟨.mgc, 0, powered runState, by decide +kernel⟩,
   ⟨.mgc, 0, powered runState, by decide +kernel⟩⟩

theorem test_meets_BankAccessesAreRefused :
    runState.mayUseBank (Requester.host 0).owner 0 = false ∧
    runState.mayUseBank Requester.mgc.owner 0 = true ∧ (runState.put .PWR_DOMAINS_GROUP_ON 0).bankDark 0 = true ∧
    (runState.put .PWR_DOMAINS_GROUP_ON 0).mode ≠ .off := by decide +kernel

theorem test_meets_ScrubbersAndClearsRun :
  (∃ (n : Fin 128) (s : State),
    s.clearHolds n = false ∧ s.scrubs n = true ∧ s.headWaits n = false ∧ (s.sliceOver n (512 * s.get
      .BNK_SCRUB_NEXT_PAGE n)).isSome = false) ∧
  (∃ (n : Fin 128) (s : State),
    s.clearHolds n = false ∧ s.scrubs n = true ∧ s.headWaits n = false ∧ (s.sliceOver n (512 * s.get
      .BNK_SCRUB_NEXT_PAGE n)).isSome = true) ∧
  (∃ (n : Fin 128) (s : State),
    s.clearHolds n = true) ∧
  (∃ (n : Fin 128) (s : State),
    s.clearHolds n = false ∧ (s.scrubs n = false ∨ s.headWaits n = true)) ∧
  (∃ (n : Fin 128) (s : State),
    s.scrubs n = true) ∧
  (∃ (g : Fin 16) (n : Nat) (rest : List Nat) (s : State),
    s.enginesRun = true ∧ s.groupOn g = true ∧ s.flag .BNK_CLR_STAT_ACTIVE g = false ∧ (∀ b ∈ banksOfGroup g,
      s.headWaits b = false) ∧ s.clears g = n :: rest) ∧
  (∃ (g : Fin 16) (s : State),
    s.enginesRun = true ∧ s.flag .BNK_CLR_STAT_ACTIVE g = true) ∧
  (∃ (n : Fin 128) (s : State),
    s.enginesRun = true ∧ s.groupOn (groupOfBank n) = true ∧ s.flag .BNK_OWNER_CLEARING n = true ∧ (s.clears
      (groupOfBank n)).head? = some n.val) ∧
  (∃ (g : Fin 16) (t : SliceTest) (s : State),
    s.mode = .run ∧ s.slice g = some t) :=
  ⟨⟨0, scrubState, by decide +kernel⟩,
   ⟨0, sliceState scrubState, by decide +kernel⟩,
   ⟨0, scrubState.setClears 0 [0], by decide +kernel⟩,
   ⟨0, runState, by decide +kernel, .inl (by decide +kernel)⟩,
   ⟨0, scrubState, by decide +kernel⟩,
   ⟨0, 0, [], scrubState.setClears 0 [0], by decide +kernel⟩,
   ⟨0, scrubState.putFlag .BNK_CLR_STAT_ACTIVE true, by decide +kernel⟩,
   ⟨0, (scrubState.putFlag .BNK_OWNER_CLEARING true).setClears 0 [0], by decide +kernel⟩,
   ⟨0, _, sliceState scrubState, by decide +kernel, rfl⟩⟩

theorem test_meets_OwnershipCommandsReply :
  (∃ (m : Fin 5) (p : Packet) (s : State),
    CommandRuns s m 0x70 p) ∧
  (∃ (m : Fin 5) (p : Packet) (s : State),
    CommandRuns s m 0x72 p) ∧
  (∃ (m : Fin 5) (f0 f1 : Nat) (p : Packet) (u : State) (s : State),
    CommandRuns s m 0x73 p ∧ ownershipValid p.params = true ∧ JournalTakes s 2 (wordBytes p.params) f0 f1 u) ∧
  (∃ (m : Fin 5) (p : Packet) (r : Resource) (t : State) (s : State),
    CommandRuns s m 0x71 p ∧ resourceOf (bitsOf (p.p 0) 0 2) (bitsOf (p.p 0) 8 7) = some r ∧ bitsOf (p.p 0) 2 6 = 0 ∧
      p.p 0 < 2 ^ 15 ∧ p.p 1 < 2 ^ 17 ∧ p.target = 0 ∧ s.handOver r (mailOwner m) (bitsOf (p.p 1) 0 8) (bitsOf (p.p 1)
      8 8) ((p.p 1).testBit 16) = .done t) :=
  ⟨⟨0, (packet 0x70 [] 0x14), ((runState).setRunning 0 (some (packet 0x70 [] 0x14))),
    (by constructor <;> decide +kernel)⟩,
   ⟨0, (packet 0x72 [] 0x14), ((runState).setRunning 0 (some (packet 0x72 [] 0x14))),
     (by constructor <;> decide +kernel)⟩,
   ⟨0, 0, 0, (packet 0x73 ownershipTest 0x14), _, storeState.setRunning 0 (some (packet 0x73 ownershipTest 0x14)),
     (by constructor <;> decide +kernel), by decide +kernel, ⟨by decide +kernel, by decide +kernel, by decide +kernel,
     by decide +kernel, Prod.ext (by decide +kernel) rfl, by decide +kernel⟩⟩,
   ⟨0, (packet 0x71 [] 0x14), _, _, ((runState).setRunning 0 (some (packet 0x71 [] 0x14))),
     (by constructor <;> decide +kernel), rfl, by decide +kernel, by decide +kernel, by decide +kernel,
     by decide +kernel, rfl⟩⟩

theorem test_meets_RingRegisterWrites :
  (∃ (who : Requester) (r : Fin 8192) (tail : BitVec 32) (s : State),
    RegisterOpen s who .DMA_RING_TAIL ∧ (s.writesRing r who.owner = true ∨ (s.top (ringOwner r) ≠ 0 ∧ s.top who.owner
      = s.top (ringOwner r))) ∧ s.ringState r ≠ 0 ∧ (tail.toNat + 2 ^ 32 - s.get .DMA_RING_HEAD_HEAD r) % 2 ^ 32 ≤
      s.ringSize r ∧ s.ringOccupancy r ≤ (tail.toNat + 2 ^ 32 - s.get .DMA_RING_HEAD_HEAD r) % 2 ^ 32) ∧
  (∃ (who : Requester) (r : Fin 8192) (size : BitVec 5) (vector : BitVec 11) (s : State),
    RegisterOpen s who .DMA_RING_CTL ∧ s.writesRing r who.owner = true ∧ s.ringState r = 0 ∧ vector ≠ 0 ∧ 4 ≤
      size.toNat ∧ size.toNat ≤ 16 ∧ s.get .DMA_RING_BASE_BASE r % 4096 = 0 ∧ s.get .DMA_RING_CQ_CQ r % 4096 = 0) ∧
  (∃ (who : Requester) (r : Fin 8192) (s : State),
    RegisterOpen s who .DMA_RING_CTL ∧ s.writesRing r who.owner = true ∧ s.ringState r = 1 ∧ s.get
      .DMA_RING_CTL_VECTOR r ≠ 0 ∧ s.get .DMA_RING_CTL_VECTOR r < 2048 ∧ s.get .DMA_RING_CTL_SIZE_LOG2 r < 32) ∧
  (∃ (who : Requester) (r : Fin 8192) (s : State),
    RegisterOpen s who .DMA_RING_CTL ∧ s.writesRing r who.owner = true ∧ s.ringState r = 3 ∧ s.get
      .DMA_RING_CTL_VECTOR r ≠ 0 ∧ s.get .DMA_RING_CTL_VECTOR r < 2048 ∧ s.get .DMA_RING_CTL_SIZE_LOG2 r < 32) ∧
  (∃ (who : Requester) (r : Fin 8192) (u : State) (s : State),
    RegisterOpen s who .DMA_RING_CTL ∧ s.writesRing r who.owner = true ∧ s.ringState r = 3 ∧ s.get
      .DMA_RING_CTL_VECTOR r ≠ 0 ∧ s.get .DMA_RING_CTL_VECTOR r < 2048 ∧ s.get .DMA_RING_CTL_SIZE_LOG2 r < 32 ∧ u =
      ((s.put .DMA_RING_CTL_SIZE_LOG2 (s.get .DMA_RING_CTL_SIZE_LOG2 r) r).put .DMA_RING_CTL_VECTOR (s.get
      .DMA_RING_CTL_VECTOR r) r).putFlag .DMA_RING_CTL_ENABLE true r) :=
  ⟨⟨.host 0, 0, 0, ringState 1, ⟨by decide, (fun h => nomatch h), by decide⟩, by decide +kernel⟩,
   ⟨.host 0, 0, 4, 1, ringState 0, ⟨by decide, (fun h => nomatch h), by decide⟩, by decide +kernel⟩,
   ⟨.host 0, 0, ringState 1, ⟨by decide, (fun h => nomatch h), by decide⟩, by decide +kernel⟩,
   ⟨.host 0, 0, ringState 3, ⟨by decide, (fun h => nomatch h), by decide⟩, by decide +kernel⟩,
   ⟨.host 0, 0, _, ringState 3, ⟨by decide, (fun h => nomatch h), by decide⟩, by decide +kernel, by decide +kernel,
     by decide +kernel, by decide +kernel, by decide +kernel, rfl⟩⟩

theorem test_meets_DmaEngineSteps :
  (∃ (s : State),
    s.dmaRuns = true) ∧
  (∃ (r : Fin 8192) (ix : Fin 8) (j : DmaJob) (d : Descriptor) (s : State),
    s.dmaRuns = true ∧ s.job r ix = some j ∧ j.phase = .start ∧ j.desc = some d) ∧
  (∃ (r : Fin 8192) (ix : Fin 8) (j : DmaJob) (s : State),
    s.dmaRuns = true ∧ s.job r ix = some j ∧ j.phase = .ended) ∧
  (∃ (r : Fin 8192) (j : DmaJob) (s : State),
    s.dmaRuns = true ∧ s.job r 0 = some j ∧ j.phase = .acked) ∧
  (∃ (r : Fin 8192) (k : Nat) (t : State) (s : State),
    s.dmaRuns = true ∧ s.flag .DMA_RING_STAT_IRQ_PENDING r = true ∧ s.holdoffOver r = true ∧ t = s.putFlag
      .DMA_RING_STAT_IRQ_PENDING false r ∧ t.ringHost r = some k) ∧
  (∃ (s : State),
    s.mode ≠ .off) :=
  ⟨⟨runState, by decide +kernel⟩,
   ⟨0, 0, _, _, jobState { slot := 0, at0 := 0, phase := .start, desc := some emptyDescriptor }, by decide +kernel,
     rfl, by decide +kernel, rfl⟩,
   ⟨0, 0, _, jobState { slot := 0, at0 := 0, phase := .ended }, by decide +kernel, rfl, by decide +kernel⟩,
   ⟨0, _, jobState { slot := 0, at0 := 0, phase := .acked }, by decide +kernel, rfl, by decide +kernel⟩,
   ⟨0, _, _, (ringState 1).putFlag .DMA_RING_STAT_IRQ_PENDING true, by decide +kernel, by decide +kernel,
     by decide +kernel, rfl, rfl⟩,
   ⟨runState, by decide +kernel⟩⟩

theorem test_meets_TranslationTableWrites :
  (∃ (who : Requester) (e : Fin 32768) (expect new : BitVec 8) (s : State),
    RegisterOpen s who .ATT_ENT_KEY ∧ s.get .ATT_ENT_KEY_KEY e = 0 ∧ expect.toNat = 0 ∧ isTop who.owner = true ∧
      (isRegion new.toNat = true ∨ isGroup new.toNat = true) ∧ s.top new.toNat = who.owner ∧ s.get .ATT_QUOTA_USED
      (who.owner - 0x10) < s.get .ATT_QUOTA_LIMIT (who.owner - 0x10)) ∧
  (∃ (who : Requester) (e : Fin 32768) (expect new : BitVec 8) (s : State),
    RegisterOpen s who .ATT_ENT_KEY ∧ expect.toNat = s.get .ATT_ENT_KEY_KEY e ∧ expect.toNat ≠ 0 ∧ who.owner = s.top
      expect.toNat ∧ new = 0) ∧
  (∃ (who : Requester) (e : Fin 32768) (base : BitVec 32) (limit : BitVec 16) (s : State),
    RegisterOpen s who .ATT_ENT_MAP ∧ s.get .ATT_ENT_KEY_KEY e ≠ 0 ∧ who.owner = s.top (s.get .ATT_ENT_KEY_KEY e) ∧
      0x10 ≤ who.owner ∧ who.owner ≤ 0x13 ∧ 4096 * base.toNat + 4096 * (limit.toNat + 1) ≤ 2 ^ 44) :=
  ⟨⟨.host 0, 0, 0, 0x40, (ringState 1).put .ATT_QUOTA_LIMIT 1, ⟨by decide, (fun h => nomatch h), by decide⟩,
    by decide +kernel⟩,
   ⟨.host 0, 0, 0x40, _, (ringState 1).put .ATT_ENT_KEY_KEY 0x40, ⟨by decide, (fun h => nomatch h), by decide⟩,
     by decide +kernel, by decide +kernel, by decide +kernel, rfl⟩,
   ⟨.host 0, 0, 0, 0, (ringState 1).put .ATT_ENT_KEY_KEY 0x40, ⟨by decide, (fun h => nomatch h), by decide⟩,
     by decide +kernel⟩⟩

theorem test_meets_SlateReadsAndPatrol :
  (∃ (id : Nat) (t : Txn) (off : Nat) (s : State),
    s.takenTxn id = some t ∧ decodeAddr t.addr = some (.slate off) ∧ t.kind = .read) ∧
  (∃ (u : State) (t : Txn) (off : Nat) (s : State),
    u = s.flowRequests ∧ (u.spine.ingress.find? fun x => portOf x.addr == 95) = some t ∧ decodeAddr t.addr = some
      (.slate off) ∧ t.kind = .read ∧ u.slateCheck t.owner off false = .ok ∧ u.slateQueueFull (u.flashBank (off /
      0x4_0000)) = true) ∧
  (∃ (s : State),
    (s.mode = .boot ∨ s.mode = .run ∨ s.mode = .safe) ∧ s.flag .SLT_STAT_MAP_LOADED = true ∧ ((List.range (262144 -
      s.get .SLT_PATROL_NEXT_PAGE)).map (s.get .SLT_PATROL_NEXT_PAGE + ·)).find? s.patrolled = none) ∧
  (∃ (flips : List Nat) (n : Nat) (t : State) (r : PageRead) (ws : List DWord) (s : State),
    (s.mode = .boot ∨ s.mode = .run ∨ s.mode = .safe) ∧ s.flag .SLT_STAT_MAP_LOADED = true ∧ ((List.range (262144 -
      s.get .SLT_PATROL_NEXT_PAGE)).map (s.get .SLT_PATROL_NEXT_PAGE + ·)).find? s.patrolled = some n ∧ s.readHeld
      (s.flashBank (n / 64)) false = false ∧ s.readWaits (s.flashBank (n / 64)) = false ∧ (s.suspendBank (s.flashBank
      (n / 64)) false).readPage (n / 64) (n % 64) flips = (t, r, ws) ∧ n + 1 ≠ 262144) :=
  ⟨⟨1, _, _, withTaken runState (txnTo 0x1_0000_0000 .read), rfl, rfl, by decide +kernel⟩,
   ⟨_, _, _, fullQueue, rfl, rfl, rfl, by decide +kernel⟩,
   ⟨(runState.put .SLT_PATROL_NEXT_PAGE 262143).putFlag .SLT_STAT_MAP_LOADED true, by decide +kernel⟩,
   ⟨[], 262142, _, _, _,
     { (runState.put .SLT_PATROL_NEXT_PAGE 262142).putFlag .SLT_STAT_MAP_LOADED true with slate := { page := [(262142, .uncorrectable)] } },
     by decide +kernel, by decide +kernel, by decide +kernel, by decide +kernel, by decide +kernel, rfl,
     by decide +kernel⟩⟩

theorem test_meets_ProgramsAndErasesEnd :
  (∃ (l : Fin 4096) (pulses : BitVec 6) (u : FlashUnit) (v : State) (s : State),
    (s.slate.units.find? fun u => !u.erase && u.runs && u.block == l.val) = some u ∧ pulses.toNat ≤ 31 ∧ v = s.setKind
      u.block u.page .programmed) ∧
  (∃ (l : Fin 4096) (pulses : BitVec 6) (u : FlashUnit) (v : State) (s : State),
    (s.slate.units.find? fun u => !u.erase && u.runs && u.block == l.val) = some u ∧ 31 < pulses.toNat ∧ v =
      s.failPage u.block u.page) ∧
  (∃ (l : Fin 4096) (pulses : BitVec 4) (bad : Nat) (u : FlashUnit) (t : State) (s : State),
    (s.slate.units.find? fun u => u.erase && u.runs && u.block == l.val) = some u ∧ t = (s.setUnits
      (s.slate.units.erase u)).eraseEnds u.block pulses.toNat bad) :=
  ⟨⟨0, 0, _, _, withUnit runState { block := 0, erase := false, user := .alone }, rfl, by decide +kernel, rfl⟩,
   ⟨0, 32, _, _, withUnit runState { block := 0, erase := false, user := .alone }, rfl, by decide +kernel, rfl⟩,
   ⟨0, 0, 0, _, _, withUnit runState { block := 0, erase := true, user := .alone }, rfl, rfl⟩⟩

theorem test_meets_JournalUpkeep :
  (∃ (t : State) (s : State),
    s.storeWork = true ∧ s.journal.indexed = false ∧ t = { s with journal := { s.journal with indexed := true } }) ∧
  (∃ (f0 f1 : Nat) (s : State),
    s.storeWork = true ∧ s.checkpointDue = true ∧ s.journalWorn = false ∧ s.admits 6 = true ∧ s.roomFor (txnPages
      s.checkpointChanges + (4095 + s.pendingBytes) / 4096 + 4) (f0 + f1) = true ∧ s.logsFree = true) ∧
  (∃ (c : Fin 2) (l : Nat) (s : State),
    s.storeWork = true ∧ s.copyOut c = false ∧ (s.copy c).ahead < (s.copy c).free ∧ (s.slate.units.any fun u => u.user
      == .ahead c.val) = false ∧ s.admits 1 = true ∧ l = (Partition.settings c.val).base + ((s.copy c).block + 1 +
      (s.copy c).ahead) % 64) ∧
  (∃ (s : State),
    s.storeWork = true ∧ s.bit .SLT_PART_LOG_LOCK 0 = false ∧ s.archiveErase = none ∧ 1024 ≤ s.unarchived.length ∧
      s.archiveReady = true ∧ s.archiveFree = true ∧ s.admits 0 = true) ∧
  (∃ (l : Nat) (s : State),
    s.storeWork = true ∧ s.bit .SLT_PART_LOG_LOCK 0 = false ∧ s.archiveErase = some l ∧ s.admits 1 = true) ∧
  (∃ (x : Fin 64) (l : Nat) (s : State),
    s.storeWork = true ∧ SMap.look 0 s.journal.extentLeft x.val ≠ 0 ∧ s.flag .SLT_PART_USER_LOCK = false ∧ l =
      (Partition.user x.val).base + (32 - SMap.look 0 s.journal.extentLeft x.val) ∧ s.blockBusy l = false ∧ s.admits 1
      = true) :=
  ⟨⟨_, runState, by decide +kernel, by decide +kernel, rfl⟩,
   ⟨0, 0, { storeState.put .SLT_SET_STAT_STATE 0 with journal := { indexed := true } }, by decide +kernel⟩,
   ⟨0, _, { storeState with journal := { copy0 := { ahead := 10 } } }, by decide +kernel, by decide +kernel,
     by decide +kernel, by decide +kernel, by decide +kernel, rfl⟩,
   ⟨archiveState, by decide +kernel, by decide +kernel, by decide +kernel, archive_full _ rfl (by decide +kernel),
     by decide +kernel⟩,
   ⟨1920, { archiveState with slate := { page := [(64 * 1920, .programmed)] } }, by decide +kernel⟩,
   ⟨0, _, { storeState with journal := { extentLeft := [(0, 32)] } }, by decide +kernel, by decide +kernel,
     by decide +kernel, rfl, by decide +kernel⟩⟩

theorem test_meets_SettingsCommandsReply :
  (∃ (m : Fin 5) (bad : Bool) (p : Packet) (v : List Byte) (pending : Bool) (s : State),
    CommandRuns s m 0x20 p ∧ s.recovering = false ∧ p.p 0 < 65536 ∧ (s.useBank (mailOwner m) (p.p64 2) 0).2 = St.ok ∧
      s.itemValue (s.itemOwner p) (p.p 0) = (some v, pending) ∧ v.length ≤ p.p 1 ∧ (s.useBank (mailOwner m) (p.p64 2)
      v.length).2 = St.ok ∧ (bad && !pending) = false) ∧
  (∃ (m : Fin 5) (p : Packet) (x : Bool) (s : State),
    CommandRuns s m 0x20 p ∧ s.recovering = false ∧ p.p 0 < 65536 ∧ (s.useBank (mailOwner m) (p.p64 2) 0).2 = St.ok ∧
      s.itemValue (s.itemOwner p) (p.p 0) = (none, x)) ∧
  (∃ (m : Fin 5) (p : Packet) (w t u : State) (v : List Byte) (s : State),
    CommandRuns s m 0x21 p ∧ s.recovering = false ∧ p.p 0 < 65536 ∧ p.p 1 < 65536 ∧ s.useBank (mailOwner m) (p.p64 2)
      (p.p 1) = (w, St.ok) ∧ w.committing m (w.itemOwner p) = false ∧ w.readBankBytes (p.p64 2) (p.p 1) = (t, some v)
      ∧ t.stage { owner := w.itemOwner p, id := p.p 0, value := some v } = (St.ok, u)) ∧
  (∃ (m : Fin 5) (p : Packet) (u : State) (s : State),
    CommandRuns s m 0x22 p ∧ s.recovering = false ∧ p.p 0 < 65536 ∧ s.committing m (s.itemOwner p) = false ∧ s.stage
      { owner := s.itemOwner p, id := p.p 0, value := none } = (St.ok, u)) ∧
  (∃ (m : Fin 5) (f0 f1 : Nat) (p : Packet) (u : State) (s : State),
    CommandRuns s m 0x23 p ∧ s.recovering = false ∧ s.stagedOf (s.itemOwner p) ≠ [] ∧ s.journalWorn = false ∧ s.admits
      6 = true ∧ s.roomFor (txnPages (s.stagedOf (s.itemOwner p)) + 4) (f0 + f1) = true ∧ s.logsFree = true ∧ u =
      s.commitOwner (s.itemOwner p) f0 f1) ∧
  (∃ (m : Fin 5) (p : Packet) (s : State),
    CommandRuns s m 0x23 p ∧ s.recovering = false ∧ s.stagedOf (s.itemOwner p) = []) ∧
  (∃ (m : Fin 5) (f0 f1 : Nat) (p : Packet) (s : State),
    CommandRuns s m 0x23 p ∧ s.recovering = false ∧ s.stagedOf (s.itemOwner p) ≠ [] ∧ s.journalWorn = false ∧ s.admits
      6 = true ∧ (s.roomFor (txnPages (s.stagedOf (s.itemOwner p)) + 4) (f0 + f1) = false ∨ s.logsFree = false)) ∧
  (∃ (m : Fin 5) (p : Packet) (l : List (Nat × Nat)) (s : State),
    CommandRuns s m 0x24 p ∧ s.recovering = false ∧ p.p 0 < 65536 ∧ l = (s.itemList (s.itemOwner p)).filter (fun i =>
      decide (p.p 0 ≤ i.1))) :=
  ⟨⟨0, false, (packet 0x20 [] 0x10), _, _, ((withItems [{ owner := 0x10, id := 0, value := [] }] []).setRunning 0
    (some (packet 0x20 [] 0x10))), (by constructor <;> decide +kernel), by decide +kernel, by decide +kernel,
    by decide +kernel, rfl, by decide +kernel⟩,
   ⟨0, (packet 0x20 [] 0x10), _, ((hostStore).setRunning 0 (some (packet 0x20 [] 0x10))),
     (by constructor <;> decide +kernel), by decide +kernel, by decide +kernel, by decide +kernel, rfl⟩,
   ⟨0, (packet 0x21 [] 0x10), _, _, _, _, ((hostStore).setRunning 0 (some (packet 0x21 [] 0x10))),
     (by constructor <;> decide +kernel), by decide +kernel, by decide +kernel, by decide +kernel, rfl,
     by decide +kernel, rfl, rfl⟩,
   ⟨0, (packet 0x22 [] 0x10), _, ((hostStore).setRunning 0 (some (packet 0x22 [] 0x10))),
     (by constructor <;> decide +kernel), by decide +kernel, by decide +kernel, by decide +kernel, rfl⟩,
   ⟨0, 0, 0, (packet 0x23 [] 0x10), _, ((withItems [] [{ owner := 0x10, id := 0, value := some [] }]).setRunning 0
     (some (packet 0x23 [] 0x10))), (by constructor <;> decide +kernel), by decide +kernel, by decide +kernel,
     by decide +kernel, by decide +kernel, by decide +kernel, by decide +kernel, rfl⟩,
   ⟨0, (packet 0x23 [] 0x10), ((hostStore).setRunning 0 (some (packet 0x23 [] 0x10))),
     (by constructor <;> decide +kernel), by decide +kernel⟩,
   ⟨0, 10000000, 0, (packet 0x23 [] 0x10), ((withItems [] [{ owner := 0x10, id := 0, value := some [] }]).setRunning 0
     (some (packet 0x23 [] 0x10))), (by constructor <;> decide +kernel), by decide +kernel, by decide +kernel,
     by decide +kernel, by decide +kernel, .inl (by decide +kernel)⟩,
   ⟨0, (packet 0x24 [] 0x10), _, ((hostStore).setRunning 0 (some (packet 0x24 [] 0x10))),
     (by constructor <;> decide +kernel), by decide +kernel, by decide +kernel, rfl⟩⟩

theorem test_meets_UserAreaCommands :
  (∃ (m : Fin 5) (flips : List (List (List Nat))) (p : Packet) (l : Nat) (t : State) (as : List Stability) (s :
    State),
    CommandRuns s m 0x25 p ∧ p.p 0 < 2 ^ 23 ∧ bitsOf (p.p 0) 18 4 ≠ 1 ∧ l = bitsOf (p.p 0) 0 18 / 64 ∧ partitionOf l ≠
      .spares ∧ s.mayReadSlate (mailOwner m) l = true ∧ s.erasing l = false ∧ s.readHeld (s.flashBank l) false = false
      ∧ (s.suspendBank (s.flashBank l) false).checkPages l (if bitsOf (p.p 0) 18 4 = 0 then 4 else bitsOf (p.p 0) 18
      4) (fun q => flips.getD (if (p.p 0).testBit 22 then q else 0) []) (if (p.p 0).testBit 22 then List.range 64 else
      [bitsOf (p.p 0) 0 18 % 64]) = (t, as) ∧ stabilityWord as % 4 ≠ 2) ∧
  (∃ (m : Fin 5) (p : Packet) (u t : State) (l : Nat) (bs : List Byte) (s : State),
    CommandRuns s m 0x26 p ∧ p.p 0 < 64 ∧ p.p 1 % 4096 = 0 ∧ p.p 1 < 0x80_0000 ∧ sourceShape (p.p64 2) (p.p 4) = true
      ∧ p.p 1 % 262144 + p.p 4 ≤ 262144 ∧ s.ownsExtent p (p.p 0) = true ∧ l = (Partition.user (p.p 0)).base + p.p 1 /
      262144 ∧ s.blockBusy l = false ∧ s.streaming (s.flashBank l) = false ∧ s.nextPage l ≤ p.p 1 % 262144 / 4096 ∧
      s.flag .SLT_PART_USER_LOCK = false ∧ SMap.look false s.slate.retire l = false ∧ s.useBank (mailOwner m) (p.p64
      2) (p.p 4) = (u, St.ok) ∧ u.readBankBytes (p.p64 2) (p.p 4) = (t, some bs) ∧ t.admits (opClass p.opcode) = true)
      ∧
  (∃ (m : Fin 5) (p : Packet) (x l : Nat) (s : State),
    CommandRuns s m 0x27 p ∧ p.p 0 < 2048 ∧ x = bitsOf (p.p 0) 0 6 ∧ s.ownsExtent p x = true ∧ l = (Partition.user
      x).base + bitsOf (p.p 0) 6 5 ∧ s.flag .SLT_PART_USER_LOCK = false ∧ s.blockBusy l = false ∧ s.admits 5 = true) ∧
  (∃ (m : Fin 5) (f0 f1 f : Nat) (p : Packet) (u : State) (s : State),
    CommandRuns s m 0x28 p ∧ p.p 0 < 65536 ∧ bitsOf (p.p 0) 6 2 = 0 ∧ f = bitsOf (p.p 0) 8 8 ∧ (f = 0 ∨ (0x10 ≤ f ∧ f
      ≤ 0x14)) ∧ JournalTakes s 5 (s.extentRecord (bitsOf (p.p 0) 0 6) (BitVec.ofNat 8 f)) f0 f1 u) :=
  ⟨⟨0, [], (packet 0x25 [131072] 0x10), _, _, _, ((hostStore).setRunning 0 (some (packet 0x25 [131072] 0x10))),
    (by constructor <;> decide +kernel), by decide +kernel, by decide +kernel, rfl, by decide +kernel,
    by decide +kernel, by decide +kernel, by decide +kernel, rfl, by decide +kernel⟩,
   ⟨0, (packet 0x26 [0, 0, 0, 0, 4096] 0x10), _, _, _, List.replicate 4096 0, ((hostStore).setRunning 0 (some (packet
     0x26 [0, 0, 0, 0, 4096] 0x10))), (by constructor <;> decide +kernel), by decide +kernel, by decide +kernel,
     by decide +kernel, by decide +kernel, by decide +kernel, by decide +kernel, rfl, by decide +kernel,
     by decide +kernel, by decide +kernel, by decide +kernel, by decide +kernel, rfl, pair_of_snd (by decide +kernel),
     by decide +kernel⟩,
   ⟨0, (packet 0x27 [] 0x10), _, _, ((hostStore).setRunning 0 (some (packet 0x27 [] 0x10))),
     (by constructor <;> decide +kernel), by decide +kernel, rfl, by decide +kernel, rfl, by decide +kernel⟩,
   ⟨0, 0, 0, _, (packet 0x28 [] 0x14), _, ((storeState).setRunning 0 (some (packet 0x28 [] 0x14))),
     (by constructor <;> decide +kernel), by decide +kernel, by decide +kernel, rfl, by decide +kernel,
     ⟨by decide +kernel, by decide +kernel, by decide +kernel, by decide +kernel, Prod.ext (by decide +kernel) rfl,
     by decide +kernel⟩⟩⟩

theorem test_meets_EnergyIsMeasuredAndBanksAreSized :
  (∃ (s : State),
    s.mode ≠ .off ∧ s.mode ≠ .holdup) ∧
  (∃ (ext : Bool) (drop : Nat) (t : State) (cap : Nat) (s : State),
    (s.mode = .boot ∨ s.mode = .run) ∧ s.loadAllowed ext = true ∧ s.dischargeCapacitance ext drop = (t, cap) ∧
      t.capWaiter ext = none) ∧
  (∃ (ext : Bool) (drop m : Nat) (p : Packet) (t : State) (cap : Nat) (s : State),
    (s.mode = .boot ∨ s.mode = .run) ∧ s.loadAllowed ext = true ∧ s.dischargeCapacitance ext drop = (t, cap) ∧
      t.capWaiter ext = some (m, p)) ∧
  (∃ (s : State),
    s.mode ≠ .off ∧ s.mode ≠ .holdup) ∧
  (∃ (s : State),
    s.mode = .run ∧ s.flag .NRG_STAT_RESERVE_SHORT = false ∧ s.margin < 0) ∧
  (∃ (s : State),
    s.mode = .run ∧ s.flag .NRG_STAT_RESERVE_SHORT = true) ∧
  (∃ (s : State),
    s.flag .NRG_STAT_RESERVE_SHORT = true ∧ 0 ≤ s.margin) :=
  ⟨⟨runState, by decide +kernel⟩,
   ⟨false, 10, _, _, powered runState, by decide +kernel, by decide +kernel, rfl, by decide +kernel⟩,
   ⟨false, 10, _, _, _, _, (powered runState).setRunning 0 (some { packet 0x42 [] 0x14 with wait := .capacitance }),
     by decide +kernel, by decide +kernel, rfl, rfl⟩,
   ⟨runState, by decide +kernel⟩,
   ⟨runState, by decide +kernel⟩,
   ⟨(powered runState).putFlag .NRG_STAT_RESERVE_SHORT true, by decide +kernel⟩,
   ⟨(powered runState).putFlag .NRG_STAT_RESERVE_SHORT true, by decide +kernel⟩⟩

theorem test_meets_LedgerSample :
    runState.mode ≠ .off ∧ (24000 : BitVec 16).toNat ≤ 45000 ∧ 45000 < (45001 : BitVec 16).toNat := by decide +kernel

theorem test_meets_HoldupRunsItsSteps :
  (∃ (s : State),
    (s.mode = .boot ∨ s.mode = .run ∨ s.mode = .doze ∨ s.mode = .safe)) ∧
  (∃ (c : Nat) (s : State),
    s.mode = .holdup ∧ s.holdup.closed = false ∧ (∀ u ∈ s.slate.units, u.erase = true) ∧ s.test.program = none ∧
      (s.power.mgcHalted = false ∨ s.holdup.stopped = true) ∧ s.huNext = some c ∧ 3200 ≤ s.eAvail) ∧
  (∃ (c : Nat) (s : State),
    s.mode = .holdup ∧ s.holdup.closed = false ∧ (∀ u ∈ s.slate.units, u.erase = true) ∧ s.test.program = none ∧
      (s.power.mgcHalted = false ∨ s.holdup.stopped = true) ∧ s.huNext = some c ∧ s.eAvail < 3200) ∧
  (∃ (s : State),
    s.mode = .holdup ∧ s.holdup.closed = false ∧ (∀ u ∈ s.slate.units, u.erase = true) ∧ s.test.program = none ∧
      s.power.mgcHalted = true ∧ s.holdup.stopped = false) ∧
  (∃ (s : State),
    s.mode = .holdup ∧ s.holdup.closed = false ∧ (∀ u ∈ s.slate.units, u.erase = true) ∧ s.test.program = none ∧
      (s.power.mgcHalted = false ∨ s.holdup.stopped = true) ∧ s.huNext = none) ∧
  (∃ (t : State) (s : State),
    s.mode = .holdup ∧ s.holdup.closed = true ∧ s.slate.units = [] ∧ s.test.program = none ∧ t = (s.put
      .NRG_HU_TIME_DURATION_US (min ((s.now - s.holdup.startTime) / 1000) 0xFFFF)).put .NRG_HU_TIME_OFF_MV (s.get
      .NRG_BANK_INT_MV)) ∧
  (∃ (s : State),
    s.mode = .holdup) :=
  ⟨⟨runState, by decide +kernel⟩,
   ⟨_, holdupWork, by decide +kernel, by decide +kernel, by decide +kernel, by decide +kernel, by decide +kernel, rfl,
     by decide +kernel⟩,
   ⟨_, holdupWork.put .NRG_AVAIL_UJ 100, by decide +kernel, by decide +kernel, by decide +kernel, by decide +kernel,
     by decide +kernel, rfl, by decide +kernel⟩,
   ⟨{ holdupWork with power := { holdupWork.power with mgcHalted := true } }, by decide +kernel⟩,
   ⟨holdupState, by decide +kernel⟩,
   ⟨_, { holdupState with holdup := { closed := true } }, by decide +kernel, by decide +kernel, by decide +kernel,
     by decide +kernel, rfl⟩,
   ⟨holdupState, by decide +kernel⟩⟩

theorem test_meets_EnergyCommandsReply :
  (∃ (m : Fin 5) (p : Packet) (s : State),
    CommandRuns s m 0x40 p ∧ p.p 0 < 14) ∧
  (∃ (m : Fin 5) (p : Packet) (u : State) (bytes : List Byte) (s : State),
    CommandRuns s m 0x41 p ∧ 16384 ≤ p.p 0 ∧ s.useBank (mailOwner m) (p.p64 1) 16384 = (u, St.ok) ∧ u.systemItem 6 =
      some bytes) ∧
  (∃ (m : Fin 5) (p : Packet) (u : State) (s : State),
    CommandRuns s m 0x41 p ∧ 16384 ≤ p.p 0 ∧ s.useBank (mailOwner m) (p.p64 1) 16384 = (u, St.ok) ∧ u.systemItem 6 =
      none) ∧
  (∃ (m : Fin 5) (p : Packet) (s : State),
    CommandRuns s m 0x42 p) :=
  ⟨⟨0, (packet 0x40 [] 0x14), ((runState).setRunning 0 (some (packet 0x40 [] 0x14))),
    (by constructor <;> decide +kernel), by decide +kernel⟩,
   ⟨0, (packet 0x41 [16384] 0x10), _, _, ((withItems [{ owner := 0x01, id := 6, value := [0] }] []).setRunning 0 (some
     (packet 0x41 [16384] 0x10))), (by constructor <;> decide +kernel), by decide +kernel, rfl, rfl⟩,
   ⟨0, (packet 0x41 [16384] 0x10), _, ((hostStore).setRunning 0 (some (packet 0x41 [16384] 0x10))),
     (by constructor <;> decide +kernel), by decide +kernel, rfl, by decide +kernel⟩,
   ⟨0, (packet 0x42 [] 0x14), ((runState).setRunning 0 (some (packet 0x42 [] 0x14))),
     (by constructor <;> decide +kernel)⟩⟩

theorem test_meets_SupplyEventsMoveTheMode :
  (∃ (s : State),
    s.mode = .off ∧ s.power.held = false) ∧
  (∃ (s : State),
    s.mode = .boot ∧ s.flag .TMB_STAT_SOURCE = true) ∧
  (∃ (s : State),
    s.mode = .off) ∧
  (∃ (s : State),
    s.mode = .off ∧ s.power.restart = true) ∧
  (∃ (s : State),
    s.mode = .off ∧ s.power.vinPresent = false) ∧
  (∃ (s : State),
    s.mode = .holdup) ∧
  (∃ (s : State),
    s.mode = .off) ∧
  (∃ (s : State),
    s.mode = .doze) ∧
  (∃ (s : State),
    (s.mode = .boot ∨ s.mode = .run ∨ s.mode = .safe) ∧ s.power.mgcHalted = true) ∧
  (∃ (s : State),
    (s.mode = .boot ∨ s.mode = .run ∨ s.mode = .safe) ∧ s.power.mgcHalted = false ∧ s.get .DEV_MODE_PHASE ≠ 1 ∧
      s.power.orderly.any (·.committed) = false) ∧
  (∃ (s : State),
    (s.mode = .boot ∨ s.mode = .run ∨ s.mode = .safe) ∧ s.power.mgcHalted = false ∧ s.get .DEV_MODE_PHASE = 1) ∧
  (∃ (s : State),
    (s.mode = .boot ∨ s.mode = .run ∨ s.mode = .safe) ∧ s.power.mgcHalted = false ∧ s.get .DEV_MODE_PHASE ≠ 1 ∧
      s.power.orderly.any (·.committed) = true) :=
  ⟨⟨offState, by decide +kernel⟩,
   ⟨{ runState.putFlag .TMB_STAT_SOURCE true with mode := .boot }, by decide +kernel⟩,
   ⟨offState, by decide +kernel⟩,
   ⟨{ offState with power := { restart := true } }, by decide +kernel⟩,
   ⟨offState, by decide +kernel⟩,
   ⟨holdupState, by decide +kernel⟩,
   ⟨offState, by decide +kernel⟩,
   ⟨{ runState with mode := .doze }, by decide +kernel⟩,
   ⟨{ runState with power := { mgcHalted := true } }, by decide +kernel⟩,
   ⟨runState, by decide +kernel⟩,
   ⟨runState.put .DEV_MODE_PHASE 1, by decide +kernel⟩,
   ⟨(fun l : State =>
     { l with power := { l.power with orderly := l.power.orderly.map fun o => { o with committed := true } } })
     (leaving .reboot none none), by decide +kernel⟩⟩

theorem test_meets_DozeEntersWakesAndExits :
  (∃ (m : Fin 5) (p : Packet) (s : State),
    CommandRuns s m 0x30 p ∧ s.power.orderly = none ∧ s.dozeRefusal = none) ∧
  (∃ (m : Fin 5) (p : Packet) (reason refuser : Nat) (s : State),
    CommandRuns s m 0x30 p ∧ s.power.orderly = none ∧ s.dozeRefusal = some (reason, refuser)) ∧
  (∃ (s : State),
    s.mode = .run ∧ s.get .DEV_MODE_PHASE = 1) ∧
  (∃ (w : WakeSource) (s : State),
    s.wakeEnabled w = false) ∧
  (∃ (w : WakeSource) (t : State) (s : State),
    s.wakeEnabled w = true ∧ t = s.wake (wakePlace w).1 (wakePlace w).2) ∧
  (∃ (t : State) (s : State),
    s.mode = .doze ∧ s.power.woken = true ∧ s.admits 10 = true ∧ t =
      { s.exitDoze with power := { s.exitDoze.power with resetAfterWake := false } }) :=
  ⟨⟨0, (packet 0x30 [] 0x14), ((runState).setRunning 0 (some (packet 0x30 [] 0x14))),
    (by constructor <;> decide +kernel), by decide +kernel⟩,
   ⟨0, (packet 0x30 [] 0x14), _, _, ((runState.put .SAF_CFG_CRIT_REGIONS 1).setRunning 0 (some (packet 0x30 []
     0x14))), (by constructor <;> decide +kernel), by decide +kernel, rfl⟩,
   ⟨runState.put .DEV_MODE_PHASE 1, by decide +kernel⟩,
   ⟨.link 0, runState.put .PWR_WAKE_EN_LINK 0, by decide +kernel⟩,
   ⟨.nreset, _, runState, by decide +kernel, rfl⟩,
   ⟨_, { powered runState with mode := .doze, power := { woken := true } }, by decide +kernel, by decide +kernel,
     by decide +kernel, rfl⟩⟩

theorem test_meets_DomainCommandsReply :
  (∃ (m : Fin 5) (p : Packet) (k : Fin 16) (s : State),
    CommandRuns s m 0x31 p ∧ p.p 0 = k.val + 256 ∧ p.acts = s.parent k ∧ s.power.orderly = none ∧ s.regionOn k = false
      ∧ s.admits 8 = true) ∧
  (∃ (m : Fin 5) (p : Packet) (k : Fin 16) (s : State),
    CommandRuns s m 0x31 p ∧ p.p 0 = k.val ∧ p.acts = s.parent k ∧ s.power.orderly = none ∧ s.regionOn k = true ∧
      s.regionOffRefusal k = none) ∧
  (∃ (m : Fin 5) (p : Packet) (k : Fin 16) (reason refuser : Nat) (s : State),
    CommandRuns s m 0x31 p ∧ p.p 0 = k.val ∧ p.acts = s.parent k ∧ s.power.orderly = none ∧ s.regionOn k = true ∧
      s.regionOffRefusal k = some (reason, refuser)) ∧
  (∃ (m : Fin 5) (p : Packet) (g : Fin 16) (s : State),
    CommandRuns s m 0x32 p ∧ p.p 0 = g.val + 256 ∧ s.switchesGroup g p.acts = true ∧ s.power.orderly = none ∧
      s.groupOn g = false ∧ s.admits 9 = true) ∧
  (∃ (m : Fin 5) (p : Packet) (g : Fin 16) (s : State),
    CommandRuns s m 0x32 p ∧ p.p 0 = g.val ∧ s.switchesGroup g p.acts = true ∧ s.power.orderly = none ∧ s.groupOn g =
      true ∧ s.groupUnderTest g = false) ∧
  (∃ (m : Fin 5) (p : Packet) (q : Fin 8) (s : State),
    CommandRuns s m 0x33 p ∧ p.p 0 = q.val + 256 ∧ s.power.orderly = none ∧ s.quadOn q = false) ∧
  (∃ (m : Fin 5) (p : Packet) (q : Fin 8) (s : State),
    CommandRuns s m 0x33 p ∧ p.p 0 = q.val ∧ s.power.orderly = none ∧ s.quadOn q = true ∧ s.quadVeto q = none) :=
  ⟨⟨0, (packet 0x31 [256] 0x14), 0, ((((powered runState).put .ATT_REGION_PARENT_PARENT 0x14).put
    .PWR_DOMAINS_REGION_ON 0).setRunning 0 (some (packet 0x31 [256] 0x14))), (by constructor <;> decide +kernel),
    by decide +kernel⟩,
   ⟨0, (packet 0x31 [] 0x14), 0, ((regionState).setRunning 0 (some (packet 0x31 [] 0x14))),
     (by constructor <;> decide +kernel), by decide +kernel⟩,
   ⟨0, (packet 0x31 [] 0x14), 0, _, _, ((regionState.put .SAF_CFG_CRIT_REGIONS 1).setRunning 0 (some (packet 0x31 []
     0x14))), (by constructor <;> decide +kernel), by decide +kernel, by decide +kernel, by decide +kernel,
     by decide +kernel, rfl⟩,
   ⟨0, (packet 0x32 [256] 0x14), 0, (((powered runState).put .PWR_DOMAINS_GROUP_ON 0).setRunning 0 (some (packet 0x32
     [256] 0x14))), (by constructor <;> decide +kernel), by decide +kernel⟩,
   ⟨0, (packet 0x32 [] 0x14), 0, ((runState).setRunning 0 (some (packet 0x32 [] 0x14))),
     (by constructor <;> decide +kernel), by decide +kernel⟩,
   ⟨0, (packet 0x33 [256] 0x14), 0, ((runState.put .PWR_DOMAINS_QUAD_ON 0).setRunning 0 (some (packet 0x33 [256]
     0x14))), (by constructor <;> decide +kernel), by decide +kernel⟩,
   ⟨0, (packet 0x33 [] 0x14), 0, ((runState).setRunning 0 (some (packet 0x33 [] 0x14))),
     (by constructor <;> decide +kernel), by decide +kernel⟩⟩

theorem test_meets_OrderlyOffIsAcceptedAndCommitted :
  (∃ (m : Fin 5) (p : Packet) (s : State),
    CommandRuns s m 0x02 p ∧ p.p 0 < 8 ∧ s.power.orderly = none ∧ ((p.p 0).testBit 1 = true ∨ s.impliedForce = true ∨
      s.offRefusal = none)) ∧
  (∃ (m : Fin 5) (p : Packet) (reason refuser : Nat) (s : State),
    CommandRuns s m 0x02 p ∧ p.p 0 < 8 ∧ s.power.orderly = none ∧ (p.p 0).testBit 1 = false ∧ s.impliedForce = false ∧
      s.offRefusal = some (reason, refuser)) ∧
  (∃ (m : Fin 5) (p : Packet) (reason refuser : Nat) (s : State),
    CommandRuns s m 0x01 p ∧ p.p 0 < 2 ∧ s.power.orderly = none ∧ (p.p 0).testBit 0 = false ∧ s.impliedForce = false ∧
      s.offRefusal = some (reason, refuser)) ∧
  (∃ (m : Fin 5) (p : Packet) (s : State),
    CommandRuns s m 0x01 p ∧ p.p 0 < 2 ∧ s.power.orderly = none ∧ ((p.p 0).testBit 0 = true ∨ s.impliedForce = true ∨
      s.offRefusal = none)) ∧
  (∃ (o : Orderly) (t : State) (s : State),
    s.power.orderly = some o ∧ o.committed = false ∧ o.cause = .reboot ∧ s.uncuttable = false ∧ (s.mode = .boot ∨
      s.mode = .run ∨ s.mode = .safe) ∧ s.test.program = none ∧ t =
      { s with power := { s.power with orderly := some { o with committed := true } } } ∧ s.power.mgcHalted = false ∧
      s.logsFree = true ∧ s.archiveFree = true) ∧
  (∃ (o : Orderly) (t : State) (s : State),
    s.power.orderly = some o ∧ o.committed = false ∧ o.cause = .shutdown ∧ s.uncuttable = false ∧ (s.mode = .boot ∨
      s.mode = .run) ∧ s.test.program = none ∧ t =
      { s with power := { s.power with orderly := some { o with committed := true } } } ∧ s.power.mgcHalted = false ∧
      s.logsFree = true ∧ s.archiveFree = true) ∧
  (∃ (o : Orderly) (lc : Nat) (t : State) (s : State),
    s.power.orderly = some o ∧ o.committed = false ∧ o.cause = .lifecycle ∧ o.lifeCycle = some lc ∧ s.uncuttable =
      false ∧ (s.mode = .boot ∨ s.mode = .run) ∧ s.test.program = none ∧ t =
      { s with power := { s.power with orderly := some { o with committed := true } } } ∧ s.power.mgcHalted = false ∧
      s.logsFree = true ∧ s.archiveFree = true) ∧
  (∃ (fails : List (Nat × Nat)) (o : Orderly) (n : Nat) (t : State) (s : State),
    s.power.orderly = some o ∧ o.committed = false ∧ o.cause = .program ∧ o.program = some n ∧ s.uncuttable = false ∧
      (s.mode = .boot ∨ s.mode = .run) ∧ s.test.program = none ∧ t =
      { s with power := { s.power with orderly := some { o with committed := true } } }.dropWaiting.stopFabric.commitOnVin
      3 fails ∧ s.power.mgcHalted = false ∧ s.logsFree = true ∧ s.archiveFree = true) ∧
  (∃ (fails : List (Nat × Nat)) (o : Orderly) (t : State) (s : State),
    s.power.orderly = some o ∧ o.committed = false ∧ (o.cause = PowerCause.shutdown ∨ o.cause = PowerCause.lifecycle)
      ∧ s.uncuttable = false ∧ s.mode = .safe ∧ s.test.program = none ∧ s.power.mgcHalted = false ∧ s.logsFree = true
      ∧ s.archiveFree = true ∧ t =
      { s with power := { s.power with orderly := some { o with committed := true } } }.dropWaiting.stopFabric.commitOnVin
      (if o.cause = PowerCause.shutdown then 2 else 3) fails) ∧
  (∃ (fails : List (Nat × Nat)) (o : Orderly) (n : Nat) (t : State) (s : State),
    s.power.orderly = some o ∧ o.committed = false ∧ o.cause = .program ∧ o.program = some n ∧ s.uncuttable = false ∧
      s.mode = .safe ∧ s.test.program = none ∧ s.power.mgcHalted = false ∧ s.logsFree = true ∧ s.archiveFree = true ∧
      t =
      { s with power := { s.power with orderly := some { o with committed := true } } }.dropWaiting.stopFabric.commitOnVin
      3 fails) ∧
  (∃ (s : State),
    (s.power.mgcHalted = true ∨ s.power.orderly = none)) :=
  ⟨⟨0, (packet 0x02 [] 0x14), ((runState).setRunning 0 (some (packet 0x02 [] 0x14))),
    (by constructor <;> decide +kernel), by decide +kernel⟩,
   ⟨0, (packet 0x02 [] 0x14), _, _, ((runState.putFlag .PWR_VETO_SHUTDOWN true 4).setRunning 0 (some (packet 0x02 []
     0x14))), (by constructor <;> decide +kernel), by decide +kernel, by decide +kernel, by decide +kernel,
     by decide +kernel, rfl⟩,
   ⟨0, (packet 0x01 [] 0x14), _, _, ((runState.putFlag .PWR_VETO_SHUTDOWN true 4).setRunning 0 (some (packet 0x01 []
     0x14))), (by constructor <;> decide +kernel), by decide +kernel, by decide +kernel, by decide +kernel,
     by decide +kernel, rfl⟩,
   ⟨0, (packet 0x01 [] 0x14), ((runState).setRunning 0 (some (packet 0x01 [] 0x14))),
     (by constructor <;> decide +kernel), by decide +kernel⟩,
   ⟨_, _, leaving .reboot none none, rfl, by decide +kernel, by decide +kernel, by decide +kernel, by decide +kernel,
     by decide +kernel, rfl, by decide +kernel⟩,
   ⟨_, _, leaving .shutdown none none, rfl, by decide +kernel, by decide +kernel, by decide +kernel,
     by decide +kernel, by decide +kernel, rfl, by decide +kernel⟩,
   ⟨_, _, _, leaving .lifecycle none (some 1), rfl, by decide +kernel, by decide +kernel, rfl, by decide +kernel,
     by decide +kernel, by decide +kernel, rfl, by decide +kernel⟩,
   ⟨[], _, _, _, leaving .program (some 1) none, rfl, by decide +kernel, by decide +kernel, rfl, by decide +kernel,
     by decide +kernel, by decide +kernel, rfl, by decide +kernel⟩,
   ⟨[], _, _, { leaving .shutdown none none with mode := .safe }, rfl, by decide +kernel, by decide +kernel,
     by decide +kernel, by decide +kernel, by decide +kernel, by decide +kernel, by decide +kernel, by decide +kernel,
     rfl⟩,
   ⟨[], _, _, _, { leaving .program (some 1) none with mode := .safe }, rfl, by decide +kernel, by decide +kernel,
     rfl, by decide +kernel, by decide +kernel, by decide +kernel, by decide +kernel, by decide +kernel,
     by decide +kernel, rfl⟩,
   ⟨runState, .inr rfl⟩⟩

theorem test_meets_PllsLockAndAreSet :
  (∃ (who : Requester) (k : Fin 16) (m : BitVec 6) (n : BitVec 10) (t : State) (b v : Nat) (s : State),
    RegisterOpen s who .PLL_CFG ∧ s.mode = .run ∧ s.controlsRegion k who.owner = true ∧ t = (s.put .PLL_CFG_M m.toNat
      k).put .PLL_CFG_N n.toNat k ∧ t.regionOn k = true ∧ t.checkPll k (t.stagedPll k) (t.calibrated k (t.stagedPll
      k)) = (0, b, v)) ∧
  (∃ (who : Requester) (k : Fin 16) (m : BitVec 6) (n : BitVec 10) (t : State) (s : State),
    RegisterOpen s who .PLL_CFG ∧ s.mode = .run ∧ s.controlsRegion k who.owner = true ∧ t = (s.put .PLL_CFG_M m.toNat
      k).put .PLL_CFG_N n.toNat k ∧ t.regionOn k = false ∧ (t.checkPll k (t.stagedPll k) ((t.stagedPll k).khz, 1)).1 =
      0) ∧
  (∃ (k : Fin 16) (khz : BitVec 19) (t u : State) (f d : Nat) (s : State),
    s.flag .PLL_STAT_POWERED k = true ∧ s.mode ≠ .doze ∧ s.coreOn = true ∧ f = s.windowKhz k khz.toNat ∧ d = (s.pll
      k).inForce.khz ∧ t = (if (s.pll k).inForce.refsel = 0 then s else s.putSource (s.pll k).inForce.refsel
      khz.toNat) ∧ u = (t.put .PLL_MEAS_REF_KHZ f k).putFlag .PLL_MEAS_PRESENT (decide (99 * d ≤ 100 * f) && decide
      (100 * f ≤ 101 * d)) k) ∧
  (∃ (k : Fin 16) (s : State),
    s.get .PLL_STAT_STATE k = 2) ∧
  (∃ (k : Fin 16) (t : State) (s : State),
    s.get .PLL_STAT_STATE k = 3 ∧ t = ((s.putFlag .PLL_STAT_QUALIFIED true k).putFlag .PLL_STAT_GATED false k).put
      .PLL_STAT_STATE 4 k) ∧
  (∃ (m : Fin 5) (p : Packet) (k : Fin 16) (c : PllSetting) (b v b' v' : Nat) (t : State) (s : State),
    CommandRuns s m 0x80 p ∧ p.p 0 = k.val ∧ p.pllReserved = false ∧ s.controlsRegion k p.acts = true ∧ s.mode = .run
      ∧ c = p.pllSetting ∧ s.regionOn k = true ∧ s.checkPll k c (s.calibrated k c) = (0, b, v) ∧ t = s.stagePll k c ∧
      t.mode = .run ∧ t.regionOn k = true ∧ t.checkPll k c (t.calibrated k c) = (0, b', v')) ∧
  (∃ (m : Fin 5) (p : Packet) (k : Fin 16) (err : Nat) (s : State),
    CommandRuns s m 0x80 p ∧ p.p 0 = k.val ∧ p.pllReserved = false ∧ s.controlsRegion k p.acts = true ∧ s.mode = .run
      ∧ s.regionOn k = true ∧ err = (s.checkPll k p.pllSetting (s.calibrated k p.pllSetting)).1 ∧ err ≠ 0) ∧
  (∃ (m : Fin 5) (p : Packet) (k : Nat) (s : State),
    s.running m = some p ∧ p.wait = .pll k) ∧
  (∃ (m : Fin 5) (p : Packet) (k : Fin 16) (f0 f1 : Nat) (u : State) (s : State),
    CommandRuns s m 0x81 p ∧ p.p 0 = k.val ∧ p.pllReserved = false ∧ s.controlsRegion k p.acts = true ∧
      p.pllSetting.rangeError = 0 ∧ JournalTakes s 3 (s.pllRecord.take (32 * k) ++ p.pllSetting.bytes ++
      s.pllRecord.drop (32 * k + 32)) f0 f1 u) ∧
  (∃ (m : Fin 5) (p : Packet) (k : Fin 16) (f0 f1 : Nat) (u : State) (s : State),
    CommandRuns s m 0x81 p ∧ p.p 0 = k.val + 256 ∧ p.pllReserved = false ∧ s.isAdmin (mailOwner m) = true ∧
      p.pllSetting.rangeError = 0 ∧ JournalTakes s 3 (s.pllRecord.take (512 + 32 * k) ++ p.pllSetting.bytes ++
      s.pllRecord.drop (512 + 32 * k + 32)) f0 f1 u) ∧
  (∃ (m : Fin 5) (p : Packet) (k : Fin 16) (s : State),
    CommandRuns s m 0x82 p ∧ p.p 0 = k.val ∧ s.controlsRegion k p.acts = true) :=
  ⟨⟨.spi, 0, 1, 40, _, _, _, pllState, ⟨by decide, (fun h => nomatch h), by decide⟩, by decide +kernel,
    by decide +kernel, rfl, by decide +kernel, Prod.ext (by decide +kernel) (Prod.ext rfl rfl)⟩,
   ⟨.spi, 0, 1, 40, _, pllState.put .PWR_DOMAINS_REGION_ON 0, ⟨by decide, (fun h => nomatch h), by decide⟩,
     by decide +kernel, by decide +kernel, rfl, by decide +kernel⟩,
   ⟨0, 0, _, _, _, _, pllState, by decide +kernel, by decide +kernel, by decide +kernel, rfl, rfl, rfl, rfl⟩,
   ⟨0, pllState.put .PLL_STAT_STATE 2, by decide +kernel⟩,
   ⟨0, _, pllState.put .PLL_STAT_STATE 3, by decide +kernel, rfl⟩,
   ⟨0, (packet 0x80 pllParams 0x14), 0, _, _, _, _, _, _, pllState.setRunning 0 (some (packet 0x80 pllParams 0x14)),
     (by constructor <;> decide +kernel), by decide +kernel, by decide +kernel, by decide +kernel, by decide +kernel,
     rfl, by decide +kernel, rfl, rfl, by decide +kernel, by decide +kernel, rfl⟩,
   ⟨0, (packet 0x80 [] 0x14), 0, _, ((pllState).setRunning 0 (some (packet 0x80 [] 0x14))),
     (by constructor <;> decide +kernel), by decide +kernel, by decide +kernel, by decide +kernel, by decide +kernel,
     by decide +kernel, rfl, by decide +kernel⟩,
   ⟨0, _, _, pllState.setRunning 0 (some { packet 0x80 [] 0x14 with wait := .pll 0 }), rfl, rfl⟩,
   ⟨0, (packet 0x81 pllParams 0x14), 0, 0, 0, _, (storeState.put .ATT_REGION_PARENT_PARENT 0x14).setRunning 0 (some
     (packet 0x81 pllParams 0x14)), (by constructor <;> decide +kernel), by decide +kernel, by decide +kernel,
     by decide +kernel, by decide +kernel, ⟨by decide +kernel, by decide +kernel, by decide +kernel,
     by decide +kernel, Prod.ext (by decide +kernel) rfl, by decide +kernel⟩⟩,
   ⟨0, (packet 0x81 [256, 1600000, 10241] 0x10), 0, 0, 0, _, (storeState.put .ATT_ADMIN_ADMIN 0x10).setRunning 0 (some
     (packet 0x81 [256, 1600000, 10241] 0x10)), (by constructor <;> decide +kernel), by decide +kernel,
     by decide +kernel, by decide +kernel, by decide +kernel, ⟨by decide +kernel, by decide +kernel,
     by decide +kernel, by decide +kernel, Prod.ext (by decide +kernel) rfl, by decide +kernel⟩⟩,
   ⟨0, (packet 0x82 [] 0x14), 0, ((pllState).setRunning 0 (some (packet 0x82 [] 0x14))),
     (by constructor <;> decide +kernel), by decide +kernel⟩⟩

theorem test_meets_TimebaseAndAlarms :
  (∃ (m : Fin 5) (p : Packet) (s : State),
    CommandRuns s m 0x90 p) ∧
  (∃ (who : Requester) (a : Fin 5) (vector : BitVec 11) (t u : State) (clear : Bool) (s : State),
    RegisterOpen s who .TMB_ALARM_CTL ∧ who.owner = 0x10 + a.val ∧ t = (if clear then s.putFlag .TMB_ALARM_CTL_PENDING
      false a else s) ∧ u = (((t.put .TMB_ALARM_CTL_VECTOR vector.toNat a).putFlag .TMB_ALARM_CTL_ARM true a).put
      .TMB_ALARM_CTL_MISSED 0 a)) ∧
  (∃ (who : Requester) (a : Fin 5) (t : State) (clear : Bool) (s : State),
    RegisterOpen s who .TMB_ALARM_CTL ∧ who.owner = 0x10 + a.val ∧ t = (if clear then s.putFlag .TMB_ALARM_CTL_PENDING
      false a else s)) ∧
  (∃ (a : Fin 5) (t : State) (s : State),
    s.alarmDue a = true ∧ t = (s.fireAlarm a).sendAlarm a) ∧
  (∃ (who : Requester) (s : State),
    RegisterOpen s who .TMB_CTL ∧ s.maintains who.owner = true) :=
  ⟨⟨0, (packet 0x90 [] 0x14), ((runState).setRunning 0 (some (packet 0x90 [] 0x14))),
    (by constructor <;> decide +kernel)⟩,
   ⟨.host 0, 0, 0, _, _, false, runState, ⟨by decide, (fun h => nomatch h), by decide⟩, by decide +kernel, rfl, rfl⟩,
   ⟨.host 0, 0, _, false, runState, ⟨by decide, (fun h => nomatch h), by decide⟩, by decide +kernel, rfl⟩,
   ⟨0, _, runState.putFlag .TMB_ALARM_CTL_ARM true, by decide +kernel, rfl⟩,
   ⟨.mgc, runState, ⟨by decide, (fun h => nomatch h), by decide⟩, by decide +kernel⟩⟩

theorem test_meets_LcPllsAndLanes :
  (∃ (who : Requester) (q : Fin 8) (p : Fin 2) (refsel : BitVec 4) (m : BitVec 3) (n : BitVec 9) (khz : BitVec 19) (c
    : LcSetting) (lanes : List Nat) (t u : State) (s : State),
    RegisterOpen t who .XCV_LCPLL ∧ t = (if refsel.toNat = 0 || 8 < refsel.toNat then s else s.putSource refsel.toNat
      khz.toNat) ∧ t.writesQuad q who.owner = true ∧ t.quadPcie q = false ∧ c =
      { khz := t.sourceKhz refsel.toNat, m := m.toNat, n := n.toNat } ∧ lanes = ((List.range 4).map (4 * q.val +
      ·)).filter (fun l => t.fabricLane l && t.get .XCV_LANE_CFG_PLL l == p) ∧ c.inRange = true ∧ refsel.toNat < 9 ∧
      (∀ l ∈ lanes, (laneSetting (t.regValue .XCV_LANE_CFG l)).fits c = true) ∧ u = ((((t.put .XCV_LCPLL_REFSEL
      refsel.toNat (2 * q + p)).put .XCV_LCPLL_M m.toNat (2 * q + p)).put .XCV_LCPLL_N n.toNat (2 * q + p)).putFlag
      .XCV_LCPLL_EN true (2 * q + p)).putLcLock q p false) ∧
  (∃ (q : Fin 8) (p : Fin 2) (s : State),
    s.lcLocked q p = true) ∧
  (∃ (q : Fin 8) (p : Fin 2) (s : State),
    s.lcRuns q p = true) ∧
  (∃ (who : Requester) (l : Fin 32) (setting : BitVec 20) (c : LaneSetting) (t u : State) (s : State),
    RegisterOpen s who .XCV_LANE_CFG ∧ s.writesLane l who.owner = true ∧ s.heldByPcie l = false ∧ c = laneSetting
      setting.toNat ∧ c.shaped = true ∧ (c.en = true → c.fits (s.lcSetting (l / 4) c.pll) = true) ∧ t =
      ((((((((((s.putFlag .XCV_LANE_CFG_EN c.en l).put .XCV_LANE_CFG_PLL c.pll l).put .XCV_LANE_CFG_RATE_DIV c.div
      l).put .XCV_LANE_CFG_MODE c.mode l).put .XCV_LANE_CFG_WIDTH c.width l).putFlag .XCV_LANE_CFG_FEC c.fec
      l).putFlag .XCV_LANE_CFG_POL_TX (setting.getLsbD 12) l).putFlag .XCV_LANE_CFG_POL_RX (setting.getLsbD 13) l).put
      .XCV_LANE_CFG_LOOP c.loop l).put .XCV_LANE_CFG_TRACK (setting.toNat / 65536) l) ∧ u = (t.dropLane l 0).stopRclk
      l) ∧
  (∃ (l : Fin 32) (s : State),
    s.laneClocked l = true ∧ s.flag .XCV_LANE_STAT_CDR_LOCK l = false) ∧
  (∃ (l : Fin 32) (t : State) (s : State),
    s.laneClocked l = true ∧ s.flag .XCV_LANE_STAT_CDR_LOCK l = true ∧ t = (s.putFlag .XCV_LANE_STAT_ALIGNED true
      l).putFlag .XCV_LANE_STAT_ACTIVE true l) ∧
  (∃ (l : Fin 32) (s : State),
    s.laneClocked l = true ∧ s.flag .XCV_LANE_STAT_CDR_LOCK l = true) ∧
  (∃ (l : Fin 32) (s : State),
    s.fabricLane l = true ∧ s.flag .XCV_LANE_STAT_CDR_LOCK l = true) ∧
  (∃ (l : Fin 32) (s : State),
    s.fabricLane l = true ∧ s.flag .XCV_LANE_STAT_ALIGNED l = true) ∧
  (∃ (l : Fin 32) (s : State),
    s.laneSends l = true ∧ s.flag .XCV_LANE_STAT_TX_IDLE l = false ∧ (s.lane l).tx = []) ∧
  (∃ (l : Fin 32) (s : State),
    s.fabricLane l = true ∧ s.flag .XCV_LANE_STAT_ACTIVE l = true ∧ 16 ≤ (s.lane l).rx.length) ∧
  (∃ (q : Fin 8) (i : Fin 2) (l : Nat) (s : State),
    l = 4 * q.val + s.get (if i = 0 then .XCV_RCLK_SEL0 else .XCV_RCLK_SEL1) q ∧ s.flag (if i = 0 then .XCV_RCLK_EN0
      else .XCV_RCLK_EN1) q = true ∧ s.fabricLane l = true ∧ s.flag .XCV_LANE_STAT_CDR_LOCK l = true) ∧
  (∃ (who : Requester) (l : Fin 32) (phase : BitVec 6) (voff : BitVec 7) (bits : BitVec 6) (t : State) (s : State),
    RegisterOpen s who .XCV_EYE_CTL ∧ s.writesLane l who.owner = true ∧ s.flag .XCV_EYE_RES_BUSY l = false ∧ (16 ≤
      bits.toNat ∧ bits.toNat ≤ 40) ∧ t = ((s.put .XCV_EYE_CTL_PHASE phase.toNat l).put .XCV_EYE_CTL_VOFF voff.toNat
      l).put .XCV_EYE_CTL_LOG2_BITS bits.toNat l) ∧
  (∃ (l : Fin 32) (s : State),
    s.flag .XCV_EYE_RES_BUSY l = true) :=
  ⟨⟨.spi, 0, 1, 0, 1, 160, 0, _, _, _, _, laneState, ⟨by decide, (fun h => nomatch h), by decide⟩, rfl,
    by decide +kernel, by decide +kernel, rfl, rfl, by decide +kernel, by decide +kernel, by decide +kernel, rfl⟩,
   ⟨0, 0, laneState, by decide +kernel⟩,
   ⟨0, 0, laneState.putFlag .XCV_LCPLL_EN true, by decide +kernel⟩,
   ⟨.spi, 0, 0, _, _, _, laneState, ⟨by decide, (fun h => nomatch h), by decide⟩, by decide +kernel,
     by decide +kernel, rfl, by decide +kernel, by decide +kernel, rfl, rfl⟩,
   ⟨0, laneState, by decide +kernel⟩,
   ⟨0, _, lockedLane, by decide +kernel, by decide +kernel, rfl⟩,
   ⟨0, lockedLane, by decide +kernel⟩,
   ⟨0, lockedLane, by decide +kernel⟩,
   ⟨0, lockedLane.putFlag .XCV_LANE_STAT_ALIGNED true, by decide +kernel⟩,
   ⟨0, laneState.putFlag .XCV_LANE_STAT_TX_IDLE false, by decide +kernel⟩,
   ⟨0, (lockedLane.putFlag .XCV_LANE_STAT_ACTIVE true).putLane 0
     { rx := List.replicate 16 { data := 0, flags := 0 } }, by decide +kernel⟩,
   ⟨0, 0, _, lockedLane.putFlag .XCV_RCLK_EN0 true, rfl, by decide +kernel⟩,
   ⟨.spi, 0, 0, 0, 16, _, laneState, ⟨by decide, (fun h => nomatch h), by decide⟩, by decide +kernel,
     by decide +kernel, by decide +kernel, rfl⟩,
   ⟨0, laneState.putFlag .XCV_EYE_RES_BUSY true, by decide +kernel⟩⟩

theorem test_meets_CalibrationWindowsEnd :
  (∃ (s : State),
    s.loopRuns 1 = true) ∧
  (∃ (refs l : List (Fin 4 × Int × Nat)) (umber : BitVec 21) (t : State) (s : State),
    s.loopRuns 1 = true ∧ (l = refs.filter fun r => s.flag .MBX_EP_STAT_LINK_UP r.1.val) ∧ t = (((s.put
      .CAL_REF_ELIGIBLE (maskOf l RefSeen.eligible)).put .CAL_REF_SPREAD (maskOf l RefSeen.spread)).put
      .TMB_UMBER_PER_PERIOD_PS umber.toNat).discipline l) ∧
  (∃ (s : State),
    s.flag .CAL_REF_HOLDING = true ∧ s.mode ≠ .off) ∧
  (∃ (mtps : BitVec 16) (t u : State) (s : State),
    s.loopRuns 2 = true ∧ t = s.put .SPN_RATE_CUR_MTPS mtps.toNat ∧ (u = (if s.get .SPN_RATE_MAX_MAX_MTPS = 0 ∨
      mtps.toNat < t.get .SPN_RATE_MIN_MTPS then t.put .SPN_RATE_MIN_MTPS mtps.toNat else t))) ∧
  (∃ (percent : Fin 101) (t : State) (s : State),
    s.loopRuns 2 = true ∧ t = (({ s with calib := { s.calib with nextLink := (s.calib.nextLink + 1) % 96 } }.put
      .CAL_SPN_LAST_LINK s.calib.nextLink).put .CAL_SPN_LAST_PCT percent).stamp .CAL_SPN_TIME_TIME) ∧
  (∃ (image : Bool) (ones zeros : Nat) (f : Fld) (steps : Int) (s : State),
    s.loopRuns 3 = true ∧ f = (if image then .CAL_SLT_REF_IMG else .CAL_SLT_REF_STD) ∧ steps = (if ones + zeros < 64
      then 0 else if 3 * (ones + zeros) < 4 * ones then 1 else if 3 * (ones + zeros) < 4 * zeros then -1 else 0)) ∧
  (∃ (s : State),
    s.loopRuns 4 = true) ∧
  (∃ (vin int ext gain : BitVec 8) (t : State) (moved : Fld → BitVec 8 → Bool) (s : State),
    s.loopRuns 4 = true ∧ (∀ f v, moved f v = decide (5 < (v.toInt - (BitVec.ofNat 8 (s.get f)).toInt).natAbs)) ∧ t =
      ((((s.put .CAL_NRG_VIN_MV vin.toNat).put .CAL_NRG_INT_MV int.toNat).put .CAL_NRG_EXT_MV ext.toNat).put
      .CAL_NRG_I_GAIN gain.toNat).stamp .CAL_NRG_TIME_TIME) ∧
  (∃ (zones l : List (Fin 19 × BitVec 8)) (t : State) (s : State),
    s.loopRuns 5 = true ∧ (l = zones.filter fun z => s.zoneReads z.1.val) ∧ t = (l.foldl (fun u z => u.correctZone z.1
      z.2) s).stamp .CAL_TEMP_TIME_TIME) ∧
  (∃ (s : State),
    s.loopRuns 5 = true) ∧
  (∃ (s : State),
    s.loopRuns 5 = true) ∧
  (∃ (who : Requester) (loop : BitVec 3) (s : State),
    RegisterOpen s who .CAL_INJECT ∧ s.maintains who.owner = true ∧ (1 ≤ loop.toNat ∧ loop.toNat ≤ 5)) :=
  ⟨⟨watchState, by decide +kernel⟩,
   ⟨[], _, 0, _, watchState, by decide +kernel, rfl, rfl⟩,
   ⟨runState.putFlag .CAL_REF_HOLDING true, by decide +kernel⟩,
   ⟨0, _, _, watchState, by decide +kernel, rfl, rfl⟩,
   ⟨0, _, watchState, by decide +kernel, rfl⟩,
   ⟨false, 0, 0, _, _, watchState, by decide +kernel, rfl, rfl⟩,
   ⟨watchState, by decide +kernel⟩,
   ⟨0, 0, 0, 0, _, (fun f v => decide (5 < (v.toInt - (BitVec.ofNat 8 (watchState.get f)).toInt).natAbs)), watchState,
     by decide +kernel, fun _ _ => rfl, rfl⟩,
   ⟨[], _, _, watchState, by decide +kernel, rfl, rfl⟩,
   ⟨watchState, by decide +kernel⟩,
   ⟨watchState, by decide +kernel⟩,
   ⟨.mgc, 1, runState, ⟨by decide, (fun h => nomatch h), by decide⟩, by decide +kernel⟩⟩

theorem test_meets_SafetyCommandsAct :
  (∃ (s : State),
    s.coreOn = true ∧ s.power.mgcHalted = false) ∧
  (∃ (who : Requester) (s : State),
    RegisterOpen s who .SAF_REQ ∧ s.mayRequestSafe who.owner = true) ∧
  (∃ (m : Fin 5) (p : Packet) (s : State),
    CommandRuns s m 0x60 p ∧ p.p 0 < 65536) ∧
  (∃ (who : Requester) (mask : BitVec 16) (s : State),
    s.mode = .run ∧ WriteIssues s who ∧ s.isAdmin who.owner = true ∧ s.flag .SAF_STAT_CFG_SET = false ∧ (∀ k ∈
      regionsOf mask.toNat, s.loaded k = true)) ∧
  (∃ (who : Requester) (mask : BitVec 16) (s : State),
    s.mode = .run ∧ WriteIssues s who ∧ s.isAdmin who.owner = true ∧ s.flag .SAF_STAT_PLL_SET = false ∧ (∀ k ∈
      regionsOf mask.toNat, s.pllQualified k = true)) ∧
  (∃ (who : Requester) (mask : BitVec 16) (s : State),
    s.mode = .run ∧ WriteIssues s who ∧ s.isAdmin who.owner = true ∧ s.flag .SAF_STAT_IO_SET = false ∧ (∀ k ∈
      regionsOf mask.toNat, s.loaded k = true)) ∧
  (∃ (who : Requester) (s : State),
    s.mode = .run ∧ WriteIssues s who ∧ s.isAdmin who.owner = true ∧ s.flag .SAF_STAT_CFG_SET = true) ∧
  (∃ (who : Requester) (s : State),
    s.mode = .run ∧ WriteIssues s who ∧ s.isAdmin who.owner = true ∧ s.flag .SAF_STAT_PLL_SET = true) ∧
  (∃ (who : Requester) (s : State),
    s.mode = .run ∧ WriteIssues s who ∧ s.isAdmin who.owner = true ∧ s.flag .SAF_STAT_IO_SET = true) ∧
  (∃ (who : Requester) (diag : BitVec 4) (index : BitVec 9) (s : State),
    RegisterOpen s who .SAF_INJECT ∧ s.maintains who.owner = true ∧ s.injectable diag.toNat index.toNat = true) :=
  ⟨⟨runState, by decide +kernel⟩,
   ⟨.mgc, runState, ⟨by decide, (fun h => nomatch h), by decide⟩, by decide +kernel⟩,
   ⟨0, (packet 0x60 [] 0x14), ((runState).setRunning 0 (some (packet 0x60 [] 0x14))),
     (by constructor <;> decide +kernel), by decide +kernel⟩,
   ⟨.spi, 0, watchState, by decide +kernel, (fun h => nomatch h), by decide +kernel⟩,
   ⟨.spi, 0, watchState, by decide +kernel, (fun h => nomatch h), by decide +kernel⟩,
   ⟨.spi, 0, watchState, by decide +kernel, (fun h => nomatch h), by decide +kernel⟩,
   ⟨.spi, watchState.putFlag .SAF_STAT_CFG_SET true, by decide +kernel, (fun h => nomatch h), by decide +kernel⟩,
   ⟨.spi, watchState.putFlag .SAF_STAT_PLL_SET true, by decide +kernel, (fun h => nomatch h), by decide +kernel⟩,
   ⟨.spi, watchState.putFlag .SAF_STAT_IO_SET true, by decide +kernel, (fun h => nomatch h), by decide +kernel⟩,
   ⟨.mgc, 4, 0, runState, ⟨by decide, (fun h => nomatch h), by decide⟩, by decide +kernel⟩⟩

theorem test_meets_ConfigurationScrubbing :
  (∃ (k : Fin 16) (s : State),
    s.lanesRun = true ∧ (s.scrubLane k).running = true ∧ s.scrubbed k = true ∧ (s.scrubLane k).repairs.length ≤ 4 ∧
      s.nextStatic k = none) ∧
  (∃ (k : Fin 16) (struck : List (Fin 10240)) (o : Nat) (t : State) (s : State),
    s.lanesRun = true ∧ (s.scrubLane k).running = true ∧ s.scrubbed k = true ∧ (s.scrubLane k).repairs.length ≤ 4 ∧
      s.nextStatic k = some o ∧ t = s.upset (4000 * k.val + o) struck ∧ (t.flag .CFG_SCRUB_INJECT_ARM && t.get
      .CFG_SCRUB_INJECT_FRAME == 4000 * k.val + o) = false ∧ some (crc32 (frameBytes (t.cells (4000 * k.val + o)))) =
      (t.liveEntry (4000 * k.val + o)).map (·.1)) ∧
  (∃ (k : Fin 16) (struck : List (Fin 10240)) (o : Nat) (t : State) (s : State),
    s.lanesRun = true ∧ (s.scrubLane k).running = true ∧ s.scrubbed k = true ∧ (s.scrubLane k).repairs.length ≤ 4 ∧
      s.nextStatic k = some o ∧ t = s.upset (4000 * k.val + o) struck ∧ ((t.flag .CFG_SCRUB_INJECT_ARM = true ∧ t.get
      .CFG_SCRUB_INJECT_FRAME = 4000 * k.val + o) ∨ some (crc32 (frameBytes (t.cells (4000 * k.val + o)))) ≠
      (t.liveEntry (4000 * k.val + o)).map (·.1))) ∧
  (∃ (k : Fin 16) (s : State),
    4 < (s.scrubLane k).repairs.length) ∧
  (∃ (k : Fin 16) (r : Repair) (rest : List Repair) (s : State),
    (s.scrubLane k).repairs = r :: rest ∧ s.lanesRun = true ∧ s.scrubbed k = true ∧ (∀ b ∈ s.repairBanks k,
      s.programmingBank b = false)) ∧
  (∃ (who : Requester) (f : BitVec 16) (s : State),
    RegisterOpen s who .CFG_SCRUB_INJECT ∧ s.maintains who.owner = true ∧ f.toNat < 64000 ∧ (s.liveEntry f.toNat).map
      (·.2) ≠ some true ∧ s.scrubbed (f.toNat / 4000) = true) ∧
  (∃ (m : Fin 5) (p : Packet) (s : State),
    CommandRuns s m 0x18 p ∧ (0 < p.p 0 ∧ p.p 0 < 65536) ∧ (s.isAdmin (mailOwner m) = true ∨ ∀ k ∈ regionsOf (p.p 0),
      s.parent k = p.acts ∧ p.acts ≠ 0)) :=
  ⟨⟨0, { watchState with loader := { lane := [(0, { running := true, next := 4000 })] } }, by decide +kernel⟩,
   ⟨0, [], 3999, _,
     { watchState with loader := { lane := [(0, { running := true, next := 3999 })], live := [(3999, some (crc32 (frameBytes 0), false))] } },
     by decide +kernel, by decide +kernel, by decide +kernel, by decide +kernel, by decide +kernel, rfl,
     by decide +kernel⟩,
   ⟨0, [], 3999, _, watchState, by decide +kernel, by decide +kernel, by decide +kernel, by decide +kernel,
     by decide +kernel, rfl, by decide +kernel⟩,
   ⟨0,
     { watchState with loader := { lane := [(0, { running := true, repairs := List.replicate 5 { frame := 0, injected := false } })] } },
     by decide +kernel⟩,
   ⟨0, _, _,
     { watchState with loader := { lane := [(0, { running := true, repairs := [{ frame := 0, injected := false }] })], source := [(0, some (testHeader, 0))] } },
     rfl, by decide +kernel⟩,
   ⟨.mgc, 0, watchState, ⟨by decide, (fun h => nomatch h), by decide⟩, by decide +kernel⟩,
   ⟨0, (packet 0x18 [1] 0x14), ((watchState).setRunning 0 (some (packet 0x18 [1] 0x14))),
     (by constructor <;> decide +kernel), by decide +kernel⟩⟩

theorem test_meets_LoadsRunFromChecksToRun :
  (∃ (i : Nat) (j : LoadJob) (s : State),
    s.loads = true ∧ s.loader.jobs.findIdx? (·.header.isNone) = some i ∧ s.loader.jobs[i]? = some j ∧
      s.programmingEntry (s.jobEntry j) = false) ∧
  (∃ (s : State),
    s.loads = true ∧ s.loader.jobs.findIdx? (·.header.isNone) = none ∧ s.streamReady = true ∧ (s.mode = .run ∨
      s.failedBoot = true)) ∧
  (∃ (i : Nat) (j : LoadJob) (h : Header) (s : State),
    s.loads = true ∧ s.loader.jobs[i]? = some j ∧ j.header = some h ∧ j.next < h.chunkCount ∧ (∀ b ∈ s.jobBanks j,
      s.programmingBank b = false)) ∧
  (∃ (k : Fin 16) (misses : Fin 4) (f : FrameWord) (rest : List FrameWord) (s : State),
    (s.writer k).waiting = f :: rest ∧ s.loads = true ∧ s.regionState k = 2 ∧ (misses.val < 3 ∨ (s.writer k).next =
      none)) ∧
  (∃ (k : Fin 16) (f g : FrameWord) (rest : List FrameWord) (s : State),
    (s.writer k).waiting = f :: rest ∧ s.loads = true ∧ s.regionState k = 2 ∧ (s.writer k).next = some g) ∧
  (∃ (k : Fin 16) (i : Nat) (j : LoadJob) (h : Header) (s : State),
    s.loads = true ∧ s.allWritten k = true ∧ (s.loader.jobs.findIdx? fun j => j.header.isSome && j.regions.contains
      k.val) = some i ∧ s.loader.jobs[i]? = some j ∧ j.header = some h) ∧
  (∃ (k : Fin 16) (s : State),
    s.loads = true ∧ s.regionState k = 4) ∧
  (∃ (e : Nat) (t u : State) (s : State),
    s.mode = .boot ∧ s.loader.fallback = true ∧ (List.range 16).any s.loading = false ∧ e = s.goldEntry ∧ t = (s.put
      .CFG_BOOT_STAT_ENTRY (if e = 0xFE then 0xFF else e)).putFlag .CFG_BOOT_STAT_STYLE false ∧ u = (t.startPlls
      ((((t.systemItem 3).getD []).drop 512).take 512)).forEach (List.range 16) (fun v k => v.setRegion k 1)) ∧
  (∃ (s : State),
    s.loadsDone = true ∧ s.flag .NRG_STAT_CHARGED = true) ∧
  (∃ (m : Fin 5) (bad : List (Nat × List Nat)) (p : Packet) (d : DirEntry) (t : State) (c : ImageCheck) (s : State),
    CommandRuns s m 0x11 p ∧ p.p 0 < 64 ∧ (0 < p.p 1 ∧ p.p 1 < 65536) ∧ s.reloadStatus p.acts (regionsOf (p.p 1)) =
      St.ok ∧ d = s.directory.at (p.p 0) ∧ d.state = 2 ∧ (∀ k ∈ regionsOf (p.p 1), d.mask.testBit k = true) ∧
      s.programmingEntry d = false ∧ s.checkStored (segmentBlock d.slot d.segment) bad d.agrees = (t, c)) ∧
  (∃ (o : Nat) (j : LoadJob) (rest : List (Nat × LoadJob)) (t u : State) (s : State),
    s.loader.reloads = (o, j) :: rest ∧ s.mode = .run ∧ t = s.setLoader { s.loader with reloads := rest } ∧
      t.power.orderly = none ∧ t.reloadStatus o j.regions = St.ok ∧ u = (t.setLoader
      { t.loader with jobs := t.loader.jobs ++ [j] }).beginRegions j) ∧
  (∃ (o : Nat) (j : LoadJob) (rest : List (Nat × LoadJob)) (t : State) (s : State),
    s.loader.reloads = (o, j) :: rest ∧ s.mode = .run ∧ t = s.setLoader { s.loader with reloads := rest } ∧
      t.power.orderly = none ∧ t.reloadStatus o j.regions ≠ St.ok) :=
  ⟨⟨_, _, loadState none [], by decide +kernel, rfl, rfl, by decide +kernel⟩,
   ⟨{ runState with loader := { stream := List.replicate 1000 0 } }, by decide +kernel⟩,
   ⟨0, _, _, loadState (some testHeader) [], by decide +kernel, rfl, rfl, by decide +kernel⟩,
   ⟨0, 0, _, _, loadState (some testHeader) [testFrame 0], rfl, by decide +kernel⟩,
   ⟨0, _, _, _, loadState (some testHeader) [testFrame 0], rfl, by decide +kernel, by decide +kernel, rfl⟩,
   ⟨0, _, _, _, (loadState (some testHeader) []).put .CFG_REGION_FRAMES_FRAMES 4000, by decide +kernel,
     by decide +kernel, rfl, rfl, rfl⟩,
   ⟨0, regionState.put .CFG_REGION_STAT_STATE 4, by decide +kernel⟩,
   ⟨_, _, _, { runState with mode := .boot, loader := { fallback := true } }, by decide +kernel, by decide +kernel,
     by decide +kernel, rfl, rfl, rfl⟩,
   ⟨{ (runState.put .CFG_BOOT_STAT_STATE 2).putFlag .NRG_STAT_CHARGED true with mode := .boot }, by decide +kernel⟩,
   ⟨0, [], (packet 0x11 [1, 1] 0x10), _, _, _, (((dirState
     { state := 2, mask := 1, segments := 1, segment := 1, imageType := 2 }).put .ATT_REGION_PARENT_PARENT
     0x10).setRunning 0 (some (packet 0x11 [1, 1] 0x10))), (by constructor <;> decide +kernel), by decide +kernel,
     by decide +kernel, by decide +kernel, rfl, by decide +kernel, by decide +kernel, by decide +kernel, (Prod.eta
     _).symm⟩,
   ⟨_, _, _, _, _, { regionState with loader := { reloads := [(0x14, testJob (some testHeader))] } }, rfl,
     by decide +kernel, rfl, by decide +kernel, by decide +kernel, rfl⟩,
   ⟨_, _, _, _, { regionState with loader := { reloads := [(0x10, testJob (some testHeader))] } }, rfl,
     by decide +kernel, rfl, by decide +kernel⟩⟩

theorem test_meets_ImageCommandsReply :
  (∃ (m : Fin 5) (p : Packet) (first count : Nat) (d : Directory) (s : State),
    CommandRuns s m 0x10 p ∧ p.p 0 = first + 256 * count ∧ (1 ≤ count ∧ count ≤ 16) ∧ first + count ≤ 64 ∧ d =
      s.directory) ∧
  (∃ (m : Fin 5) (p : Packet) (slot seg n e : Nat) (d : Directory) (x : DirEntry) (s : State),
    CommandRuns s m 0x12 p ∧ p.p 0 = slot + 256 * seg + 65536 * n ∧ (1 ≤ slot ∧ slot ≤ 3) ∧ (1 ≤ n ∧ seg + n ≤ 16 ∧
      seg < 16) ∧ p.p 1 ≤ n * 6291456 ∧ d = s.directory ∧ x =
      { state := 1, slot, segment := seg, segments := n, imageLen := p.p 1 } ∧ ((List.range 64).find? fun i => (d.at
      i).state == 0) = some e ∧ (∀ i < 64, (d.at i).state ≠ 0 → entriesOverlap (d.at i) x = false)) ∧
  (∃ (m : Fin 5) (p : Packet) (x : DirEntry) (base : Nat) (s : State),
    CommandRuns s m 0x13 p ∧ p.p 0 < 64 ∧ x = s.directory.at (p.p 0) ∧ x.state = 1 ∧ p.p 1 = SMap.look 0
      s.loader.pointer (p.p 0) ∧ sourceShape (p.p64 2) (p.p 4) = true ∧ p.p 1 + p.p 4 ≤ x.segments * 6291456 ∧ base =
      segmentBlock x.slot x.segment ∧ s.streaming (s.flashBank (base + p.p 1 / 262144)) = false ∧ (∀ i < 5, i ≠ m.val
      → ∀ q, s.running i = some q → q.wait = .unit → q.opcode = 0x13 → q.p 0 ≠ p.p 0)) ∧
  (∃ (m : Fin 5) (bad : List (Nat × List Nat)) (p : Packet) (x : DirEntry) (t : State) (c : ImageCheck) (s : State),
    CommandRuns s m 0x14 p ∧ p.p 0 < 64 ∧ x = s.directory.at (p.p 0) ∧ x.state = 1 ∧ x.imageLen ≤ SMap.look 0
      s.loader.pointer (p.p 0) ∧ s.loader.dirNext = none ∧ s.programmingEntry x = false ∧ (s.checkWhole (segmentBlock
      x.slot x.segment) bad fun h => decide (h.imageLen ≤ SMap.look 0 s.loader.pointer (p.p 0)) && decide (h.imageLen
      ≤ x.segments * 6291456)) = (t, c)) ∧
  (∃ (m : Fin 5) (p : Packet) (e : Fin 64) (s : State),
    CommandRuns s m 0x15 p ∧ p.p 0 = e.val ∧ s.directory.goldEntry ≠ e.val ∧ s.directory.bootEntry ≠ e.val ∧
      s.directory.regionEntry.contains e.val = false ∧ s.entryInUse e = false ∧ (s.directory.at e).state ≠ 0) ∧
  (∃ (m : Fin 5) (p : Packet) (e : Fin 64) (s : State),
    CommandRuns s m 0x15 p ∧ p.p 0 = e.val + 768 ∧ s.directory.goldEntry ≠ e.val ∧ s.directory.bootEntry ≠ e.val ∧
      s.directory.regionEntry.contains e.val = false ∧ s.entryInUse e = false ∧ (s.directory.at e).state = 2) ∧
  (∃ (m : Fin 5) (p : Packet) (s : State),
    CommandRuns s m 0x16 p ∧ p.p 0 < 512) ∧
  (∃ (m : Fin 5) (p : Packet) (s : State),
    CommandRuns s m 0x17 p ∧ p.p 0 < 4096 ∧ ((p.acts = s.parent (bitsOf (p.p 0) 8 4) ∧ p.acts ≠ 0) ∨ s.isAdmin
      (mailOwner m) = true)) ∧
  (∃ (m : Fin 5) (p : Packet) (t : State) (s : State),
    CommandRuns s m 0xA4 p ∧ sourceShape (p.p64 1) (p.p 3) = true ∧ p.p 0 + p.p 3 ≤ 100663296 ∧ (p.p 0 = 0 ∨
      s.goldPointer = some (p.p 0)) ∧ s.goldBusy = false ∧ s.streaming (s.flashBank (p.p 0 / 262144)) = false ∧ (∀ i <
      5, i ≠ m.val → ∀ q, s.running i = some q → q.wait = .unit → q.opcode ≠ 0xA4) ∧ t = s.startWrite m p 0 (p.p 0 /
      4096) (p.p64 1) (p.p 3) (s.locked (.slot 0))) ∧
  (∃ (m : Fin 5) (bad : List (Nat × List Nat)) (p : Packet) (t : State) (c : ImageCheck) (d : Directory) (s : State),
    CommandRuns s m 0xA5 p ∧ s.goldBusy = false ∧ s.loader.dirNext = none ∧ s.programmingEntry
      { slot := 0, segment := 0, segments := 16 } = false ∧ (s.checkWhole 0 bad fun h => h.imageType == 1 && decide
      (h.imageLen ≤ s.goldPointer.getD 0) && decide (h.imageLen ≤ 100663296)) = (t, c) ∧ t.loader.dir = some d) ∧
  (∃ (m : Fin 5) (bad : List (Nat × List Nat)) (p : Packet) (t : State) (c : ImageCheck) (s : State),
    CommandRuns s m 0xA5 p ∧ s.goldBusy = false ∧ s.loader.dirNext = none ∧ s.programmingEntry
      { slot := 0, segment := 0, segments := 16 } = false ∧ (s.checkWhole 0 bad fun h => h.imageType == 1 && decide
      (h.imageLen ≤ s.goldPointer.getD 0) && decide (h.imageLen ≤ 100663296)) = (t, c) ∧ t.loader.dir = none) :=
  ⟨⟨0, (packet 0x10 [256] 0x14), 0, 1, _, ((storeState).setRunning 0 (some (packet 0x10 [256] 0x14))),
    (by constructor <;> decide +kernel), by decide +kernel, by decide +kernel, by decide +kernel, rfl⟩,
   ⟨0, (packet 0x12 [0x10001] 0x14), 1, 0, 1, 0, _, _, ((storeState).setRunning 0 (some (packet 0x12 [0x10001]
     0x14))), (by constructor <;> decide +kernel), by decide +kernel, by decide +kernel, by decide +kernel,
     by decide +kernel, rfl, rfl, by decide +kernel⟩,
   ⟨0, (packet 0x13 [1, 0, 0, 0, 4096] 0x10), _, _, (dirState { state := 1, slot := 1, segments := 1 }).setRunning 0
     (some (packet 0x13 [1, 0, 0, 0, 4096] 0x10)), (by constructor <;> decide +kernel), by decide +kernel, rfl,
     by decide +kernel, by decide +kernel, by decide +kernel, by decide +kernel, rfl, by decide +kernel⟩,
   ⟨0, [], (packet 0x14 [1] 0x10), _, _, _, ((dirState { state := 1, slot := 1, segments := 1 }).setRunning 0 (some
     (packet 0x14 [1] 0x10))), (by constructor <;> decide +kernel), by decide +kernel, rfl, by decide +kernel,
     by decide +kernel, by decide +kernel, by decide +kernel, (Prod.eta _).symm⟩,
   ⟨0, (packet 0x15 [1] 0x10), 1, ((dirState { state := 2, slot := 1, segments := 1 }).setRunning 0 (some (packet 0x15
     [1] 0x10))), (by constructor <;> decide +kernel), by decide +kernel⟩,
   ⟨0, (packet 0x15 [769] 0x10), 1, ((dirState { state := 2, slot := 1, segments := 1 }).setRunning 0 (some (packet
     0x15 [769] 0x10))), (by constructor <;> decide +kernel), by decide +kernel⟩,
   ⟨0, (packet 0x16 [] 0x14), ((runState).setRunning 0 (some (packet 0x16 [] 0x14))),
     (by constructor <;> decide +kernel), by decide +kernel⟩,
   ⟨0, (packet 0x17 [0xFF] 0x10), ((dirState { state := 2, slot := 1, segments := 1 }).setRunning 0 (some (packet 0x17
     [0xFF] 0x10))), (by constructor <;> decide +kernel), by decide +kernel⟩,
   ⟨0, (packet 0xA4 [0, 0, 0, 4096] 0x10), _, ((dirState {}).setRunning 0 (some (packet 0xA4 [0, 0, 0, 4096] 0x10))),
     (by constructor <;> decide +kernel), by decide +kernel, by decide +kernel, by decide +kernel, by decide +kernel,
     by decide +kernel, by decide +kernel, rfl⟩,
   ⟨0, [], (packet 0xA5 [] 0x10), _, _, _, ((dirState {}).setRunning 0 (some (packet 0xA5 [] 0x10))),
     (by constructor <;> decide +kernel), by decide +kernel, by decide +kernel, by decide +kernel, (Prod.eta _).symm,
     rfl⟩,
   ⟨0, [], (packet 0xA5 [] 0x10), _, _, ((storeState).setRunning 0 (some (packet 0xA5 [] 0x10))),
     (by constructor <;> decide +kernel), by decide +kernel, by decide +kernel, by decide +kernel, (Prod.eta _).symm,
     by decide +kernel⟩⟩

theorem test_meets_SelfTestsStartAndEnd :
  (∃ (m : Fin 5) (p : Packet) (n : Fin 128) (page count : Nat) (s : State),
    CommandRuns s m 0x50 p ∧ p.p 0 = n.val + 128 * page + 16384 * (count - 1) ∧ (1 ≤ count ∧ page + count ≤ 128) ∧
      ((p.acts = s.top (s.bankOwner n) ∧ p.acts ≠ 0) ∨ s.isAdmin p.acts = true) ∧ s.isParking n = false ∧ (s.parkFor
      n).isSome = true ∧ s.groupOn (groupOfBank n) = true ∧ s.admits 11 = true) ∧
  (∃ (s : State),
    s.mode = .run) ∧
  (∃ (m : Fin 5) (p : Packet) (n : Nat) (s : State),
    CommandRuns s m 0x51 p ∧ (n = 1 ∨ n = 2) ∧ (p.p 0 = n ∨ p.p 0 = n + 256) ∧ p.p 1 = 0 ∧ p.p64 2 = 0) ∧
  (∃ (m : Fin 5) (p : Packet) (t : State) (steps : List Word) (s : State),
    CommandRuns s m 0x51 p ∧ s.lc ≠ lcDeployed ∧ (p.p 0 = 0x80 ∨ p.p 0 = 0x180) ∧ (1 ≤ p.p 1 ∧ p.p 1 ≤ 256) ∧ p.p64 2
      % 4 = 0 ∧ s.bankUse (mailOwner m) (p.p64 2 / 8 * 8) (p.p64 2 % 8 + 4 * p.p 1) = St.ok ∧ s.readList (p.p64 2)
      (p.p 1) = (t, some steps) ∧ steps.all stepValid = true) ∧
  (∃ (counts : List (Option Nat)) (fails : List (Fin 6 × BitVec 24)) (n : Nat) (r : TestRecord) (t u v w : State) (s :
    State),
    s.test.program = some n ∧ r = s.testRecord n s.test.steps (s.testCounts counts) (fails.map fun f => (f.1.val,
      f.2.toNat)) ∧ t = ((s.testBlockSteps s.test.steps (s.testCounts counts)).releaseOp 12 0).releaseOp 13 0 ∧ u =
      ({ t with test := { program := none, steps := [], cut := false, record := some r } }.showTests).logTest r ∧ v =
      (if t.power.orderly.isNone && n == 2 then u.showRecord 1 r else u) ∧ w = (if r.outcome = outcomeFail then
      v.putFlag .BST_STAT_FAIL true else v)) :=
  ⟨⟨0, (packet 0x50 [] 0x14), 0, 0, 1, ((((((powered runState).put .BNK_PARK_BANK_A 2).put .BNK_PARK_BANK_B
    10).putFlag .BNK_PARK_VALID_A true).putFlag .BNK_PARK_VALID_B true |> (State.put · .ATT_ADMIN_ADMIN
    0x14)).setRunning 0 (some (packet 0x50 [] 0x14))), (by constructor <;> decide +kernel), by decide +kernel⟩,
   ⟨runState, by decide +kernel⟩,
   ⟨0, (packet 0x51 [1] 0x14), 1, ((runState).setRunning 0 (some (packet 0x51 [1] 0x14))),
     (by constructor <;> decide +kernel), by decide +kernel⟩,
   ⟨0, (packet 0x51 [0x80, 1] 0x10), _, [0], ((hostStore).setRunning 0 (some (packet 0x51 [0x80, 1] 0x10))),
     (by constructor <;> decide +kernel), by decide +kernel, by decide +kernel, by decide +kernel, by decide +kernel,
     by decide +kernel, pair_of_snd (by decide +kernel), by decide +kernel⟩,
   ⟨[], [], _, _, _, _, _, _, { runState with test := { program := some 1 } }, rfl, rfl, rfl, rfl, rfl, rfl⟩⟩

theorem test_meets_SecurityCommandsAct :
  (∃ (m : Fin 5) (p : Packet) (b : List Byte) (st : Nat) (s : State),
    CommandRuns s m 0xA0 p ∧ s.power.orderly = none ∧ b = wordBytes p.params ∧ st = s.checkToken 1 b) ∧
  (∃ (m : Fin 5) (p : Packet) (s : State),
    CommandRuns s m 0xA1 p ∧ s.lc = lcBlank ∧ p.p 0 < 4 ∧ s.slotSpent (p.p 0) = false) ∧
  (∃ (m : Fin 5) (good : Bool) (p : Packet) (b : List Byte) (st : Nat) (t : State) (s : State),
    CommandRuns s m 0xA1 p ∧ s.lc ≠ lcBlank ∧ b = wordBytes p.params ∧ st = s.checkToken 2 b ∧ t = (s.noteToken b
      st).programSlot (field b 0x12 1) ((b.drop 0x20).take 48) good) ∧
  (∃ (m : Fin 5) (p : Packet) (b : List Byte) (st : Nat) (s : State),
    CommandRuns s m 0xA2 p ∧ b = wordBytes p.params ∧ st = s.checkToken 3 b) ∧
  (∃ (m : Fin 5) (p : Packet) (s : State),
    CommandRuns s m 0xA3 p ∧ s.fuses.keyTouched = false ∧ s.fuse 16 = false) :=
  ⟨⟨0, (packet 0xA0 [] 0x14), _, _, ((runState).setRunning 0 (some (packet 0xA0 [] 0x14))),
    (by constructor <;> decide +kernel), by decide +kernel, rfl, rfl⟩,
   ⟨0, (packet 0xA1 [] 0x14), ((inLifeCycle lcBlank runState).setRunning 0 (some (packet 0xA1 [] 0x14))),
     (by constructor <;> decide +kernel), by decide +kernel⟩,
   ⟨0, false, (packet 0xA1 [] 0x14), _, _, _, ((runState).setRunning 0 (some (packet 0xA1 [] 0x14))),
     (by constructor <;> decide +kernel), by decide +kernel, rfl, rfl, rfl⟩,
   ⟨0, (packet 0xA2 [] 0x14), _, _, ((runState).setRunning 0 (some (packet 0xA2 [] 0x14))),
     (by constructor <;> decide +kernel), rfl, rfl⟩,
   ⟨0, (packet 0xA3 [] 0x14), ((runState).setRunning 0 (some (packet 0xA3 [] 0x14))),
     (by constructor <;> decide +kernel), by decide +kernel⟩⟩

theorem test_meets_JtagInstructionsAct :
  (∃ (s : State),
    s.mode ≠ .off) ∧
  (∃ (t : State) (s : State),
    s.mode ≠ .off ∧ s.failedBoot = true ∧ t = s.releaseJtag.setIr 0x00) ∧
  (∃ (s : State),
    s.mode ≠ .off ∧ s.failedBoot = false) ∧
  (∃ (s : State),
    s.mode ≠ .off) ∧
  (∃ (t : State) (s : State),
    s.mode ≠ .off ∧ t = s.releaseJtag.setIr 0x02) ∧
  (∃ (s : State),
    s.mode ≠ .off ∧ s.failedBoot = true) ∧
  (∃ (s : State),
    s.mode ≠ .off ∧ s.failedBoot = true) ∧
  (∃ (s : State),
    s.mode ≠ .off ∧ s.failedBoot = true) ∧
  (∃ (s : State),
    s.mode ≠ .off ∧ s.failedBoot = true) ∧
  (∃ (s : State),
    s.mode ≠ .off) ∧
  (∃ (offset : BitVec 24) (write : Bool) (data : BitVec 32) (t u : State) (r : Resp) (v : Nat) (s : State),
    s.mode ≠ .off ∧ (s.lc = lcProvisioned ∨ (s.lc = lcReturned ∧ write = false)) ∧ t = s.releaseJtag.setIr 0x10 ∧
      t.control Requester.jtag.port 0x15 offset.toNat (if offset.toNat % 4 = 0 then .w32 else .bad) (if write then
      .write data.toNat else .read) = (u, r, v)) ∧
  (∃ (offset : BitVec 24) (t u : State) (s : State),
    s.mode ≠ .off ∧ s.lc = lcReturned ∧ t = s.releaseJtag.setIr 0x10 ∧ u = t.captureDecerr 0x15 (0x3_0000_0000 +
      offset.toNat) true true) ∧
  (∃ (s : State),
    s.mode ≠ .off ∧ s.lc ≠ lcProvisioned ∧ s.lc ≠ lcReturned) ∧
  (∃ (t : State) (s : State),
    s.mode = .run ∧ s.lc = lcProvisioned ∧ t = s.releaseJtag.setIr 0x11) :=
  ⟨⟨runState, by decide +kernel⟩,
   ⟨_, failedState, by decide +kernel, by decide +kernel, rfl⟩,
   ⟨runState, by decide +kernel⟩,
   ⟨runState, by decide +kernel⟩,
   ⟨_, runState, by decide +kernel, rfl⟩,
   ⟨failedState, by decide +kernel⟩,
   ⟨failedState, by decide +kernel⟩,
   ⟨failedState, by decide +kernel⟩,
   ⟨failedState, by decide +kernel⟩,
   ⟨runState, by decide +kernel⟩,
   ⟨0, false, 0, _, _, _, _, inLifeCycle lcProvisioned runState, by decide +kernel, by decide +kernel, rfl, rfl⟩,
   ⟨0, _, _, inLifeCycle lcReturned runState, by decide +kernel, by decide +kernel, rfl, rfl⟩,
   ⟨runState, by decide +kernel⟩,
   ⟨_, inLifeCycle lcProvisioned runState, by decide +kernel, by decide +kernel, rfl⟩⟩

theorem test_meets_PinEventsAct :
  (∃ (n : Fin 448) (d : Bool) (s : State),
    s.coreOn = true ∧ s.gioChecked n = true ∧ s.gioDisabled n = false ∧ d = (s.gioLevel n == .high)) ∧
  (∃ (who : Requester) (b : Fin 14) (s : State),
    RegisterOpen s who .GIO_REARM ∧ s.writesPins b who.owner = true) ∧
  (∃ (n : Fin 64) (mA : BitVec 16) (s : State),
    s.coreOn = true ∧ s.fioOn n = true ∧ s.tripLevel n ≤ mA.toNat ∧ mA.toNat ≤ 1500) ∧
  (∃ (g : Fin 4) (mA : BitVec 16) (s : State),
    s.coreOn = true ∧ (∃ i < 16, s.fioOn (16 * g.val + i) = true) ∧ 4400 < mA.toNat) ∧
  (∃ (who : Requester) (g : Fin 4) (s : State),
    RegisterOpen s who .FIO_REARM ∧ s.writesPins (12 + g) who.owner = true) ∧
  (∃ (n : Fin 64) (value : Bool) (t : State) (s : State),
    s.coreOn = true ∧ s.fieldInput n = true ∧ s.bit .FIO_IN_IN (n % 16) (n / 16) ≠ value ∧ t = s.putBit .FIO_IN_IN (n
      % 16) value (n / 16)) ∧
  (∃ (n : Fin 64) (s : State),
    s.coreOn = true ∧ s.fieldInput n = true ∧ (s.fioPin n).settings.testBit 4 = true ∧ s.bit .FIO_DIAG_WIRE_BREAK (n %
      16) (n / 16) = false) ∧
  (∃ (n : Fin 64) (s : State),
    s.coreOn = true ∧ s.fieldInput n = true ∧ (s.fioPin n).settings.testBit 4 = true ∧ s.bit .FIO_DIAG_WIRE_BREAK (n %
      16) (n / 16) = true) ∧
  (∃ (n : Fin 64) (s : State),
    s.coreOn = true ∧ s.loadChecked n = true ∧ s.fioOn n = false) ∧
  (∃ (n : Fin 64) (isOpen : Bool) (s : State),
    s.coreOn = true ∧ s.loadChecked n = true ∧ (s.fioOn n = true ∨ isOpen = false)) ∧
  (∃ (g : Fin 4) (mV : BitVec 16) (t : State) (s : State),
    s.coreOn = true ∧ (10000 ≤ mV.toNat ∧ mV.toNat ≤ 40000) ∧ t = (((s.put .FIO_GRP_STAT_VFIELD_MV mV.toNat g).putFlag
      .FIO_GRP_STAT_VFIELD_OK true g).putFlag .FIO_GRP_STAT_UNDERVOLT false g).putFlag .FIO_GRP_STAT_REVERSED false g)
      ∧
  (∃ (g : Fin 4) (mV : BitVec 16) (t : State) (s : State),
    s.coreOn = true ∧ mV.toNat < 9000 ∧ t = s.put .FIO_GRP_STAT_VFIELD_MV mV.toNat g) ∧
  (∃ (g : Fin 4) (mV : BitVec 16) (t : State) (s : State),
    s.coreOn = true ∧ (500 < mV.toNat ∧ mV.toNat ≤ 32000) ∧ t = s.put .FIO_GRP_STAT_VFIELD_MV 0 g) :=
  ⟨⟨0, _, pinState {}, by decide +kernel, by decide +kernel, by decide +kernel, rfl⟩,
   ⟨.spi, 0, pinState {}, ⟨by decide, (fun h => nomatch h), by decide⟩, by decide +kernel⟩,
   ⟨0, 700, pinState { holdLast := true, held := true }, by decide +kernel⟩,
   ⟨0, 5000, pinState { holdLast := true, held := true }, by decide +kernel, ⟨0, by decide +kernel,
     by decide +kernel⟩, by decide +kernel⟩,
   ⟨.spi, 0, pinState {}, ⟨by decide, (fun h => nomatch h), by decide⟩, by decide +kernel⟩,
   ⟨0, true, _, pinState { settings := 0x110 }, by decide +kernel, by decide +kernel, by decide +kernel, rfl⟩,
   ⟨0, pinState { settings := 0x110 }, by decide +kernel⟩,
   ⟨0, (pinState { settings := 0x110 }).putBit .FIO_DIAG_WIRE_BREAK 0 true, by decide +kernel⟩,
   ⟨0, pinState { settings := 0x10A }, by decide +kernel⟩,
   ⟨0, false, pinState { settings := 0x10A }, by decide +kernel⟩,
   ⟨0, 24000, _, runState, by decide +kernel, by decide +kernel, rfl⟩,
   ⟨0, 0, _, runState, by decide +kernel, by decide +kernel, rfl⟩,
   ⟨0, 1000, _, runState, by decide +kernel, by decide +kernel, rfl⟩⟩

theorem test_meets_VfieldBeyondRatings :
    40000 < (40001 : BitVec 16).toNat ∧ 32000 < (32001 : BitVec 16).toNat := by decide

theorem test_meets_FabricClockEdgeMovesTheDesign :
  (∃ (k : Fin 16) (rising falling : List ClockSource) (pads : BitVec 32) (lanes : List LaneEdge) (rspReady reqReady :
    List (Fin 64)) (s1 u t v : State) (s : State),
    s.coreOn = true ∧ s1 = ((lanes.filter fun e => laneRegion e.lane.val == k.val).foldl State.laneEdge s).samplePads
      k pads ∧ s1.regionRuns k = true ∧ u = (bankPins k).foldl (fun x n => x.samplePad n pads) s1 ∧ t = (bankPins
      k).foldl (fun x n => u.clockPin x k n (u.trackEdge rising k (u.gioPin n).track) (u.trackEdge falling k (u.gioPin
      n).track) pads) (u.clockElements k rising) ∧ v = (u.edgePorts k rising).foldl (fun x p => x.clockPort rspReady
      reqReady p) (u.clockLanes t k rising)) ∧
  (∃ (k : Fin 16) (pads : BitVec 32) (lanes : List LaneEdge) (u : State) (s : State),
    s.coreOn = true ∧ u = ((lanes.filter fun e => laneRegion e.lane.val == k.val).foldl State.laneEdge s).samplePads k
      pads ∧ u.regionRuns k = false) :=
  ⟨⟨0, [], [], 0, [], [], [], _, _, _, _, regionState, by decide +kernel, rfl, by decide +kernel, rfl, rfl, rfl⟩,
   ⟨0, 0, [], _, runState, by decide +kernel, rfl, by decide +kernel⟩⟩

theorem test_meets_RegisterAccessesAreDecided :
  (∃ (who : Requester) (off : BitVec 24) (s : State),
    s.mode ≠ .off ∧ locate off.toNat = none ∧ WriteIssues s who) ∧
  (∃ (who : Requester) (off : BitVec 24) (s : State),
    s.mode ≠ .off ∧ locate off.toNat = none ∧ ReadIssues s who) ∧
  (∃ (who : Requester) (off : BitVec 24) (p : Located) (s : State),
    s.mode ≠ .off ∧ off.toNat % 4 ≠ 0 ∧ locate off.toNat = some p ∧ s.mayRead p who.owner = true ∧ s.darkPlace p =
      false ∧ ReadIssues s who) ∧
  (∃ (who : Requester) (off : BitVec 24) (r : Reg) (i : Nat) (s : State),
    s.mode ≠ .off ∧ off.toNat % 4 = 0 ∧ locate off.toNat = some (.reg r i false) ∧ s.mayRead (.reg r i false)
      who.owner = true ∧ s.darkPlace (.reg r i false) = false ∧ r.place.wide = false ∧ r.detailsOf = none ∧ ReadIssues
      s who) ∧
  (∃ (who : Requester) (off : BitVec 24) (r : Reg) (i : Nat) (s : State),
    s.mode ≠ .off ∧ off.toNat % 4 = 0 ∧ locate off.toNat = some (.reg r i false) ∧ s.mayRead (.reg r i false)
      who.owner = true ∧ s.darkPlace (.reg r i false) = false ∧ r.place.wide = true ∧ r.details = none ∧ ReadIssues s
      who) ∧
  (∃ (who : Requester) (off : BitVec 24) (r : Reg) (i high : Nat) (s : State),
    s.mode ≠ .off ∧ off.toNat % 4 = 0 ∧ locate off.toNat = some (.reg r i true) ∧ s.mayRead (.reg r i true) who.owner
      = true ∧ s.darkPlace (.reg r i true) = false ∧ s.latched who.port (r.addr i + 4) = some high ∧ ReadIssues s who)
      ∧
  (∃ (who : Requester) (off : BitVec 24) (r : Reg) (i : Nat) (s : State),
    s.mode ≠ .off ∧ off.toNat % 4 = 0 ∧ locate off.toNat = some (.reg r i false) ∧ s.mayRead (.reg r i false)
      who.owner = true ∧ s.darkPlace (.reg r i false) = false ∧ r.place.wide = true ∧ r.details = none ∧ ReadIssues s
      who) ∧
  (∃ (who : Requester) (off : BitVec 24) (data : BitVec 64) (r : Reg) (i : Nat) (t : State) (s : State),
    RegisterOpen s who r ∧ off.toNat % 4 = 0 ∧ locate off.toNat = some (.reg r i false) ∧ r ≠ .MBX_CTL ∧ s.writeReg r
      i false false who.owner (data.toNat % 2 ^ 32) = .took t) :=
  ⟨⟨.mgc, 0xFFFFFC, runState, by decide +kernel, by decide +kernel, (fun h => nomatch h)⟩,
   ⟨.mgc, 0xFFFFFC, runState, by decide +kernel, by decide +kernel, (fun h => nomatch h)⟩,
   ⟨.mgc, 2, _, runState, by decide +kernel, by decide +kernel, rfl, by decide +kernel, by decide +kernel, (fun h =>
     nomatch h)⟩,
   ⟨.mgc, 0, .DEV_IDCODE, 0, runState, by decide +kernel, by decide +kernel, by decide +kernel, by decide +kernel,
     by decide +kernel, by decide +kernel, by decide +kernel, (fun h => nomatch h)⟩,
   ⟨.mgc, offsetOf .TMB_NOW 0, .TMB_NOW, 0, runState, by decide +kernel, by decide +kernel, by decide +kernel,
     by decide +kernel, by decide +kernel, by decide +kernel, by decide +kernel, (fun h => nomatch h)⟩,
   ⟨.mgc, offsetOf .TMB_NOW 0 + 4, .TMB_NOW, 0, 7, runState.setLatch 94 (Reg.addr .TMB_NOW 0 + 4) (some 7),
     by decide +kernel, by decide +kernel, by decide +kernel, by decide +kernel, by decide +kernel, by decide +kernel,
     (fun h => nomatch h)⟩,
   ⟨.mgc, offsetOf .TMB_NOW 0, .TMB_NOW, 0, runState, by decide +kernel, by decide +kernel, by decide +kernel,
     by decide +kernel, by decide +kernel, by decide +kernel, by decide +kernel, (fun h => nomatch h)⟩,
   ⟨.mgc, offsetOf .DMA_TIMEOUT 0, 10, .DMA_TIMEOUT, 0, _, runState, ⟨by decide, (fun h => nomatch h), by decide⟩,
     by decide +kernel, by decide +kernel, by decide +kernel, rfl⟩⟩

/-- The low word of TMB_NOW is read, and its high word after time has passed. -/
theorem test_meets_HighWordReadsAreConsistent : ∃ (low high : BitVec 24) (s t u : State),
    s.mode ≠ .off ∧ u.mode ≠ .off ∧ ReadIssues s .mgc ∧ ReadIssues u .mgc ∧ low.toNat % 4 = 0 ∧ high.toNat % 4 = 0 ∧
    locate low.toNat = some (.reg .TMB_NOW 0 false) ∧ locate high.toNat = some (.reg .TMB_NOW 0 true) ∧
    Reg.TMB_NOW.place.wide = true ∧ Reg.TMB_NOW.details = none ∧
    s.mayRead (.reg .TMB_NOW 0 false) Requester.mgc.owner = true ∧ s.darkPlace (.reg .TMB_NOW 0 false) = false ∧
    u.mayRead (.reg .TMB_NOW 0 true) Requester.mgc.owner = true ∧ u.darkPlace (.reg .TMB_NOW 0 true) = false ∧
    exec (.latchingRead .mgc low false) s = .next t ∧
    u.latched Requester.mgc.port (Reg.addr .TMB_NOW 0 + 4) = t.latched Requester.mgc.port (Reg.addr .TMB_NOW 0 + 4) ∧
    u.now ≠ s.now :=
  ⟨offsetOf .TMB_NOW 0, offsetOf .TMB_NOW 0 + 4, runState, _, (runState.setLatch 94 (Reg.addr .TMB_NOW 0 + 4) (some 0)).put
      .TMB_NOW_NOW 5, by
    refine ⟨?_, ?_, ?_, ?_, ?_, ?_, ?_, ?_, ?_, ?_, ?_, ?_, ?_, ?_, rfl, ?_, ?_⟩
    iterate 2 decide +kernel
    iterate 2 exact fun h => nomatch h
    all_goals decide +kernel⟩

theorem test_meets_DecerrCountIsWrittenByItsOwners :
  (∃ (who : Requester) (off : BitVec 24) (s : State),
    s.mode ≠ .off ∧ off.toNat % 4 = 0 ∧ locate off.toNat = some (.reg .DEV_DECERR_INFO 0 false) ∧ (who.owner = 0x01 ∨
      who.owner = 0x14 ∨ s.isAdmin who.owner = true) ∧ WriteIssues s who) ∧
  (∃ (who : Requester) (off : BitVec 24) (s : State),
    s.mode ≠ .off ∧ off.toNat % 4 = 0 ∧ locate off.toNat = some (.reg .DEV_DECERR_INFO 0 false) ∧ who.owner ≠ 0x01 ∧
      who.owner ≠ 0x14 ∧ s.isAdmin who.owner = false ∧ WriteIssues s who) :=
  ⟨⟨.mgc, offsetOf .DEV_DECERR_INFO 0, runState, by decide +kernel, by decide +kernel, by decide +kernel,
    by decide +kernel, (fun h => nomatch h)⟩,
   ⟨.host 0, offsetOf .DEV_DECERR_INFO 0, runState, by decide +kernel, by decide +kernel, by decide +kernel,
     by decide +kernel, by decide +kernel, by decide +kernel, (fun h => nomatch h)⟩⟩

theorem test_meets_WakeEnablesAreWrittenByTheirOwners :
  (∃ (who : Requester) (off : BitVec 24) (s : State),
    s.mode ≠ .off ∧ s.mode ≠ .safe ∧ off.toNat % 4 = 0 ∧ locate off.toNat = some (.reg .PWR_WAKE_EN 0 false) ∧
      (who.owner = 0x01 ∨ who.owner = 0x14 ∨ s.isAdmin who.owner = true) ∧ WriteIssues s who) ∧
  (∃ (who : Requester) (off : BitVec 24) (s : State),
    s.mode ≠ .off ∧ off.toNat % 4 = 0 ∧ locate off.toNat = some (.reg .PWR_WAKE_EN 0 false) ∧ who.owner ≠ 0x01 ∧
      who.owner ≠ 0x14 ∧ s.isAdmin who.owner = false ∧ WriteIssues s who) :=
  ⟨⟨.mgc, offsetOf .PWR_WAKE_EN 0, runState, by decide +kernel, by decide +kernel, by decide +kernel,
    by decide +kernel, by decide +kernel, (fun h => nomatch h)⟩,
   ⟨.host 0, offsetOf .PWR_WAKE_EN 0, runState, by decide +kernel, by decide +kernel, by decide +kernel,
     by decide +kernel, by decide +kernel, by decide +kernel, (fun h => nomatch h)⟩⟩

theorem test_meets_DmaSettingsAreWrittenByTheirOwners :
  (∃ (who : Requester) (off : BitVec 24) (data : BitVec 64) (v : Nat) (s : State),
    s.mode ≠ .off ∧ s.mode ≠ .safe ∧ off.toNat % 4 = 0 ∧ locate off.toNat = some (.reg .DMA_TIMEOUT 0 false) ∧
      (who.owner = 0x01 ∨ who.owner = 0x14 ∨ s.isAdmin who.owner = true) ∧ v = data.toNat % 2 ^ 14 ∧ (10 ≤ v ∧ v ≤
      10000) ∧ WriteIssues s who) ∧
  (∃ (who : Requester) (off : BitVec 24) (data : BitVec 64) (v : Nat) (s : State),
    s.mode ≠ .off ∧ off.toNat % 4 = 0 ∧ locate off.toNat = some (.reg .DMA_TIMEOUT 0 false) ∧ (who.owner = 0x01 ∨
      who.owner = 0x14 ∨ s.isAdmin who.owner = true) ∧ v = data.toNat % 2 ^ 14 ∧ (v < 10 ∨ 10000 < v) ∧ WriteIssues s
      who) ∧
  (∃ (who : Requester) (off : BitVec 24) (data : BitVec 64) (g v : Nat) (s : State),
    s.mode ≠ .off ∧ s.mode ≠ .safe ∧ off.toNat % 4 = 0 ∧ locate off.toNat = some (.reg .DMA_GROUP_CFG g false) ∧
      (who.owner = 0x01 ∨ who.owner = 0x14 ∨ s.isAdmin who.owner = true) ∧ v = data.toNat / 2 ^ 4 % 2 ^ 12 ∧ (1 ≤ v ∧
      v ≤ 2048) ∧ WriteIssues s who) ∧
  (∃ (who : Requester) (off : BitVec 24) (data : BitVec 64) (g v : Nat) (s : State),
    s.mode ≠ .off ∧ off.toNat % 4 = 0 ∧ locate off.toNat = some (.reg .DMA_GROUP_CFG g false) ∧ (who.owner = 0x01 ∨
      who.owner = 0x14 ∨ s.isAdmin who.owner = true) ∧ v = data.toNat / 2 ^ 4 % 2 ^ 12 ∧ (v < 1 ∨ 2048 < v) ∧
      WriteIssues s who) ∧
  (∃ (who : Requester) (off : BitVec 24) (r : Reg) (g : Nat) (s : State),
    s.mode ≠ .off ∧ off.toNat % 4 = 0 ∧ locate off.toNat = some (.reg r g false) ∧ (r = .DMA_TIMEOUT ∨ r =
      .DMA_GROUP_CFG) ∧ who.owner ≠ 0x01 ∧ who.owner ≠ 0x14 ∧ s.isAdmin who.owner = false ∧ WriteIssues s who) :=
  ⟨⟨.mgc, offsetOf .DMA_TIMEOUT 0, 10, _, runState, by decide +kernel, by decide +kernel, by decide +kernel,
    by decide +kernel, by decide +kernel, rfl, by decide +kernel, (fun h => nomatch h)⟩,
   ⟨.mgc, offsetOf .DMA_TIMEOUT 0, 9, _, runState, by decide +kernel, by decide +kernel, by decide +kernel,
     by decide +kernel, rfl, by decide +kernel, (fun h => nomatch h)⟩,
   ⟨.mgc, offsetOf .DMA_GROUP_CFG 1, 32768, 1, _, runState, by decide +kernel, by decide +kernel, by decide +kernel,
     by decide +kernel, by decide +kernel, rfl, by decide +kernel, (fun h => nomatch h)⟩,
   ⟨.mgc, offsetOf .DMA_GROUP_CFG 1, 0, 1, _, runState, by decide +kernel, by decide +kernel, by decide +kernel,
     by decide +kernel, rfl, by decide +kernel, (fun h => nomatch h)⟩,
   ⟨.host 0, offsetOf .DMA_TIMEOUT 0, .DMA_TIMEOUT, 0, runState, by decide +kernel, by decide +kernel,
     by decide +kernel, by decide +kernel, by decide +kernel, by decide +kernel, by decide +kernel, (fun h => nomatch
     h)⟩⟩

theorem test_meets_DozeWakesAreHeldUntilAdmitted :
  (∃ (s : State),
    s.mode = .doze ∧ s.power.woken = true ∧ s.admits 10 = false ∧ s.power.wakeHeld = true) ∧
  (∃ (t : State) (s : State),
    s.mode = .doze ∧ s.power.woken = true ∧ s.admits 10 = true ∧ s.power.resetAfterWake = false ∧ t = s.exitDoze) :=
  ⟨⟨{ wokenState with power := { woken := true, wakeHeld := true } }, by decide +kernel⟩,
   ⟨_, powered wokenState, by decide +kernel, by decide +kernel, by decide +kernel, by decide +kernel, rfl⟩⟩

theorem test_meets_DozeWakeHeld :
    wokenState.mode = .doze ∧ wokenState.power.woken = true ∧ wokenState.admits 10 = false ∧
    wokenState.power.wakeHeld = false ∧ wokenState.get .PWR_REFUSE_OWN_COUNT 0 < 2 ^ 32 - 1 := by decide +kernel

theorem test_meets_WordCode : columns[0]? = some (0x07 : BitVec 8).toNat ∧ (0x03 : BitVec 8) ≠ 0 ∧
    (0x03 : BitVec 8).toNat ∉ columns ∧ weight (0x03 : BitVec 8).toNat 8 % 2 = 0 := by decide

theorem test_meets_BankWriteChangesItsWordOnly : ∃ t,
    (powered runState).bankCheck Requester.mgc.owner 0 = .ok ∧ (∀ g, (powered runState).slice g = none) ∧
    (∀ c ∈ pageCells 0, ∃ d, (powered runState).wordAt 0 c = .clean d) ∧
    (∀ c ∈ dataCells 0, (powered runState).poisoned 0 c = false) ∧
    exec (.bankWrite .mgc 0 0 5 true) (powered runState) = .next t :=
  ⟨_, by decide +kernel, fun _ => rfl, fun c _ => ⟨0, show decodeRow (0 ^^^ 0) = .clean 0 by decide +kernel⟩, by decide +kernel, rfl⟩

theorem test_meets_SlatePrograms : (0 : Nat) < 64 ∧ (List.replicate 512 (0 : DWord)).length = 512 := by decide

theorem test_meets_SafeIsLeftOnlyThroughOff : ∃ t u, Steps { runState with mode := .safe } t ∧ Steps holdupState u :=
  ⟨_, _, rfl, rfl⟩

theorem test_meets_MemoriesKeepTheirForm : MemoryForm State.reset ∧ ∃ t, Steps State.reset t :=
  ⟨by constructor <;> decide, _, rfl⟩

end Sys2Proof.Tests
end

section
/-! Accesses to the control register space as their requesters see them (00 R12, R13; 01 R36, R39, R44): how a read is
answered, what each kind of register read returns and latches, and the two statements of the scope chapter. -/

namespace Sys2Proof.Machine

/-! ## The two commands -/

theorem exec_latchingRead (who : Requester) (off : BitVec 24) (wide : Bool) (s : State) :
    exec (.latchingRead who off wide) s =
      .next (s.accessAt who off.toNat (locate off.toNat) (widthAt off wide) .read) := rfl

theorem exec_registerWrite (who : Requester) (off : BitVec 24) (wide : Bool) (data : BitVec 64) (s : State) :
    exec (.registerWrite who off wide data) s = execRegisterWrite who off wide data s := rfl

theorem widthAt_aligned {off : BitVec 24} (wide : Bool) (h : off.toNat % 4 = 0) :
    widthAt off wide = if wide then .w64 else .w32 := by
  simp [widthAt, h]

theorem widthAt_misaligned {off : BitVec 24} (wide : Bool) (h : off.toNat % 4 ≠ 0) : widthAt off wide = .bad := by
  simp [widthAt, h]

theorem widthAt_single_ne_w64 (off : BitVec 24) : widthAt off false ≠ .w64 := by
  by_cases h : off.toNat % 4 = 0
  · simp [widthAt_aligned false h]
  · simp [widthAt_misaligned false h]

/-! ## Latches (00 R12) -/

@[simp] theorem latched_setLatch_same (s : State) (port off : Nat) (v : Option Nat) :
    (s.setLatch port off v).latched port off = v := by
  simp [State.latched, State.setLatch]

@[simp] theorem latchDetails_of_details_none (s : State) (port i v : Nat) {r : Reg} (h : r.details = none) :
    s.latchDetails port r i v = s := by
  simp [State.latchDetails, h]

/-! ## What a read of a register returns and latches -/

theorem readReg_word (s : State) (port o i : Nat) {r : Reg} (hw : r.place.wide = false) (hd : r.detailsOf = none) :
    s.readReg port o r i false false = (s, s.liveFor r i o) := by
  simp [State.readReg, hw, hd]

theorem readReg_low (s : State) (port o i : Nat) {r : Reg} (hw : r.place.wide = true) (hd : r.details = none) :
    s.readReg port o r i false false =
      (s.setLatch port (r.addr i + 4) (some (s.liveFor r i o / 2 ^ 32)), s.liveFor r i o % 2 ^ 32) := by
  simp [State.readReg, hw, hd]

theorem readReg_high_of_latched (s : State) (port o : Nat) {r : Reg} {i high : Nat}
    (h : s.latched port (r.addr i + 4) = some high) :
    s.readReg port o r i true false = (s.setLatch port (r.addr i + 4) none, high) := by
  simp [State.readReg, h]

theorem readReg_both (s : State) (port o i : Nat) {r : Reg} (hd : r.details = none) :
    s.readReg port o r i false true = (s, s.liveFor r i o) := by
  simp [State.readReg, hd]

/-! ## How an access is answered -/

/-- Reads of `who` at place `p` reach the place: checks 1 to 3 of 01 R39 pass. -/
structure ReadOpen (s : State) (who : Requester) (p : Located) : Prop where
  powered : s.mode ≠ .off
  issues : ReadIssues s who
  owner : s.mayRead p who.owner = true
  lit : s.darkPlace p = false

/-- Only a write begins the clearing of a mailbox. -/
@[simp] theorem clearAsked_read (p : Option Located) (x : Resp) : clearAsked p .read x = none := by
  unfold clearAsked
  split
  · contradiction
  · rfl

@[simp] theorem clearAsked_undefined (ask : Ask) (x : Resp) : clearAsked none ask x = none := rfl

/-- The words a read of width `w` is answered with: all ones where it fails. -/
def readWords (w : Width) (x : Resp) (v : Nat) : List Word :=
  if x = .ok then (if w = .w64 then twoWords v else [BitVec.ofNat 32 v])
  else List.replicate (if w = .w64 then 2 else 1) (BitVec.allOnes 32)

@[simp] theorem readWords_single_ok (v : Nat) : readWords .w32 .ok v = [BitVec.ofNat 32 v] := rfl

@[simp] theorem readWords_double_ok (v : Nat) : readWords .w64 .ok v = twoWords v := rfl

theorem readWords_single_failed {w : Width} {x : Resp} (v : Nat) (hw : w ≠ .w64) (hx : x ≠ .ok) :
    readWords w x v = [BitVec.allOnes 32] := by
  simp [readWords, hw, hx]

/-- A read that the port issues is answered with the response and the words of the control register space. -/
theorem accessAt_read {s t : State} {who : Requester} {off : Nat} {p : Option Located} {w : Width} {x : Resp} {v : Nat}
    (hp : s.mode ≠ .off) (hi : ReadIssues s who) (hc : s.controlAt who.port who.owner off p w .read = (t, x, v)) :
    s.accessAt who off p w .read = { t with answer := some { codes := [x], words := readWords w x v } } := by
  obtain ⟨ho, hb⟩ := hi.reaches hp
  simp [State.accessAt, ho, hb, hc, readWords]

/-- A write that the port issues to an undefined offset is answered DECERR and captured with CAUSE 0. -/
theorem accessAt_write_undefined {s : State} {who : Requester} (off : Nat) (w : Width) (v : Nat)
    (hp : s.mode ≠ .off) (hi : WriteIssues s who) :
    s.accessAt who off none w (.write v) = { s.captureDecerr who.owner (0x3_0000_0000 + off) true false with
      answer := some { codes := [.decerr], words := [] } } := by
  obtain ⟨ho, hb⟩ := hi.reaches hp
  simp [State.accessAt, ho, hb, State.controlAt]

theorem controlAt_read_undefined (s : State) (port o off : Nat) (w : Width) :
    s.controlAt port o off none w .read = (s.captureDecerr o (0x3_0000_0000 + off) false false, .decerr, 0) := rfl

theorem controlAt_read_misaligned {s : State} {who : Requester} {p : Located} (h : ReadOpen s who p) (off : Nat) :
    s.controlAt who.port who.owner off (some p) .bad .read = (s, .narrow, 0) := by
  simp [State.controlAt, h.owner, h.lit, Width.fits]

theorem controlAt_read_fits {s t : State} {who : Requester} {p : Located} {w : Width} {v : Nat} (h : ReadOpen s who p)
    (off : Nat) (hw : w.fits p = true) (hr : s.readAt who.port who.owner (w == .w64) p = (t, v)) :
    s.controlAt who.port who.owner off (some p) w .read = (t, .ok, v) := by
  simp [State.controlAt, h.owner, h.lit, hw, hr]

/-! ## Aligned reads of a register by LATCHING_READ -/

/-- A 32-bit read of a register's low or high word is answered OK with what `readReg` gives. -/
theorem latchingRead_single {s t : State} {who : Requester} {off : BitVec 24} {r : Reg} {i v : Nat} {high : Bool}
    (h : ReadOpen s who (.reg r i high)) (ha : off.toNat % 4 = 0) (hl : locate off.toNat = some (.reg r i high))
    (hr : s.readReg who.port who.owner r i high false = (t, v)) :
    exec (.latchingRead who off false) s =
      .next { t with answer := some { codes := [.ok], words := [BitVec.ofNat 32 v] } } := by
  have hc : s.controlAt who.port who.owner off.toNat (some (.reg r i high)) .w32 .read = (t, .ok, v) :=
    controlAt_read_fits h _ rfl hr
  rw [exec_latchingRead, widthAt_aligned _ ha, hl, if_neg (by decide), accessAt_read h.powered h.issues hc,
    readWords_single_ok]

/-- A 64-bit read of a 64-bit register is answered OK with both words of what `readReg` gives. -/
theorem latchingRead_double {s t : State} {who : Requester} {off : BitVec 24} {r : Reg} {i v : Nat}
    (h : ReadOpen s who (.reg r i false)) (ha : off.toNat % 4 = 0) (hl : locate off.toNat = some (.reg r i false))
    (hw : r.place.wide = true) (hr : s.readReg who.port who.owner r i false true = (t, v)) :
    exec (.latchingRead who off true) s =
      .next { t with answer := some { codes := [.ok], words := twoWords v } } := by
  have hf : Width.w64.fits (.reg r i false) = true := by simp [Width.fits, Located.pair, hw]
  have hc : s.controlAt who.port who.owner off.toNat (some (.reg r i false)) .w64 .read = (t, .ok, v) :=
    controlAt_read_fits h _ hf hr
  rw [exec_latchingRead, widthAt_aligned _ ha, hl, if_pos rfl, accessAt_read h.powered h.issues hc,
    readWords_double_ok]

/-! ## The statements -/

/-- Settles O47: each clause is the answer of an access (`accessAt_read`, `accessAt_write_undefined`, `accessAt_took`)
at the outcome that decode, alignment or the read of the register decides. The latch of R12 is kept per requester port
(log entry 1). -/
theorem registerAccessesAreDecided : Obligations.RegisterAccessesAreDecided := by
  unfold Obligations.RegisterAccessesAreDecided
  refine ⟨?undefinedWrite, ?undefinedRead, ?misaligned, ?word, ?low, ?high, ?both, ?taken⟩
  case undefinedWrite =>
    intro who off wide data s hp hl hi
    rw [exec_registerWrite, execRegisterWrite, State.access, hl, accessAt_write_undefined _ _ _ hp hi]
  case undefinedRead =>
    intro who off s hp hl hi
    rw [exec_latchingRead, hl, accessAt_read hp hi (controlAt_read_undefined ..),
      readWords_single_failed 0 (widthAt_single_ne_w64 off) (by decide)]
  case misaligned =>
    intro who off p s hp ha hl hm hd hi
    rw [exec_latchingRead, hl, widthAt_misaligned _ ha,
      accessAt_read hp hi (controlAt_read_misaligned ⟨hp, hi, hm, hd⟩ _),
      readWords_single_failed 0 (by decide) (by decide)]
  case word =>
    intro who off r i s hp ha hl hm hd hw hn hi
    exact latchingRead_single ⟨hp, hi, hm, hd⟩ ha hl (readReg_word s _ _ i hw hn)
  case low =>
    intro who off r i s hp ha hl hm hd hw hn hi
    exact latchingRead_single ⟨hp, hi, hm, hd⟩ ha hl (readReg_low s _ _ i hw hn)
  case high =>
    intro who off r i high s hp ha hl hm hd hh hi
    exact latchingRead_single ⟨hp, hi, hm, hd⟩ ha hl (readReg_high_of_latched s _ _ hh)
  case both =>
    intro who off r i s hp ha hl hm hd hw hn hi
    exact latchingRead_double ⟨hp, hi, hm, hd⟩ ha hl hw (readReg_both s _ _ i hn)
  case taken =>
    intro who off data r i t s ho ha hl hr ht
    rw [exec_registerWrite, registerWrite_at s who off data r i ha hl, accessAt_took s t who _ r i _ ho hr ht]

/-- Settles O48: the read of the low word leaves the high word in the port's latch, which the read of the high word
returns whatever value the register has by then. -/
theorem highWordReadsAreConsistent : Obligations.HighWordReadsAreConsistent := by
  unfold Obligations.HighWordReadsAreConsistent
  intro who low high r i s t u hsp hup hsi hui hla hha hll hhl hw hn hsm hsd hum hud ht hkept
  have hlow := latchingRead_single ⟨hsp, hsi, hsm, hsd⟩ hla hll (readReg_low s who.port who.owner i hw hn)
  rw [hlow] at ht
  cases ht
  have hlatch : u.latched who.port (r.addr i + 4) = some (s.liveFor r i who.owner / 2 ^ 32) :=
    hkept.trans (latched_setLatch_same s who.port (r.addr i + 4) (some (s.liveFor r i who.owner / 2 ^ 32)))
  exact ⟨_, latchingRead_single ⟨hup, hui, hum, hud⟩ hha hhl (readReg_high_of_latched u _ _ hlatch), rfl, rfl⟩

end Sys2Proof.Machine
end

section
/-! Register writes that the architecture's and the safety chapter's rows make (01 R46; 17 R458, R462, R481): what each
register does with the value, and the two statements that rest on them. -/

namespace Sys2Proof.Machine

/-! ## Who may write -/

/-- The owners that R46, R481 and the like name. -/
theorem maintains_iff (s : State) (o : Nat) :
    s.maintains o = true ↔ o = 0x01 ∨ o = 0x14 ∨ s.isAdmin o = true := by
  simp [State.maintains, or_assoc]

theorem maintains_eq_false_iff (s : State) (o : Nat) :
    s.maintains o = false ↔ o ≠ 0x01 ∧ o ≠ 0x14 ∧ s.isAdmin o = false := by
  simp [State.maintains, and_assoc]

/-- In RUN no mode stands between a write that its port issues and the register. -/
theorem RegisterOpen.of_run {s : State} {who : Requester} (r : Reg) (hm : s.mode = .run) (hi : WriteIssues s who) :
    RegisterOpen s who r where
  powered := by simp [hm]
  issues := hi
  safe h := by simp [hm] at h

/-! ## The count of DECERRs (01 R46) -/

theorem writeDecerrCount_took {s : State} {o : Nat} (v : Nat) (h : s.maintains o = true) :
    s.writeDecerrCount o v = .took (s.put .DEV_DECERR_INFO_COUNT (bitsOf v 16 16)) := by
  simp [State.writeDecerrCount, h]

theorem writeDecerrCount_notOwner {s : State} {o : Nat} (v : Nat) (h : s.maintains o = false) :
    s.writeDecerrCount o v = .notOwner s := by
  simp [State.writeDecerrCount, h]

/-- The upper half of a 32-bit word of the data. -/
theorem bitsOf_upper_half (v : Nat) : bitsOf (v % 2 ^ 32) 16 16 = v / 2 ^ 16 % 2 ^ 16 := by
  unfold bitsOf
  omega

/-- Settles O49: the register takes the write of an owner of R46 and refuses another's (`writeDecerrCount_took`,
`writeDecerrCount_notOwner`); a refusal leaves nothing but the answer (`accessAt_notOwner`). R467 lets COUNT be written
in SAFE too. -/
theorem decerrCountIsWrittenByItsOwners : Obligations.DecerrCountIsWrittenByItsOwners := by
  unfold Obligations.DecerrCountIsWrittenByItsOwners
  refine ⟨?owner, ?other⟩
  case owner =>
    intro who off data s hp ha hl ho hi
    have hopen : RegisterOpen s who .DEV_DECERR_INFO := ⟨hp, hi, fun _ => .inl rfl⟩
    rw [exec_registerWrite, registerWrite_at s who off data _ 0 ha hl,
      accessAt_took s _ who _ _ 0 _ hopen (by decide) (writeDecerrCount_took _ ((maintains_iff s _).2 ho)),
      bitsOf_upper_half]
  case other =>
    intro who off data s hp ha hl h1 h14 had hi
    have hno : s.maintains who.owner = false := (maintains_eq_false_iff s _).2 ⟨h1, h14, had⟩
    rw [exec_registerWrite, registerWrite_at s who off data _ 0 ha hl,
      accessAt_notOwner s who _ .DEV_DECERR_INFO 0 _ hp hi (by decide) (writeDecerrCount_notOwner _ hno)]

/-! ## The safety commands as register writes, packets and detections -/

theorem exec_lockstepMismatch (s : State) : exec .lockstepMismatch s = execLockstepMismatch s := rfl

theorem exec_safReq (who : Requester) (s : State) : exec (.safReq who) s = .next (s.writeAs who .SAF_REQ 0 1) := rfl

theorem exec_safEnter (m : Fin 5) (s : State) : exec (.safEnter m) s = execSafEnter m s := rfl

theorem exec_safCfgCritWrite (who : Requester) (mask : BitVec 16) (s : State) :
    exec (.safCfgCritWrite who mask) s = .next (s.writeAs who .SAF_CFG_CRIT 0 (mask.setWidth 32)) := rfl

theorem exec_safPllCritWrite (who : Requester) (mask : BitVec 16) (s : State) :
    exec (.safPllCritWrite who mask) s = .next (s.writeAs who .SAF_PLL_CRIT 0 (mask.setWidth 32)) := rfl

theorem exec_safIoCritWrite (who : Requester) (mask : BitVec 16) (s : State) :
    exec (.safIoCritWrite who mask) s = .next (s.writeAs who .SAF_IO_CRIT 0 (mask.setWidth 32)) := rfl

/-- The word that SAF_INJECT is written with: ARM, INDEX and DIAG. -/
def injectWord (diag : BitVec 4) (index : BitVec 9) : Word := BitVec.ofNat 32 (2 ^ 31 + 16 * index.toNat + diag.toNat)

theorem exec_safInject (who : Requester) (diag : BitVec 4) (index : BitVec 9) (s : State) :
    exec (.safInject who diag index) s = .next (s.writeAs who .SAF_INJECT 0 (injectWord diag index)) := rfl

theorem exec_eventLogEntry (s : State) : exec .eventLogEntry s = .next s.takeLogEntry := rfl

/-! ## SAF_REQ (17 R462) -/

theorem writeSafReq_took {s : State} {o : Nat} (h : s.mayRequestSafe o = true) :
    s.writeSafReq o (1 : Word).toNat = .took (s.danger 13 o none o false) := by
  simp [State.writeSafReq, h]

/-! ## The markings (17 R458) -/

theorem bitsOf_setWidth (mask : BitVec 16) : bitsOf (mask.setWidth 32).toNat 0 16 = mask.toNat := by
  have hlt := mask.isLt
  simp only [bitsOf, BitVec.toNat_setWidth]
  omega

section
variable {s : State} {who : Requester} {r : Reg} {value fixed : Fld} {allowed : Nat → Bool}

theorem writeMarking_first {o v : Nat} (hm : s.mode = .run) (ha : s.isAdmin o = true) (hf : s.flag fixed = false)
    (hk : ∀ k ∈ regionsOf (bitsOf v 0 16), allowed k = true) :
    s.writeMarking value fixed allowed o v = .took ((s.put value (bitsOf v 0 16)).putFlag fixed true) := by
  have hall : ((regionsOf (bitsOf v 0 16)).any fun i => !allowed i) = false :=
    List.any_eq_false.2 fun k h => by simp [hk k h]
  simp [State.writeMarking, hm, ha, hf, hall]

theorem writeMarking_again {o : Nat} (v : Nat) (hm : s.mode = .run) (ha : s.isAdmin o = true)
    (hf : s.flag fixed = true) : s.writeMarking value fixed allowed o v = .took s := by
  simp [State.writeMarking, hm, ha, hf]

/-- The first write of ADMIN to a marking register sets the mask and its bit of SAF_STAT. -/
theorem writeAs_marking_first {mask : BitVec 16} (hr : r ≠ .MBX_CTL)
    (hw : ∀ v, s.writeReg r 0 false false who.owner v = s.writeMarking value fixed allowed who.owner v)
    (hm : s.mode = .run) (hi : WriteIssues s who) (ha : s.isAdmin who.owner = true) (hf : s.flag fixed = false)
    (hk : ∀ k ∈ regionsOf mask.toNat, allowed k = true) :
    s.writeAs who r 0 (mask.setWidth 32) = ((s.put value mask.toNat).putFlag fixed true).acked := by
  rw [← bitsOf_setWidth mask] at hk ⊢
  exact writeAs_took s _ who r 0 _ (.of_run r hm hi) hr ((hw _).trans (writeMarking_first hm ha hf hk))

/-- A later write of ADMIN changes nothing. -/
theorem writeAs_marking_again (mask : BitVec 16) (hr : r ≠ .MBX_CTL)
    (hw : ∀ v, s.writeReg r 0 false false who.owner v = s.writeMarking value fixed allowed who.owner v)
    (hm : s.mode = .run) (hi : WriteIssues s who) (ha : s.isAdmin who.owner = true) (hf : s.flag fixed = true) :
    s.writeAs who r 0 (mask.setWidth 32) = s.acked :=
  writeAs_took s s who r 0 _ (.of_run r hm hi) hr ((hw _).trans (writeMarking_again _ hm ha hf))

end

/-! ## SAF_INJECT (17 R481) -/

theorem injectWord_toNat (diag : BitVec 4) (index : BitVec 9) :
    (injectWord diag index).toNat = 2 ^ 31 + 16 * index.toNat + diag.toNat := by
  have hd := diag.isLt
  have hi := index.isLt
  simp only [injectWord, BitVec.toNat_ofNat]
  omega

theorem injectWord_diag (diag : BitVec 4) (index : BitVec 9) : bitsOf (injectWord diag index).toNat 0 4 = diag.toNat := by
  have hd := diag.isLt
  rw [injectWord_toNat, bitsOf]
  omega

theorem injectWord_index (diag : BitVec 4) (index : BitVec 9) :
    bitsOf (injectWord diag index).toNat 4 9 = index.toNat := by
  have hd := diag.isLt
  have hi := index.isLt
  rw [injectWord_toNat, bitsOf]
  omega

theorem injectWord_armed (diag : BitVec 4) (index : BitVec 9) : (injectWord diag index).toNat.testBit 31 = true := by
  have hd := diag.isLt
  have hi := index.isLt
  rw [injectWord_toNat, Nat.testBit_eq_decide_div_mod_eq, decide_eq_true_iff]
  omega

theorem writeSafInject_took {s : State} {o : Nat} {diag : BitVec 4} {index : BitVec 9} (ho : s.maintains o = true)
    (hp : s.injectable diag.toNat index.toNat = true) :
    s.writeSafInject o (injectWord diag index).toNat =
      .took (((s.put .SAF_INJECT_DIAG diag.toNat).put .SAF_INJECT_INDEX index.toNat).inject diag.toNat index.toNat) := by
  simp [State.writeSafInject, injectWord_diag, injectWord_index, injectWord_armed, ho, hp]

/-! ## SAF_ENTER (17 R479) -/

/-- A running SAF_ENTER whose first parameter fits USER is a dangerous fault of its sender. -/
theorem execSafEnter_runs {s : State} {m : Fin 5} {p : Packet} (hc : CommandRuns s m 0x60 p) (hu : p.p 0 < 65536) :
    execSafEnter m s = .next ((s.danger 13 (mailOwner m) none (mailOwner m) false (p.p 0)).reply m St.ok) := by
  have hfits : ¬ p.p 0 / 2 ^ 16 ≠ 0 := not_not.2 (Nat.div_eq_of_lt hu)
  rw [execSafEnter, command_runs s m 0x60 p _ hc, if_neg hfits]

/-- Settles O38: each register write is taken with the effect its register gives it (`writeAs_took`), SAF_ENTER is a
command that runs, and the other two are their operations. That an injection acts at once, and where it is possible
beyond what R481 rejects, is log entry 79. -/
theorem safetyCommandsAct : Obligations.SafetyCommandsAct := by
  unfold Obligations.SafetyCommandsAct
  refine ⟨?lockstep, ?request, ?enter, ?cfgFirst, ?pllFirst, ?ioFirst, ?cfgAgain, ?pllAgain, ?ioAgain, ?inject, ?log⟩
  case lockstep =>
    intro s hon hrun
    simp [exec_lockstepMismatch, execLockstepMismatch, hon, hrun]
  case request =>
    intro who s ho hr
    rw [exec_safReq, writeAs_took s _ who _ 0 _ ho (by decide) (writeSafReq_took hr)]
  case enter =>
    intro m p s hc hu
    rw [exec_safEnter, execSafEnter_runs hc hu]
  case cfgFirst =>
    intro who mask s hm hi ha hf hk
    rw [exec_safCfgCritWrite, writeAs_marking_first (by decide) (fun _ => rfl) hm hi ha hf hk]
  case pllFirst =>
    intro who mask s hm hi ha hf hk
    rw [exec_safPllCritWrite, writeAs_marking_first (by decide) (fun _ => rfl) hm hi ha hf hk]
  case ioFirst =>
    intro who mask s hm hi ha hf hk
    rw [exec_safIoCritWrite, writeAs_marking_first (by decide) (fun _ => rfl) hm hi ha hf hk]
  case cfgAgain =>
    intro who mask s hm hi ha hf
    rw [exec_safCfgCritWrite, writeAs_marking_again mask (by decide) (fun _ => rfl) hm hi ha hf]
  case pllAgain =>
    intro who mask s hm hi ha hf
    rw [exec_safPllCritWrite, writeAs_marking_again mask (by decide) (fun _ => rfl) hm hi ha hf]
  case ioAgain =>
    intro who mask s hm hi ha hf
    rw [exec_safIoCritWrite, writeAs_marking_again mask (by decide) (fun _ => rfl) hm hi ha hf]
  case inject =>
    intro who diag index s ho hmay hp
    rw [exec_safInject, writeAs_took s _ who _ 0 _ ho (by decide) (writeSafInject_took hmay hp)]
  case log =>
    intro s
    rw [exec_eventLogEntry]

end Sys2Proof.Machine
end

section
/-! Mailboxes as their hosts use them (02 R62 to R65, R75): what the ring, the doorbell, the reply head and CLEAR do with a
write of the mailbox's own host, when the acknowledgement of a CLEAR comes, and the statement of the mailbox registers. -/

namespace Sys2Proof.Machine

/-! ## The commands as accesses -/

theorem exec_mailboxEntryWrite (who : Requester) (m : Fin 5) (w : Fin 4096) (data : BitVec 32) (s : State) :
    exec (.mailboxEntryWrite who m w data) s =
      .next (s.accessAt who (0x2_0000 + 0x1_0000 * m.val + 4 * w.val) (some (.request m w)) .w32 (.write data.toNat)) :=
  rfl

theorem exec_mbxReqTailWrite (who : Requester) (m : Fin 5) (tail : BitVec 16) (s : State) :
    exec (.mbxReqTailWrite who m tail) s = .next (s.writeAs who .MBX_REQ_TAIL m (tail.setWidth 32)) := rfl

theorem exec_mbxRspHeadWrite (who : Requester) (m : Fin 5) (head : BitVec 16) (s : State) :
    exec (.mbxRspHeadWrite who m head) s = .next (s.writeAs who .MBX_RSP_HEAD m (head.setWidth 32)) := rfl

/-- The word that MBX_CTL is written with: CLEAR set, and IRQ_EN. -/
def clearWord (irqEn : Bool) : Word := BitVec.ofNat 32 (2 + irqEn.toNat)

theorem exec_mbxClear (who : Requester) (m : Fin 5) (irqEn : Bool) (s : State) :
    exec (.mbxClear who m irqEn) s = .next (s.writeAs who .MBX_CTL m (clearWord irqEn)) := rfl

theorem exec_mailboxClearDone (m : Fin 5) (s : State) : exec (.mailboxClearDone m) s = execMailboxClearDone m s := rfl

/-! ## What each register does with the write (R64, R65, R75) -/

/-- SAFE leaves the exceptions of R467 to the register. -/
theorem RegisterOpen.of_writableInSafe {s : State} {who : Requester} {r : Reg} (hr : r.writableInSafe = true)
    (hp : s.mode ≠ .off) (hi : WriteIssues s who) : RegisterOpen s who r :=
  ⟨hp, hi, fun _ => .inl hr⟩

theorem clearWord_clear (irqEn : Bool) : (clearWord irqEn).toNat.testBit 1 = true := by
  cases irqEn <;> decide

theorem clearWord_irqEn (irqEn : Bool) : (clearWord irqEn).toNat.testBit 0 = irqEn := by
  cases irqEn <;> decide

section
variable {s : State} {m o : Nat} (hu : mayUseMail m o = true) (hc : s.clearingMail m = false)
include hu hc

theorem writeReqTail_took {tail : BitVec 16} (hroom : (tail.toNat + 65536 - s.get .MBX_REQ_HEAD_HEAD m) % 65536 ≤ 256)
    (hkeep : s.occupancy m ≤ (tail.toNat + 65536 - s.get .MBX_REQ_HEAD_HEAD m) % 65536) :
    s.writeReqTail m o (tail.setWidth 32).toNat = .took ((s.put .MBX_REQ_TAIL_TAIL tail.toNat m).wake 1 m) := by
  simp only [State.writeReqTail, bitsOf_setWidth]
  simp [hu, hc, Nat.not_lt.2 hroom, Nat.not_lt.2 hkeep]

theorem writeRspHead_took {head : BitVec 16} (hle : (head.toNat + 65536 - s.get .MBX_RSP_HEAD_HEAD m) % 65536 ≤
      (s.get .MBX_RSP_TAIL_TAIL m + 65536 - s.get .MBX_RSP_HEAD_HEAD m) % 65536) :
    s.writeRspHead m o (head.setWidth 32).toNat = .took (s.put .MBX_RSP_HEAD_HEAD head.toNat m) := by
  simp only [State.writeRspHead, bitsOf_setWidth]
  simp [hu, hc, Nat.not_lt.2 hle]

theorem writeMailCtl_clears (irqEn : Bool) :
    s.writeMailCtl m o (clearWord irqEn).toNat =
      .took ((if m < 4 then s.putFlag .MBX_CTL_IRQ_EN irqEn m else s).clearMail m) := by
  simp only [State.writeMailCtl, clearWord_clear, clearWord_irqEn]
  simp [hu, hc]

end

/-- A write that its register takes is answered OK by the control register space. -/
theorem controlAt_took {s t : State} {who : Requester} {r : Reg} {i v : Nat} (off : Nat) (h : RegisterOpen s who r)
    (hw : s.writeReg r i false false who.owner v = .took t) :
    s.controlAt who.port who.owner off (some (.reg r i false)) .w32 (.write v) = (t, .ok, 0) := by
  have he : (Width.w32 == Width.w64) = false := rfl
  simp [State.controlAt, State.writeChecked, Width.fits, State.writeAt, he, hw, h.not_barred, State.finishWrite]

/-- A write of CLEAR = 1 that MBX_CTL takes has no answer yet: it waits for the clearing (R75). -/
theorem writeAs_clear_waits {s t : State} {who : Requester} {m : Nat} {v : Word} (h : RegisterOpen s who .MBX_CTL)
    (hv : v.toNat.testBit 1 = true) (hw : s.writeMailCtl m who.owner v.toNat = .took t) :
    s.writeAs who .MBX_CTL m v =
      { t with answer := none, mail := { t.mail with clearAck := SMap.put 0 t.mail.clearAck m 1 } } := by
  obtain ⟨ho, hb⟩ := h.issues.reaches h.powered
  simp [State.writeAs, State.accessAt, ho, hb, controlAt_took _ h hw, clearAsked, hv]

/-- The end of a clearing that a register write has asked for acknowledges that write. -/
theorem execMailboxClearDone_acks {s : State} {m : Fin 5} (hc : s.clearingMail m = true)
    (ha : SMap.look 0 s.mail.clearAck m = 1) :
    execMailboxClearDone m s = .next
      (({ s with mail := { s.mail with
        clearing := SMap.put false s.mail.clearing m false, clearAck := SMap.put 0 s.mail.clearAck m 0 } }
      : State).acked) := by
  simp [execMailboxClearDone, hc, ha, State.acked]

/-- Settles O13: a free entry is stored (`requestWrite_took`); the doorbell, the reply head and MBX_CTL take their writes,
of which CLEAR alone has its answer wait (`writeAs_clear_waits`) until the clearing ends (`execMailboxClearDone_acks`). -/
theorem mailboxRegistersAndRings : Obligations.MailboxRegistersAndRings := by
  unfold Obligations.MailboxRegistersAndRings
  refine ⟨?entry, ?tail, ?head, ?clear, ?cleared⟩
  case entry =>
    intro who m w data s hp hu hc hfree hi
    rw [exec_mailboxEntryWrite, requestWrite_took s who m w _ _ hp hi hu hc hfree]
  case tail =>
    intro who m tail s hp hu hc hroom hkeep hi
    rw [exec_mbxReqTailWrite, writeAs_took s _ who .MBX_REQ_TAIL m _ (.of_writableInSafe rfl hp hi) (by decide)
      (writeReqTail_took hu hc hroom hkeep)]
  case head =>
    intro who m head s hp hu hc hle hi
    rw [exec_mbxRspHeadWrite, writeAs_took s _ who .MBX_RSP_HEAD m _ (.of_writableInSafe rfl hp hi) (by decide)
      (writeRspHead_took hu hc hle)]
  case clear =>
    rintro who m irqEn _ s hp hu hc rfl hi
    rw [exec_mbxClear, writeAs_clear_waits (.of_writableInSafe rfl hp hi) (clearWord_clear irqEn)
      (writeMailCtl_clears hu hc irqEn)]
  case cleared =>
    intro m s hc ha
    rw [exec_mailboxClearDone, execMailboxClearDone_acks hc ha]

end Sys2Proof.Machine
end

section
/-! Links and host resets (02 R51, R57, R74; 13 R389): when a link can train, what its events do while it is up, and the
statement of the link events. -/

namespace Sys2Proof.Machine

theorem exec_perstRelease (k : Fin 4) (s : State) : exec (.perstRelease k) s = execPerstRelease k s := rfl

theorem exec_linkUp (k : Fin 4) (gen : Fin 6) (width : Fin 9) (s : State) :
    exec (.linkUp k gen width) s = execLinkUp k gen width s := rfl

theorem exec_perstLow (k : Fin 4) (s : State) : exec (.perstLow k) s = execPerstLow k s := rfl

theorem exec_hotReset (k : Fin 4) (s : State) : exec (.hotReset k) s = execHotReset k s := rfl

theorem exec_linkDown (k : Fin 4) (s : State) : exec (.linkDown k) s = execLinkDown k s := rfl

theorem exec_functionLevelReset (k : Fin 4) (s : State) :
    exec (.functionLevelReset k) s = execFunctionLevelReset k s := rfl

theorem exec_linkPowerState (k : Fin 4) (change : LinkPower) (s : State) :
    exec (.linkPowerState k change) s = execLinkPowerState k change s := rfl

@[simp] theorem coreOn_iff (s : State) : s.coreOn = true ↔ s.mode ≠ .off := by
  simp [State.coreOn]

@[simp] theorem putEndpoint_mode (s : State) (k : Nat) (e : Endpoint) : (s.putEndpoint k e).mode = s.mode := rfl

/-! ## Training (R57) -/

/-- The link of endpoint k can come up at this speed and width: it is enabled, out of PERST and down, with the core powered,
and the speed and width are within its configuration. -/
structure LinkTrains (s : State) (k gen width : Nat) : Prop where
  powered : s.mode ≠ .off
  enabled : s.flag .MBX_EP_STAT_ENABLED k = true
  released : (s.endpoint k).perstHigh = true
  down : s.linkUp k = false
  genLow : 1 ≤ gen
  genHigh : gen ≤ s.get .MBX_EP_STAT_CFG_GEN k
  widthListed : width ∈ [1, 2, 4, 8]
  widthHigh : width ≤ 2 ^ s.get .MBX_EP_STAT_CFG_WIDTH k

theorem linkTrains_iff (s : State) (k gen width : Nat) :
    LinkTrains s k gen width ↔ (s.coreOn && s.flag .MBX_EP_STAT_ENABLED k && (s.endpoint k).perstHigh && !s.linkUp k &&
      (decide (1 ≤ gen) && decide (gen ≤ s.get .MBX_EP_STAT_CFG_GEN k) && [1, 2, 4, 8].contains width &&
        decide (width ≤ 2 ^ s.get .MBX_EP_STAT_CFG_WIDTH k))) = true := by
  simp only [Bool.and_eq_true, coreOn_iff, Bool.not_eq_true', decide_eq_true_eq, List.contains_iff_mem]
  constructor
  · rintro ⟨hp, he, hr, hd, hg, hG, hw, hW⟩
    exact ⟨⟨⟨⟨hp, he⟩, hr⟩, hd⟩, ⟨⟨hg, hG⟩, hw⟩, hW⟩
  · rintro ⟨⟨⟨⟨hp, he⟩, hr⟩, hd⟩, ⟨⟨hg, hG⟩, hw⟩, hW⟩
    exact ⟨hp, he, hr, hd, hg, hG, hw, hW⟩

section
variable {s : State} {k : Fin 4} {gen : Fin 6} {width : Fin 9}

theorem execLinkUp_trains (h : LinkTrains s k gen width) :
    execLinkUp k gen width s = .next ((((s.putFlag .MBX_EP_STAT_LINK_UP true k).put .MBX_EP_STAT_GEN gen k).put
      .MBX_EP_STAT_WIDTH width k).linkActivity k) := by
  rw [execLinkUp, if_pos ((linkTrains_iff ..).1 h)]

theorem execLinkUp_stays_down (h : ¬LinkTrains s k gen width) : execLinkUp k gen width s = .next s := by
  rw [execLinkUp, if_neg fun hg => h ((linkTrains_iff ..).2 hg)]

end

/-! ## Events of a link -/

/-- The guard of what arrives over the link of endpoint k. -/
theorem linkServes_iff (s : State) (k : Nat) :
    (s.coreOn && s.linkUp k) = true ↔ s.mode ≠ .off ∧ s.linkUp k = true := by
  simp

/-- The commands that arrive over the link of endpoint k. -/
def OverLink (k : Fin 4) (c : Instr) : Prop :=
  c = .hotReset k ∨ c = .linkDown k ∨ c = .functionLevelReset k ∨ ∃ x, c = .linkPowerState k x

section
variable {s : State} {k : Fin 4}

theorem exec_overLink_without_link {c : Instr} (hc : OverLink k c) (h : s.mode = .off ∨ s.linkUp k = false) :
    exec c s = .next s := by
  have hg : (s.coreOn && s.linkUp k) = false := by
    rcases h with h | h <;> simp [h]
  rcases hc with rfl | rfl | rfl | ⟨x, rfl⟩
  · simp [exec_hotReset, execHotReset, hg]
  · simp [exec_linkDown, execLinkDown, hg]
  · simp [exec_functionLevelReset, execFunctionLevelReset, hg]
  · simp [exec_linkPowerState, execLinkPowerState, hg]

theorem execPerstLow_powered (hp : s.mode ≠ .off) (hr : (s.endpoint k).perstHigh = true) :
    execPerstLow k s = .next ((((s.putEndpoint k { s.endpoint k with perstHigh := false }).dropLink k).hostReset k
      1).linkActivity k) := by
  simp [execPerstLow, hr, hp]

theorem execPerstLow_unpowered (hp : s.mode = .off) (hr : (s.endpoint k).perstHigh = true) :
    execPerstLow k s = .next (s.putEndpoint k { s.endpoint k with perstHigh := false }) := by
  simp [execPerstLow, hr, hp]

theorem execPerstLow_again (hr : (s.endpoint k).perstHigh = false) : execPerstLow k s = .next s := by
  simp [execPerstLow, hr]

end

/-- Settles O11: a link comes up exactly where `LinkTrains` holds; each event of a link that is up has the effect of its
row, and without one `exec_overLink_without_link` leaves the state alone (log entry 8). That a hot reset takes the link
down and a Function Level Reset leaves it up is log entry 37. -/
theorem linkEventsResetTheHost : Obligations.LinkEventsResetTheHost := by
  unfold Obligations.LinkEventsResetTheHost
  refine ⟨?rise, ?high, ?trains, ?staysDown, ?fall, ?fallUnpowered, ?low, ?hotReset, ?linkDown, ?flr, ?noLink,
    ?enterD3hot, ?leaveD3hot, ?enterL1, ?leaveL1, ?leaveL0⟩
  case rise =>
    intro k s hr
    simp [exec_perstRelease, execPerstRelease, hr]
  case high =>
    intro k s hr
    simp [exec_perstRelease, execPerstRelease, hr]
  case trains =>
    intro k gen width s hp he hr hd hg hG hw hW
    rw [exec_linkUp, execLinkUp_trains ⟨hp, he, hr, hd, hg, hG, hw, hW⟩]
  case staysDown =>
    intro k gen width s h
    rw [exec_linkUp, execLinkUp_stays_down]
    rintro ⟨hp, he, hr, hd, hg, hG, hw, hW⟩
    rcases h with h | h | h | h | h | h | h | h
    · exact hp h
    · simp [he] at h
    · simp [hr] at h
    · simp [hd] at h
    · omega
    · omega
    · exact h hw
    · omega
  case fall =>
    intro k s hp hr
    rw [exec_perstLow, execPerstLow_powered hp hr]
  case fallUnpowered =>
    intro k s hp hr
    rw [exec_perstLow, execPerstLow_unpowered hp hr]
  case low =>
    intro k s hr
    rw [exec_perstLow, execPerstLow_again hr]
  case hotReset =>
    intro k s hp hl
    rw [exec_hotReset, execHotReset, if_pos ((linkServes_iff s k).2 ⟨hp, hl⟩)]
  case linkDown =>
    intro k s hp hl
    rw [exec_linkDown, execLinkDown, if_pos ((linkServes_iff s k).2 ⟨hp, hl⟩)]
  case flr =>
    intro k s hp hl
    rw [exec_functionLevelReset, execFunctionLevelReset, if_pos ((linkServes_iff s k).2 ⟨hp, hl⟩)]
  case noLink =>
    intro k c s h hc
    exact exec_overLink_without_link hc h
  case enterD3hot =>
    intro k s hp hl
    simp [exec_linkPowerState, execLinkPowerState, hp, hl]
  case leaveD3hot =>
    intro k s hp hl
    simp [exec_linkPowerState, execLinkPowerState, hp, hl]
  case enterL1 =>
    intro k s hp hl
    simp [exec_linkPowerState, execLinkPowerState, hp, hl]
  case leaveL1 =>
    intro k s hp hl h1
    simp [exec_linkPowerState, execLinkPowerState, hp, hl, h1]
  case leaveL0 =>
    intro k s _ hl h1
    simp [exec_linkPowerState, execLinkPowerState, hl, h1]

end Sys2Proof.Machine
end

section
/-! What hosts transfer (02 R51 to R61; 07 R205, R217): TLPs of an endpoint whose link is up, the operations of an SPI
transaction, completions of transactions that an endpoint has taken, and the statement of the transfers. -/

namespace Sys2Proof.Machine

theorem exec_barTlp (k : Fin 4) (bar : Bar) (offset : BitVec 32) (write : Bool) (ds : List (BitVec 4 × BitVec 32))
    (s : State) : exec (.barTlp k bar offset write ds) s = execBarTlp k bar offset write ds s := rfl

theorem exec_spiRead (addr : BitVec 24) (words : Nat) (late : Bool) (s : State) :
    exec (.spiRead addr words late) s = execSpiRead addr words late s := rfl

theorem exec_spiWriteWord (addr : BitVec 24) (data : BitVec 32) (s : State) :
    exec (.spiWriteWord addr data) s = execSpiWriteWord addr data s := rfl

theorem exec_spiStatus (s : State) : exec .spiStatus s = execSpiStatus s := rfl

theorem exec_spiUnknownOperation (op : BitVec 8) (s : State) :
    exec (.spiUnknownOperation op) s = execSpiUnknownOperation op s := rfl

theorem exec_spiCsRise (s : State) : exec .spiCsRise s = .next (s.putSpi { s.hosts.spi with op := none }) := rfl

theorem exec_pcieCompletion (id : Nat) (data : List (BitVec 256)) (s : State) :
    exec (.pcieCompletion id data) s = execPcieCompletion id data s := rfl

theorem exec_pcieCompletionTimeout (id : Nat) (s : State) :
    exec (.pcieCompletionTimeout id) s = execPcieCompletionTimeout id s := rfl

/-! ## TLPs (R51, R52) -/

/-- The state in which a TLP finds endpoint k: its link has left L1. -/
def State.outOfL1 (s : State) (k : Nat) : State :=
  if (s.endpoint k).aspmL1 then (s.putEndpoint k { s.endpoint k with aspmL1 := false }).linkActivity k else s

section
variable {k : Fin 4} {bar : Bar} {s : State} (offset : BitVec 32) (write : Bool) (ds : List (BitVec 4 × BitVec 32))
  (hp : s.mode ≠ .off) (hl : s.linkUp k = true) (he : s.flag .MBX_EP_STAT_ENABLED k = true)
include hp hl he

theorem execBarTlp_served (h : (s.endpoint k).d3hot = false ∨ bar = .config) :
    execBarTlp k bar offset write ds s = .next ((s.outOfL1 k).barTlp k bar (offset.toNat / 4 * 4) write ds) := by
  have hd : ((s.endpoint k).d3hot && bar != .config) = false := by
    rcases h with h | h <;> simp [h]
  simp [execBarTlp, State.outOfL1, hp, hl, he, hd]

theorem execBarTlp_unsupported (hd : (s.endpoint k).d3hot = true) (hb : bar ≠ .config) :
    execBarTlp k bar offset write ds s = .next (if write then (s.outOfL1 k).reportAer k else (s.outOfL1 k).completeTo k
      { codes := [], words := [], unsupported := true }) := by
  simp [execBarTlp, State.outOfL1, hp, hl, he, hd, hb]

end

/-! ## SPI transactions (R59 to R61) -/

section
variable {s : State} (hp : s.mode ≠ .off)
include hp

theorem execSpiRead_begins (addr : BitVec 24) (words : Nat) (late : Bool) (ho : s.hosts.spi.op = none) :
    execSpiRead addr words late s = .next ((s.spiReadWords addr.toNat words).1.putSpi
      { (s.spiReadWords addr.toNat words).1.hosts.spi with
        op := some .read
        out := List.replicate 4 0 ++ (s.spiReadWords addr.toNat words).2 ++
          (if late then List.replicate 5 0xFF else []) }) := by
  simp [execSpiRead, hp, ho]

theorem execSpiWriteWord_first (addr : BitVec 24) (data : BitVec 32) (ho : s.hosts.spi.op = none) :
    execSpiWriteWord addr data s = .next ((s.putSpi
      { s.hosts.spi with op := some .write, next := addr.toNat + 4, out := List.replicate 8 0 }).spiWriteWord
      addr.toNat data) := by
  simp [execSpiWriteWord, hp, ho]

theorem execSpiWriteWord_later (addr : BitVec 24) (data : BitVec 32) (ho : s.hosts.spi.op = some .write) :
    execSpiWriteWord addr data s = .next ((s.putSpi
      { s.hosts.spi with next := s.hosts.spi.next + 4, out := s.hosts.spi.out ++ List.replicate 4 0 }).spiWriteWord
      s.hosts.spi.next data) := by
  simp [execSpiWriteWord, hp, ho]

theorem execSpiStatus_begins (ho : s.hosts.spi.op = none) :
    execSpiStatus s = .next (s.putSpi { s.hosts.spi with
      op := some .status, out := leBytes 1 s.hosts.spi.lastWrite ++ leBytes 2 s.hosts.spi.nonOk, nonOk := 0 }) := by
  simp [execSpiStatus, hp, ho]

/-- An operation byte other than READ, WRITE and STATUS. -/
theorem execSpiUnknownOperation_begins {op : BitVec 8} (ho : s.hosts.spi.op = none) (hr : op ≠ 0x0B) (hw : op ≠ 0x02)
    (hs : op ≠ 0x05) :
    execSpiUnknownOperation op s = .next (s.putSpi { s.hosts.spi with op := some .unknown, out := [0] }) := by
  rw [execSpiUnknownOperation, if_neg]
  simpa [hp, ho, and_assoc] using And.intro hr (And.intro hw hs)

end

/-! ## Completions (07 R205, R217) -/

/-- Transaction `id` is one that an endpoint has taken and that still awaits its completion. -/
def awaitsHost (id : Nat) (t : Txn) : Bool :=
  t.id == id && decide (64 ≤ portOf t.addr) && decide (portOf t.addr < 68) && !t.lost

theorem execPcieCompletion_answers {id : Nat} {data : List (BitVec 256)} {t : Txn} {s : State}
    (ht : s.spine.taken.find? (awaitsHost id) = some t) (hlen : t.kind = .read → data.length = t.beats.length) :
    execPcieCompletion id data s = .next (s.answerTxn t (t.okBeats data)) := by
  unfold awaitsHost at ht
  rw [execPcieCompletion, ht]
  cases hk : t.kind with
  | read => simp [hk, hlen hk, Txn.okBeats]
  | _ => simp [hk, Txn.okBeats]

theorem execPcieCompletionTimeout_answers {id : Nat} {t : Txn} {s : State}
    (ht : s.spine.taken.find? (awaitsHost id) = some t) :
    execPcieCompletionTimeout id s = .next (s.answerTxn t (t.reject .timeout)) := by
  unfold awaitsHost at ht
  rw [execPcieCompletionTimeout, ht]

/-- Settles O12: a TLP meets the endpoint as its power state has it (`execBarTlp_served`, `execBarTlp_unsupported`), an
SPI operation begins outside a transaction or, for a later word of a WRITE, goes on in its own, and a completion answers
the transaction that awaits it. Unsupported Request and AER in D3hot are log entry 37; that an SPI operation ends only
when MSPI_CS_N rises is log entry 40. -/
theorem hostTransfersComplete : Obligations.HostTransfersComplete := by
  unfold Obligations.HostTransfersComplete
  refine ⟨?served, ?unsupported, ?read, ?firstWord, ?laterWord, ?status, ?unknown, ?csRise, ?completion, ?timeout⟩
  case served =>
    rintro k bar offset write ds _ s hp hl he rfl h
    rw [exec_barTlp, execBarTlp_served offset write ds hp hl he h, State.outOfL1]
  case unsupported =>
    rintro k bar offset write ds _ s hp hl he rfl hd hb
    rw [exec_barTlp, execBarTlp_unsupported offset write ds hp hl he hd hb, State.outOfL1]
  case read =>
    intro addr words late s hp ho
    rw [exec_spiRead, execSpiRead_begins hp addr words late ho]
  case firstWord =>
    intro addr data s hp ho
    rw [exec_spiWriteWord, execSpiWriteWord_first hp addr data ho]
  case laterWord =>
    intro addr data s hp ho
    rw [exec_spiWriteWord, execSpiWriteWord_later hp addr data ho]
  case status =>
    intro s hp ho
    rw [exec_spiStatus, execSpiStatus_begins hp ho]
  case unknown =>
    intro op s hp ho hr hw hs
    rw [exec_spiUnknownOperation, execSpiUnknownOperation_begins hp ho hr hw hs]
  case csRise =>
    intro s
    rw [exec_spiCsRise]
  case completion =>
    intro id data t s ht hlen
    rw [exec_pcieCompletion, execPcieCompletion_answers ht hlen]
  case timeout =>
    intro id t s ht
    rw [exec_pcieCompletionTimeout, execPcieCompletionTimeout_answers ht]

end Sys2Proof.Machine
end

section
/-! Packets and the commands that answer at once (02 R69 to R73): a packet taken in turn, NOP, and the host attachment
record read and committed. -/

namespace Sys2Proof.Machine

theorem exec_packetStart (s : State) : exec .packetStart s = execPacketStart s := rfl

theorem exec_nop (m : Fin 5) (s : State) : exec (.nop m) s = execNop m s := rfl

theorem exec_hostAttachGet (m : Fin 5) (s : State) : exec (.hostAttachGet m) s = execHostAttachGet m s := rfl

theorem exec_hostAttachSet (m : Fin 5) (fails0 fails1 : Nat) (s : State) :
    exec (.hostAttachSet m fails0 fails1) s = execHostAttachSet m fails0 fails1 s := rfl

theorem execPacketStart_takes {m : Nat} {s : State} (ht : s.takesPackets = true) (hm : s.nextMailbox = some m) :
    execPacketStart s = .next (s.takePacket m) := by
  simp [execPacketStart, ht, hm]

/-- HOST_ATTACH_SET of four words that R73 permits commits the record as item 1 of the journal. -/
theorem execHostAttachSet_commits {m : Fin 5} {fails0 fails1 : Nat} {p : Packet} {s u : State}
    (hc : CommandRuns s m 0x0F p) (hw : ∀ i < 4, attachmentWord (p.p i) = true)
    (hj : JournalTakes s 1 (wordBytes (p.params.take 4)) fails0 fails1 u) :
    execHostAttachSet m fails0 fails1 s = .next ((u.commitOwner 0x01 fails0 fails1).reply m St.ok) := by
  have hall : ((List.range 4).all fun i => attachmentWord (p.p i)) = true :=
    List.all_eq_true.2 fun i hi => hw i (List.mem_range.1 hi)
  rw [execHostAttachSet, command_runs s m 0x0F p _ hc, hall, replyJournal_takes s u m 1 _ _ _ hj]
  rfl

/-- Settles O14: the packet in turn is taken (`execPacketStart_takes`), and each command that runs acts as its row says
(`command_runs`); HOST_ATTACH_SET leaves the record to the journal (`execHostAttachSet_commits`). -/
theorem packetsStartAndSimpleCommandsReply : Obligations.PacketsStartAndSimpleCommandsReply := by
  unfold Obligations.PacketsStartAndSimpleCommandsReply
  refine ⟨?start, ?nop, ?get, ?set⟩
  case start =>
    intro m s ht hm
    rw [exec_packetStart, execPacketStart_takes ht hm]
  case nop =>
    intro m p s hc
    rw [exec_nop, execNop, command_runs s m 0x00 p _ hc]
  case get =>
    intro m p s hc
    rw [exec_hostAttachGet, execHostAttachGet, command_runs s m 0x0E p _ hc]
  case set =>
    intro m fails0 fails1 p u s hc hw hj
    rw [exec_hostAttachSet, execHostAttachSet_commits hc hw hj]

end Sys2Proof.Machine
end

section
/-! Region ports, boundary channels and the watchdog (03 R87, R105 to R113; 07 R222, R225 to R227): the beats of requests
and answers, the two timers of the target side, resynchronisation, the opening of a channel, a detected stall, and the
statement of the region ports. -/

namespace Sys2Proof.Machine

theorem exec_iniReq (p dtag : Fin 64) (write : Bool) (addr : BitVec 48) (offered : IniBeats) (s : State) :
    exec (.iniReq p dtag write addr offered) s = execIniReq p dtag write addr offered s := rfl

theorem exec_tgtRsp (p : Fin 64) (code : Fin 16) (offered : RspBeats) (s : State) :
    exec (.tgtRsp p code offered) s = execTgtRsp p code offered s := rfl

theorem exec_targetResponseTimeout (p : Fin 64) (s : State) :
    exec (.targetResponseTimeout p) s = execTargetResponseTimeout p s := rfl

theorem exec_ingressWaitTimeout (p : Fin 64) (s : State) :
    exec (.ingressWaitTimeout p) s = execIngressWaitTimeout p s := rfl

theorem exec_resyncAck (p : Fin 64) (s : State) : exec (.resyncAck p) s = execResyncAck p s := rfl

theorem exec_channelReopen (c : Fin 24) (s : State) : exec (.channelReopen c) s = execChannelReopen c s := rfl

theorem exec_stallDetect (x : StallUnit) (s : State) : exec (.stallDetect x) s = execStallDetect x s := rfl

/-! ## Requests and answers (R106, R107, R109, R110) -/

section
variable {p : Fin 64} {s : State}

/-- The beats belong to the request that is open, or open one that READY lets in. -/
theorem execIniReq_transfers {dtag : Fin 64} {write : Bool} {addr : BitVec 48} {offered : IniBeats} {o : IniOpen}
    (hr : s.portReady p = true) (ho : s.openRequest p dtag write addr.toNat (offered.count.val + 1) = some o) :
    execIniReq p dtag write addr offered s = .next (s.transferIni p o offered.beats) := by
  simp [execIniReq, hr, ho]

/-- The oldest delivered request still waits for its answer, and RESYNC_ACK is not owed. -/
theorem execTgtRsp_transfers {id : Nat} {rest : List (Option Nat)} {t : Txn} (code : Fin 16) (offered : RspBeats)
    (hrun : s.regionRuns (p.val / 4) = true) (hclk : s.portClocked p = true) (hsync : (s.port p).resync = false)
    (hd : (s.port p).delivered = some id :: rest) (ht : s.takenTxn id = some t) :
    execTgtRsp p code offered s =
      .next (s.transferAnswer p t rest (answerBeats code offered.data) offered.last) := by
  simp [execTgtRsp, hrun, hclk, hsync, hd, ht]

/-! ## Timers and RESYNC_ACK (R110, R113; 07 R222) -/

theorem execTargetResponseTimeout_answers {id : Nat} {t : Txn} (hn : (s.port p).answering = none)
    (ho : (s.port p).owed = some id) (ht : s.takenTxn id = some t) :
    execTargetResponseTimeout p s = .next (((s.putPort p { s.port p with
      delivered := (s.port p).delivered.map fun d => if d = some id then none else d
      req := (s.port p).req.filter (·.1 ≠ id) }).bump .SPN_RP_TO_TGT_TIMEOUT p).answerTxn t (t.reject .timeout)) := by
  simp [execTargetResponseTimeout, hn, ho, ht]

theorem execIngressWaitTimeout_answers {t : Txn} (hp : s.mode ≠ .off)
    (hf : (s.flowRequests.spine.ingress.find? fun x => portOf x.addr == p.val) = some t)
    (hc : s.flowRequests.regionCheck t.owner (p.val / 4) p = .ok) :
    execIngressWaitTimeout p s =
      .next ((s.flowRequests.bump .SPN_RP_TO_TGT_TIMEOUT p).answerTxn t (t.reject .timeout)) := by
  have hon : s.flowRequests.coreOn = true := by simpa using hp
  simp [execIngressWaitTimeout, hf, hon, hc]

theorem execResyncAck_frees (hrun : s.regionRuns (p.val / 4) = true) (hsync : (s.port p).resync = true) :
    execResyncAck p s = .next (s.putPort p { s.port p with
      resync := false, delivered := [], busy := [], opened := none, answering := none }) := by
  simp [execResyncAck, hrun, hsync]

end

/-! ## Boundary channels (R87) -/

/-- The conditions of R87 on one region of a channel, but for the cells that enable its side. -/
structure JoinsChannels (s : State) (k : Nat) : Prop where
  loaded : s.loaded k = true
  unfenced : s.fenced k = false
  lit : s.regionDark k = false

/-- Between two regions of one parent that join channels, the cells of both sides decide. -/
theorem channelMayOpen_iff_enabled {c : Fin 24} {s : State} {a ea b eb : Nat}
    (hsides : channelSides c = ((a, ea), (b, eb))) (hon : s.coreOn = true) (ha : JoinsChannels s a) (hb : JoinsChannels s b) (hparent : s.parent a = s.parent b) :
    s.channelMayOpen c = true ↔ s.channelEnabled a ea = true ∧ s.channelEnabled b eb = true := by
  have hp : s.mode ≠ .off := (coreOn_iff s).1 hon
  simp [State.channelMayOpen, hsides, hp, ha.loaded, ha.unfenced, ha.lit, hb.loaded, hb.unfenced, hb.lit, hparent]

/-- A channel opens where the conditions of R87 hold, and stays as it is elsewhere. -/
theorem execChannelReopen_eq (c : Fin 24) (s : State) :
    execChannelReopen c s = .next (if s.channelMayOpen c then s.putChannel c true else s) := by
  rw [execChannelReopen]
  split <;> rfl

/-! ## Stalls (07 R225 to R227) -/

/-- The state in which the watchdog finds a unit: an ingress queue holds what the request plane has brought it. -/
def State.atWatch (s : State) : StallUnit → State
  | .ingress _ => s.flowRequests
  | .hop .. => s

theorem atWatch_mode (s : State) (x : StallUnit) : (s.atWatch x).mode = s.mode := by
  cases x with
  | hop n i plane => rfl
  | ingress p => exact flowRequests_mode s

theorem execStallDetect_eq (x : StallUnit) (s : State) :
    execStallDetect x s = .next (if s.mode ≠ .off ∧ watched x = true ∧ x ∉ (s.atWatch x).spine.isolated ∧
      (s.atWatch x).waitsAt x = true then ((s.atWatch x).stall x).huStall x else s.atWatch x) := by
  have hview : execStallDetect x s = if (s.atWatch x).coreOn && watched x &&
      !(s.atWatch x).spine.isolated.contains x && (s.atWatch x).waitsAt x then
      .next (((s.atWatch x).stall x).huStall x) else .next (s.atWatch x) := by
    cases x <;> rfl
  rw [hview]
  simp only [Bool.and_eq_true, coreOn_iff, atWatch_mode, Bool.not_eq_true', List.contains_eq_mem,
    decide_eq_false_iff_not, and_assoc]
  split <;> rfl

/-- A watched unit that is not isolated, and at which something waits, is recorded and isolated. -/
theorem execStallDetect_isolates {x : StallUnit} {s : State} (hp : s.mode ≠ .off) (hw : watched x = true)
    (hi : x ∉ (s.atWatch x).spine.isolated) (hx : (s.atWatch x).waitsAt x = true) :
    execStallDetect x s = .next (((s.atWatch x).stall x).huStall x) := by
  rw [execStallDetect_eq, if_pos ⟨hp, hw, hi, hx⟩]

/-- Settles O9: each command of a region port completes under its conditions, a channel opens as the cells of both sides
say (`channelMayOpen_iff_enabled`), and a stall isolates its unit (`execStallDetect_isolates`). That two regions without
a parent count as having the same is log entry 92, that requests and answers cross whole is entry 44, and that the
request plane moves when a command looks (`State.flowRequests`) is entry 11. -/
theorem regionPortsAnswer : Obligations.RegionPortsAnswer := by
  unfold Obligations.RegionPortsAnswer
  refine ⟨?request, ?answer, ?responseTimer, ?ingressTimer, ?resync, ?reopen, ?staysClosed, ?hop, ?ingress⟩
  case request =>
    intro p dtag write addr offered o s hr ho
    rw [exec_iniReq, execIniReq_transfers hr ho]
  case answer =>
    intro p code offered id rest t s hrun hclk hsync hd ht
    rw [exec_tgtRsp, execTgtRsp_transfers code offered hrun hclk hsync hd ht]
  case responseTimer =>
    intro p id t s hn ho ht
    rw [exec_targetResponseTimeout, execTargetResponseTimeout_answers hn ho ht]
  case ingressTimer =>
    rintro p _ t s hp rfl hf hc
    rw [exec_ingressWaitTimeout, execIngressWaitTimeout_answers hp hf hc]
  case resync =>
    intro p s hrun hsync
    rw [exec_resyncAck, execResyncAck_frees hrun hsync]
  case reopen =>
    intro c a ea b eb s hsides hon hla hlb hfa hfb hda hdb hparent
    simp only [exec_channelReopen, execChannelReopen_eq,
      channelMayOpen_iff_enabled hsides hon ⟨hla, hfa, hda⟩ ⟨hlb, hfb, hdb⟩ hparent]
  case staysClosed =>
    intro c s h
    simp [exec_channelReopen, execChannelReopen_eq, h]
  case hop =>
    intro n i plane s hp hw hi hx
    rw [exec_stallDetect]
    exact execStallDetect_isolates hp hw hi hx
  case ingress =>
    rintro p _ s hp rfl hw hi hx
    rw [exec_stallDetect]
    exact execStallDetect_isolates hp hw hi hx

end Sys2Proof.Machine
end

section
/-! A clock edge of a region's fabric (03 R76 to R106; 15 R437; 20 R518, R522): what comes in with the edge, what the
region's tracks clock from the values before it, and the statement of the edge. -/

namespace Sys2Proof.Machine

theorem exec_fabricClockEdge (k : Fin 16) (rising falling : List ClockSource) (pads : BitVec 32) (lanes : List LaneEdge)
    (rspReady reqReady : List (Fin 64)) (s : State) :
    exec (.fabricClockEdge k rising falling pads lanes rspReady reqReady) s =
      execFabricClockEdge k rising falling pads lanes rspReady reqReady s := rfl

/-- What comes in to region k with an edge, whether or not its clocks run: the words on its lanes' lines and the levels at
its pads (log entry 105). -/
def State.edgeArrivals (s : State) (k : Nat) (pads : BitVec 32) (lanes : List LaneEdge) : State :=
  ((lanes.filter fun e => laneRegion e.lane.val == k).foldl State.laneEdge s).samplePads k pads

/-- Region k's input paths before the edge: pins without an input register follow their pads. -/
def State.sampleBank (s : State) (k : Nat) (pads : BitVec 32) : State :=
  (bankPins k).foldl (fun x n => x.samplePad n pads) s

/-- The registers of region k's general pins in `t` at an edge, from the signals and the tracks' edges in `s`. -/
def State.clockBank (s t : State) (k : Nat) (rising falling : List ClockSource) (pads : BitVec 32) : State :=
  (bankPins k).foldl (fun x n => s.clockPin x k n (s.trackEdge rising k (s.gioPin n).track)
    (s.trackEdge falling k (s.gioPin n).track) pads) t

/-- The ports of region k in `t` whose track rises by what stands in `s`, each in the directions in which its design is
ready. -/
def State.clockPorts (s t : State) (k : Nat) (rising : List ClockSource) (rspReady reqReady : List (Fin 64)) : State :=
  (s.edgePorts k rising).foldl (fun x p => x.clockPort rspReady reqReady p) t

/-- All that region k's tracks clock at an edge: elements, pins and lanes take the values in `s`, and what stands there
decides which ports have an edge. -/
def State.clockRegion (s : State) (k : Nat) (rising falling : List ClockSource) (pads : BitVec 32)
    (rspReady reqReady : List (Fin 64)) : State :=
  s.clockPorts (s.clockLanes (s.clockBank (s.clockElements k rising) k rising falling pads) k rising) k rising
    rspReady reqReady

section
variable {k : Fin 16} {pads : BitVec 32} {lanes : List LaneEdge} {s : State} (rising falling : List ClockSource)
  (rspReady reqReady : List (Fin 64)) (hon : s.coreOn = true)
include hon

theorem execFabricClockEdge_running (hrun : (s.edgeArrivals k pads lanes).regionRuns k = true) :
    execFabricClockEdge k rising falling pads lanes rspReady reqReady s =
      .next ((((s.edgeArrivals k pads lanes).sampleBank k pads).clockRegion k rising falling pads rspReady
        reqReady).spend.drivePins k rising falling) := by
  unfold State.edgeArrivals at hrun
  rw [execFabricClockEdge, if_neg (by rw [hon]; decide), if_neg (by rw [hrun]; decide)]
  rfl

theorem execFabricClockEdge_stopped (hrun : (s.edgeArrivals k pads lanes).regionRuns k = false) :
    execFabricClockEdge k rising falling pads lanes rspReady reqReady s = .next (s.edgeArrivals k pads lanes) := by
  unfold State.edgeArrivals at hrun
  rw [execFabricClockEdge, if_neg (by rw [hon]; decide), if_pos (by rw [hrun]; decide)]
  rfl

end

/-- Settles O46: what comes in is there in either case (`State.edgeArrivals`); with running clocks all that the region's
tracks clock moves from the values before the edge (`State.clockRegion`), and the pins follow. Sources and edges as
operands, rising edges for every element and pads sampled without clocks are log entries 49, 93 and 105. -/
theorem fabricClockEdgeMovesTheDesign : Obligations.FabricClockEdgeMovesTheDesign := by
  unfold Obligations.FabricClockEdgeMovesTheDesign
  refine ⟨?running, ?stopped⟩
  case running =>
    rintro k rising falling pads lanes rspReady reqReady _ _ _ _ s hon rfl hrun rfl rfl rfl
    rw [exec_fabricClockEdge]
    exact execFabricClockEdge_running rising falling rspReady reqReady hon hrun
  case stopped =>
    rintro k rising falling pads lanes rspReady reqReady _ s hon rfl hrun
    rw [exec_fabricClockEdge]
    exact execFabricClockEdge_stopped rising falling rspReady reqReady hon hrun

end Sys2Proof.Machine
end

section
/-! Loads (05 R156 to R173; 19 R512): the checks of an image, its chunks and frames, completion, wipes, the fallback to Gold,
entry into RUN, reloads, and the statement of the loads. -/

namespace Sys2Proof.Machine

theorem exec_imageCheck (bad : List (Nat × List Nat)) (s : State) :
    exec (.imageCheck bad) s = execImageCheck bad s := rfl

theorem exec_chunkArrival (i : Nat) (bad : List (Nat × List Nat)) (s : State) :
    exec (.chunkArrival i bad) s = execChunkArrival i bad s := rfl

theorem exec_frameWrite (k : Fin 16) (misses : Fin 4) (s : State) :
    exec (.frameWrite k misses) s = execFrameWrite k misses s := rfl

theorem exec_loadComplete (k : Fin 16) (s : State) : exec (.loadComplete k) s = execLoadComplete k s := rfl

theorem exec_wipeDone (k : Fin 16) (s : State) : exec (.wipeDone k) s = execWipeDone k s := rfl

theorem exec_goldFallback (s : State) : exec .goldFallback s = execGoldFallback s := rfl

theorem exec_runEntry (s : State) : exec .runEntry s = execRunEntry s := rfl

theorem exec_ldReload (m : Fin 5) (bad : List (Nat × List Nat)) (s : State) :
    exec (.ldReload m bad) s = execLdReload m bad s := rfl

theorem exec_reloadFence (s : State) : exec .reloadFence s = execReloadFence s := rfl

section
variable {s : State}

/-! ## Checks and chunks (R158 to R160) -/

section
variable (bad : List (Nat × List Nat)) (hl : s.loads = true)
include hl

theorem execImageCheck_checks {i : Nat} {j : LoadJob} (hi : s.loader.jobs.findIdx? (·.header.isNone) = some i)
    (hj : s.loader.jobs[i]? = some j) (hp : s.programmingEntry (s.jobEntry j) = false) :
    execImageCheck bad s = .next (s.checkJob i j bad) := by
  simp [execImageCheck, hl, hi, hj, hp]

theorem execImageCheck_checks_stream (hi : s.loader.jobs.findIdx? (·.header.isNone) = none)
    (hr : s.streamReady = true) (hm : s.mode = .run ∨ s.failedBoot = true) :
    execImageCheck bad s = .next s.checkStream := by
  simp [execImageCheck, hl, hi, hr, hm]

theorem execChunkArrival_takes {i : Nat} {j : LoadJob} {h : Header} (hj : s.loader.jobs[i]? = some j)
    (hh : j.header = some h) (hn : j.next < h.chunkCount) (hp : ∀ b ∈ s.jobBanks j, s.programmingBank b = false) :
    execChunkArrival i bad s = .next (s.takeChunk i j h bad) := by
  have hidle : (s.jobBanks j).any s.programmingBank = false := by simpa using hp
  simp [execChunkArrival, hl, hj, hh, hn, hidle]

end

/-! ## Frames and completion (R161 to R163) -/

section
variable {k : Fin 16} {f : FrameWord} {rest : List FrameWord} (hw : (s.writer k).waiting = f :: rest)
  (hl : s.loads = true) (hk : s.regionState k = 2)
include hw hl hk

/-- The writer goes on unless the frame it writes next has failed its third confirmation. -/
theorem execFrameWrite_writes {misses : Fin 4} (hm : misses.val < 3 ∨ (s.writer k).next = none) :
    execFrameWrite k misses s = .next (s.writeFrame k (s.writer k) f) := by
  cases hn : (s.writer k).next with
  | none => simp [execFrameWrite, hw, hl, hk, hn]
  | some g =>
    have hlt : misses.val < 3 := hm.resolve_right (by simp [hn])
    simp [execFrameWrite, hw, hl, hk, hn, Nat.not_le.2 hlt]

theorem execFrameWrite_aborts {g : FrameWord} (hn : (s.writer k).next = some g) :
    execFrameWrite k 3 s = .next ((s.abortRegion k St.unstable 6 g.chunk g.record).settleJobs) := by
  simp [execFrameWrite, hw, hl, hk, hn]

end

theorem execLoadComplete_completes {k : Fin 16} {i : Nat} {j : LoadJob} {h : Header} (hl : s.loads = true)
    (hw : s.allWritten k = true)
    (hi : (s.loader.jobs.findIdx? fun j => j.header.isSome && j.regions.contains k.val) = some i)
    (hj : s.loader.jobs[i]? = some j) (hh : j.header = some h) :
    execLoadComplete k s = .next ((s.completeLoad k i j h).settleJob i) := by
  obtain ⟨⟩ := j
  subst hh
  simp only [execLoadComplete, hl, hw, hi, hj]
  rfl

/-! ## Wipes, the fallback, RUN (R156, R164, R166) -/

theorem execWipeDone_ends {k : Fin 16} (hl : s.loads = true) (hk : s.regionState k = 4) :
    execWipeDone k s =
      .next (((s.wipeCells k).setRegion k (if (s.fence k).abort then 5 else 0)).settleHandovers) := by
  simp [execWipeDone, hl, hk]

theorem execGoldFallback_loads {t u : State} (hm : s.mode = .boot) (hf : s.loader.fallback = true)
    (hr : (List.range 16).any s.loading = false)
    (ht : t = (s.put .CFG_BOOT_STAT_ENTRY (if s.goldEntry = 0xFE then 0xFF else s.goldEntry)).putFlag
      .CFG_BOOT_STAT_STYLE false)
    (hu : u = (t.startPlls ((((t.systemItem 3).getD []).drop 512).take 512)).forEach (List.range 16)
      fun v k => v.setRegion k 1) :
    execGoldFallback s = .next (u.setLoader { u.loader with
      fallback := false, jobs := [{ kind := .gold, entry := s.goldEntry, regions := List.range 16 }] }) := by
  have hdue : ¬ (s.mode != .boot || !s.loader.fallback || (List.range 16).any s.loading) = true := by
    rw [hm, hf, hr]
    decide
  rw [execGoldFallback, if_neg hdue]
  simp only [← ht, ← hu]

theorem execRunEntry_enters (hd : s.loadsDone = true) (hc : s.flag .NRG_STAT_CHARGED = true) :
    execRunEntry s = .next (((s.put .CFG_BOOT_STAT_STATE 4).put .CFG_BOOT_TIME_TIME
      (min (s.now / 1000) 0xFF_FFFF)).setMode .run) := by
  simp [execRunEntry, hd, hc]

/-! ## Reloads (R170 to R173) -/

/-- The job of an LD_RELOAD whose image has passed its checks. -/
def reloadJob (m : Nat) (p : Packet) (c : ImageCheck) : LoadJob :=
  { kind := .reload, entry := p.p 0, regions := regionsOf (p.p 1), header := some c.header, mailbox := some m
    ident := c.ident }

theorem execLdReload_checks {m : Fin 5} {bad : List (Nat × List Nat)} {p : Packet} {t : State} {c : ImageCheck}
    (hc : CommandRuns s m 0x11 p) (he : p.p 0 < 64) (hmask : 0 < p.p 1 ∧ p.p 1 < 65536)
    (hst : s.reloadStatus p.acts (regionsOf (p.p 1)) = St.ok) (hv : (s.directory.at (p.p 0)).state = 2)
    (hcarries : ∀ k ∈ regionsOf (p.p 1), (s.directory.at (p.p 0)).mask.testBit k = true)
    (hp : s.programmingEntry (s.directory.at (p.p 0)) = false)
    (hcheck : s.checkStored (segmentBlock (s.directory.at (p.p 0)).slot (s.directory.at (p.p 0)).segment) bad
      (s.directory.at (p.p 0)).agrees = (t, c)) :
    execLdReload m bad s = .next (if c.status ≠ St.ok then
        (t.noteCheckFail (regionsOf (p.p 1)) c.status c.stage).reply m c.status
      else (t.setLoader { t.loader with reloads := t.loader.reloads ++ [(p.acts, reloadJob m p c)] }).await m p
        .load) := by
  have hshape : ¬ ((256 ≤ p.p 0 ∨ 65536 ≤ p.p 1) ∨ p.p 1 = 0) := by omega
  have hall : (regionsOf (p.p 1)).all (s.directory.at (p.p 0)).mask.testBit = true := List.all_eq_true.2 hcarries
  rw [execLdReload, command_runs s m 0x11 p _ hc]
  simp [hshape, Nat.not_le.2 he, hst, hv, hall, hp, hcheck, reloadJob]

section
variable {o : Nat} {j : LoadJob} {rest : List (Nat × LoadJob)} {t : State}
  (hr : s.loader.reloads = (o, j) :: rest) (hm : s.mode = .run)
  (ht : t = s.setLoader { s.loader with reloads := rest }) (ho : t.power.orderly = none)
include hr hm ht ho

theorem execReloadFence_starts {u : State} (hst : t.reloadStatus o j.regions = St.ok)
    (hu : u = (t.setLoader { t.loader with jobs := t.loader.jobs ++ [j] }).beginRegions j) :
    execReloadFence s = .next (match j.mailbox with
      | some m => u.reply m St.ok
      | none => u) := by
  simp only [execReloadFence, hr, hm, ← ht, ho, hst, ← hu] <;> rfl

theorem execReloadFence_refuses (hst : t.reloadStatus o j.regions ≠ St.ok) :
    execReloadFence s = .next (t.refuseReload j (t.reloadStatus o j.regions)) := by
  simp only [execReloadFence, hr, hm, ← ht, ho]
  exact if_pos hst

end

end

/-- Settles O40: each step of a load completes under its conditions. What a job reads is checked or taken
(`execImageCheck_checks`, `execChunkArrival_takes`), a writer goes on or its region is aborted
(`execFrameWrite_writes`,
`execFrameWrite_aborts`), and LD_RELOAD queues the reload that its fence starts or refuses. That chunks arrive one by
one, that a wipe is one step per region and that FRAME_WRITE carries its failed confirmations are log entries 55 to 57. -/
theorem loadsRunFromChecksToRun : Obligations.LoadsRunFromChecksToRun := by
  unfold Obligations.LoadsRunFromChecksToRun
  refine ⟨?image, ?stream, ?chunk, ?frame, ?abort, ?complete, ?wipe, ?gold, ?run, ?reload, ?fence, ?refusal⟩
  case image =>
    intro bad i j s hl hi hj hp
    rw [exec_imageCheck, execImageCheck_checks bad hl hi hj hp]
  case stream =>
    intro bad s hl hi hr hm
    rw [exec_imageCheck, execImageCheck_checks_stream bad hl hi hr hm]
  case chunk =>
    intro i bad j h s hl hj hh hn hp
    rw [exec_chunkArrival, execChunkArrival_takes bad hl hj hh hn hp]
  case frame =>
    intro k misses f rest s hw hl hk hm
    rw [exec_frameWrite, execFrameWrite_writes hw hl hk hm]
  case abort =>
    intro k f g rest s hw hl hk hn
    rw [exec_frameWrite, execFrameWrite_aborts hw hl hk hn]
  case complete =>
    intro k i j h s hl hw hi hj hh
    rw [exec_loadComplete, execLoadComplete_completes hl hw hi hj hh]
  case wipe =>
    intro k s hl hk
    rw [exec_wipeDone, execWipeDone_ends hl hk]
  case gold =>
    rintro _ t u s hm hf hr rfl ht hu
    rw [exec_goldFallback, execGoldFallback_loads hm hf hr ht hu]
  case run =>
    intro s hd hc
    rw [exec_runEntry, execRunEntry_enters hd hc]
  case reload =>
    rintro m bad p _ t c s hc he hmask hst rfl hv hcarries hp hcheck
    rw [exec_ldReload]
    exact execLdReload_checks hc he hmask hst hv hcarries hp hcheck
  case fence =>
    intro o j rest t u s hr hm ht ho hst hu
    rw [exec_reloadFence]
    exact execReloadFence_starts hr hm ht ho hst hu
  case refusal =>
    intro o j rest t s hr hm ht ho hst
    rw [exec_reloadFence, execReloadFence_refuses hr hm ht ho hst]

end Sys2Proof.Machine
end

section
/-! The image directory (05 R174 to R179; 19 R508): what each directory and Gold command does with parameters that allow it,
and the statement of the image commands. -/

namespace Sys2Proof.Machine

theorem exec_imgDirRead (m : Fin 5) (s : State) : exec (.imgDirRead m) s = execImgDirRead m s := rfl

theorem exec_imgAlloc (m : Fin 5) (s : State) : exec (.imgAlloc m) s = execImgAlloc m s := rfl

theorem exec_imgWrite (m : Fin 5) (s : State) : exec (.imgWrite m) s = execImgWrite m s := rfl

theorem exec_imgCommit (m : Fin 5) (bad : List (Nat × List Nat)) (s : State) :
    exec (.imgCommit m bad) s = execImgCommit m bad s := rfl

theorem exec_imgSetState (m : Fin 5) (s : State) : exec (.imgSetState m) s = execImgSetState m s := rfl

theorem exec_imgSelect (m : Fin 5) (s : State) : exec (.imgSelect m) s = execImgSelect m s := rfl

theorem exec_imgRegionSelect (m : Fin 5) (s : State) : exec (.imgRegionSelect m) s = execImgRegionSelect m s := rfl

theorem exec_lcGoldWrite (m : Fin 5) (s : State) : exec (.lcGoldWrite m) s = execLcGoldWrite m s := rfl

theorem exec_lcGoldCommit (m : Fin 5) (bad : List (Nat × List Nat)) (s : State) :
    exec (.lcGoldCommit m bad) s = execLcGoldCommit m bad s := rfl

/-! ## Fields of a parameter word -/

/-- The field of a word that holds `x` above `low` and below `high`. -/
theorem bitsOf_of_fields {v low x lo w : Nat} (high : Nat) (hlow : low < 2 ^ lo) (hx : x < 2 ^ w)
    (hv : v = low + 2 ^ lo * (x + 2 ^ w * high)) : bitsOf v lo w = x := by
  rw [hv, bitsOf, Nat.add_mul_div_left _ _ (Nat.two_pow_pos lo), Nat.div_eq_of_lt hlow, Nat.zero_add,
    Nat.add_mul_mod_self_left, Nat.mod_eq_of_lt hx]

/-! ## Units of other mailboxes -/

/-- No other mailbox works unit by unit on a command of which `f` holds. -/
theorem unitRunning_eq_false {s : State} {m : Nat} {f : Packet → Bool}
    (h : ∀ i < 5, i ≠ m → ∀ q, s.running i = some q → q.wait = .unit → f q = false) : s.unitRunning m f = false := by
  rw [State.unitRunning, List.any_eq_false]
  intro i hi hany
  simp only [Bool.and_eq_true, bne_iff_ne, Option.any_eq_true, beq_iff_eq] at hany
  obtain ⟨hne, q, hq, hwait, hf⟩ := hany
  simp [h i (List.mem_range.1 hi) hne q hq hwait] at hf

section
variable {s : State} {m : Fin 5} {p : Packet}

/-! ## Reading the directory, allocation (R174, R177) -/

theorem execImgDirRead_replies {first count : Nat} (hc : CommandRuns s m 0x10 p) (hp : p.p 0 = first + 256 * count)
    (hcount : 1 ≤ count ∧ count ≤ 16) (hend : first + count ≤ 64) :
    execImgDirRead m s = .next (s.reply m St.ok (twoWords s.directory.generation ++ [BitVec.ofNat 32
      (s.directory.bootEntry + 2 ^ 8 * s.directory.goldEntry + 2 ^ 16 * s.directory.bootStyle)] ++
      bytesWords (s.directory.regionEntry.map (BitVec.ofNat 8 ·)) 4 ++ [0] ++
      (List.range count).flatMap fun i => bytesWords ((s.directory.at (first + i)).bytes) 12)) := by
  have hfirst : bitsOf (p.p 0) 0 6 = first :=
    bitsOf_of_fields (low := 0) (4 * count) (by omega) (by omega) (by omega)
  have hzero : bitsOf (p.p 0) 6 2 = 0 := bitsOf_of_fields (low := first) count (by omega) (by omega) (by omega)
  have hfield : bitsOf (p.p 0) 8 5 = count := bitsOf_of_fields (low := first) 0 (by omega) (by omega) (by omega)
  have hbound : ¬ (2 ^ 13 ≤ p.p 0 ∨ count = 0 ∨ 16 < count ∨ 64 < first + count) := by omega
  rw [execImgDirRead, command_runs s m 0x10 p _ hc]
  simp only [hfirst, hzero, hfield]
  rw [if_neg (by simpa [or_assoc] using hbound)]

/-- The lowest FREE entry becomes WRITING for segments that no entry holds. -/
theorem execImgAlloc_allocates {slot seg n e : Nat} {x : DirEntry} (hc : CommandRuns s m 0x12 p)
    (hp : p.p 0 = slot + 256 * seg + 65536 * n) (hslot : 1 ≤ slot ∧ slot ≤ 3)
    (hseg : 1 ≤ n ∧ seg + n ≤ 16 ∧ seg < 16) (hlen : p.p 1 ≤ n * 6291456)
    (hx : x = { state := 1, slot, segment := seg, segments := n, imageLen := p.p 1 })
    (hfree : ((List.range 64).find? fun i => (s.directory.at i).state == 0) = some e)
    (hclear : ∀ i < 64, (s.directory.at i).state ≠ 0 → entriesOverlap (s.directory.at i) x = false) :
    execImgAlloc m s =
      .next (s.updateDirectory m p { s.directory with entry := s.directory.entry.set e x } [e]) := by
  have hslotField : bitsOf (p.p 0) 0 2 = slot :=
    bitsOf_of_fields (low := 0) (64 * seg + 16384 * n) (by omega) (by omega) (by omega)
  have hsegField : bitsOf (p.p 0) 8 4 = seg :=
    bitsOf_of_fields (low := slot) (16 * n) (by omega) (by omega) (by omega)
  have hnField : bitsOf (p.p 0) 16 5 = n :=
    bitsOf_of_fields (low := slot + 256 * seg) 0 (by omega) (by omega) (by omega)
  have hreserved : bitsOf (p.p 0) 2 6 = 0 ∧ bitsOf (p.p 0) 12 4 = 0 :=
    ⟨bitsOf_of_fields (low := slot) (seg + 256 * n) (by omega) (by omega) (by omega),
      bitsOf_of_fields (low := slot + 256 * seg) n (by omega) (by omega) (by omega)⟩
  have hbound : ¬ 2 ^ 21 ≤ p.p 0 := by omega
  have hshape : ¬ (slot = 0 ∨ n = 0 ∨ 16 < seg + n ∨ n * 6291456 < p.p 1) := by omega
  have hapart : ∀ i ∈ List.range 64, ((s.directory.at i).state != 0 && entriesOverlap (s.directory.at i) x) = false := by
    intro i hi
    simpa using hclear i (List.mem_range.1 hi)
  have hclash : (List.range 64).any (fun i => (s.directory.at i).state != 0 && entriesOverlap (s.directory.at i) x)
      = false := List.any_eq_false.2 fun i hi => by simp [hapart i hi]
  have hbusy : (List.range 64).any (fun i => ((s.directory.at i).state != 0 && entriesOverlap (s.directory.at i) x) &&
      s.entryInUse i) = false := List.any_eq_false.2 fun i hi => by simp [hapart i hi]
  rw [execImgAlloc, command_runs s m 0x12 p _ hc]
  simp only [hslotField, hreserved.1, hsegField, hreserved.2, hnField, hfree, ← hx, hbusy, hclash]
  rw [if_neg (by simpa using hbound), if_neg (by simpa [or_assoc] using hshape)]
  rfl

/-! ## Writing and committing an image (R174, R179) -/

theorem execImgWrite_starts (hc : CommandRuns s m 0x13 p) (he : p.p 0 < 64)
    (hw : (s.directory.at (p.p 0)).state = 1) (hptr : p.p 1 = SMap.look 0 s.loader.pointer (p.p 0))
    (hsrc : sourceShape (p.p64 2) (p.p 4) = true)
    (hlen : p.p 1 + p.p 4 ≤ (s.directory.at (p.p 0)).segments * 6291456)
    (hquiet : s.streaming (s.flashBank (segmentBlock (s.directory.at (p.p 0)).slot (s.directory.at (p.p 0)).segment +
      p.p 1 / 262144)) = false)
    (halone : ∀ i < 5, i ≠ m.val → ∀ q, s.running i = some q → q.wait = .unit → q.opcode = 0x13 → q.p 0 ≠ p.p 0) :
    execImgWrite m s = .next (s.startWrite m p
      (segmentBlock (s.directory.at (p.p 0)).slot (s.directory.at (p.p 0)).segment) (p.p 1 / 4096) (p.p64 2) (p.p 4)
      (s.locked (.slot (s.directory.at (p.p 0)).slot))) := by
  have hidle : (s.unitRunning m fun q => q.opcode == 0x13 && q.p 0 == p.p 0) = false :=
    unitRunning_eq_false fun i hi hne q hq hwait => by simpa using halone i hi hne q hq hwait
  rw [execImgWrite, command_runs s m 0x13 p _ hc]
  simp [he, hw, ← hptr, hsrc, hlen, hquiet, hidle]

theorem execImgCommit_checks {bad : List (Nat × List Nat)} {t : State} {c : ImageCheck}
    (hc : CommandRuns s m 0x14 p) (he : p.p 0 < 64) (hw : (s.directory.at (p.p 0)).state = 1)
    (hptr : (s.directory.at (p.p 0)).imageLen ≤ SMap.look 0 s.loader.pointer (p.p 0))
    (hn : s.loader.dirNext = none) (hp : s.programmingEntry (s.directory.at (p.p 0)) = false)
    (hcheck : (s.checkWhole (segmentBlock (s.directory.at (p.p 0)).slot (s.directory.at (p.p 0)).segment) bad fun h =>
      decide (h.imageLen ≤ SMap.look 0 s.loader.pointer (p.p 0)) &&
        decide (h.imageLen ≤ (s.directory.at (p.p 0)).segments * 6291456)) = (t, c)) :
    execImgCommit m bad s = .next (if c.status ≠ St.ok then t.reply m c.status
      else t.updateDirectory m p { s.directory with
        entry := s.directory.entry.set (p.p 0) ((s.directory.at (p.p 0)).commit c) } (identWords c.ident)) := by
  rw [execImgCommit, command_runs s m 0x14 p _ hc]
  simp [he, hw, hptr, hn, hp, hcheck]

/-! ## Freeing, retiring and selecting entries (R176, R178) -/

/-- IMG_SET_STATE of an entry that is neither selected nor in use, to a state it may take. -/
theorem execImgSetState_sets {e : Fin 64} {next : Nat} (hc : CommandRuns s m 0x15 p) (hp : p.p 0 = e.val + 256 * next)
    (hnext : next = 0 ∨ next = 3) (hgold : s.directory.goldEntry ≠ e.val) (hboot : s.directory.bootEntry ≠ e.val)
    (hregion : s.directory.regionEntry.contains e.val = false) (hused : s.entryInUse e = false)
    (hold : next = 3 → 2 ≤ (s.directory.at e).state) (hnew : next ≠ (s.directory.at e).state) :
    execImgSetState m s = .next (s.updateDirectory m p { s.directory with
      entry := s.directory.entry.set e (if next = 0 then freeEntry else { s.directory.at e with state := 3 }) } []) := by
  have he := e.isLt
  have hentry : bitsOf (p.p 0) 0 8 = e.val :=
    bitsOf_of_fields (low := 0) next (by omega) (by omega) (by omega)
  have hstate : bitsOf (p.p 0) 8 8 = next :=
    bitsOf_of_fields (low := e.val) 0 (by omega) (by omega) (by omega)
  have hbound : ¬ 65536 ≤ p.p 0 := by omega
  have hvalue : (next == 0 || next == 3) = true := by simpa using hnext
  have hallowed : ¬ (next = 3 ∧ (s.directory.at e).state < 2) := fun ⟨h3, hlt⟩ => absurd (hold h3) (by omega)
  rw [execImgSetState, command_runs s m 0x15 p _ hc]
  simp only [hentry, hstate]
  rw [if_neg (by simpa [Nat.not_le.1 hbound, he, hvalue, hgold, hboot] using hregion),
    if_neg (by simp [hused]), if_neg (by simpa using hallowed), if_neg hnew]

theorem execImgSelect_selects (hc : CommandRuns s m 0x16 p) (hp : p.p 0 < 512) :
    execImgSelect m s = .next (s.updateDirectory m p { s.directory with
      bootEntry := bitsOf (p.p 0) 0 8, bootStyle := bitsOf (p.p 0) 8 1 } []) := by
  rw [execImgSelect, command_runs s m 0x16 p _ hc, if_neg (Nat.not_le.2 hp)]

theorem execImgRegionSelect_selects (hc : CommandRuns s m 0x17 p) (hp : p.p 0 < 4096)
    (hmay : (p.acts = s.parent (bitsOf (p.p 0) 8 4) ∧ p.acts ≠ 0) ∨ s.isAdmin (mailOwner m) = true) :
    execImgRegionSelect m s = .next (s.updateDirectory m p { s.directory with
      regionEntry := s.directory.regionEntry.set (bitsOf (p.p 0) 8 4) (bitsOf (p.p 0) 0 8) } []) := by
  have hpasses : ((p.acts == s.parent (bitsOf (p.p 0) 8 4) && s.parent (bitsOf (p.p 0) 8 4) != 0) ||
      s.isAdmin (mailOwner m)) = true := by
    rcases hmay with ⟨hparent, hne⟩ | hadmin
    · simp [← hparent, hne]
    · simp [hadmin]
  rw [execImgRegionSelect, command_runs s m 0x17 p _ hc]
  simp only [hpasses]
  rw [if_neg (Nat.not_le.2 hp)]
  rfl

/-! ## Gold (19 R508) -/

theorem execLcGoldWrite_starts (hc : CommandRuns s m 0xA4 p) (hsrc : sourceShape (p.p64 1) (p.p 3) = true)
    (hlen : p.p 0 + p.p 3 ≤ 100663296) (hptr : p.p 0 = 0 ∨ s.goldPointer = some (p.p 0)) (hb : s.goldBusy = false)
    (hquiet : s.streaming (s.flashBank (p.p 0 / 262144)) = false)
    (halone : ∀ i < 5, i ≠ m.val → ∀ q, s.running i = some q → q.wait = .unit → q.opcode ≠ 0xA4) {t : State}
    (ht : t = s.startWrite m p 0 (p.p 0 / 4096) (p.p64 1) (p.p 3) (s.locked (.slot 0))) :
    execLcGoldWrite m s = .next (if ((t.running m).any fun q => q.wait == .unit) then t.setLoader { t.loader with
      goldTouched := SMap.putList false [] 0 (List.replicate 16 true) } else t) := by
  have hidle : s.unitRunning m (·.opcode == 0xA4) = false :=
    unitRunning_eq_false fun i hi hne q hq hwait => by simpa using halone i hi hne q hq hwait
  have hplace : ¬ (p.p 0 ≠ 0 ∧ s.goldPointer ≠ some (p.p 0)) := by tauto
  rw [execLcGoldWrite, command_runs s m 0xA4 p _ hc, ht]
  rw [if_neg (by simpa [hsrc, hlen] using hplace)]
  simp [hb, hquiet, hidle]

/-- The Gold entry as a commit of the image in slot 0 leaves it. -/
def goldCommitted (c : ImageCheck) : DirEntry :=
  DirEntry.commit { slot := 0, segment := 0, segments := (c.header.imageLen + 6291455) / 6291456 } c

/-- The directory that a Gold commit writes: without a consistent page one is created. -/
def State.goldDirectory (t : State) (c : ImageCheck) : Directory :=
  match t.loader.dir with
  | some d => { d with entry := d.entry.set d.goldEntry (goldCommitted c) }
  | none => { goldEntry := 0, entry := goldCommitted c :: List.replicate 63 {} }

theorem execLcGoldCommit_checks {bad : List (Nat × List Nat)} {t : State} {c : ImageCheck}
    (hc : CommandRuns s m 0xA5 p) (hb : s.goldBusy = false) (hn : s.loader.dirNext = none)
    (hp : s.programmingEntry { slot := 0, segment := 0, segments := 16 } = false)
    (hcheck : (s.checkWhole 0 bad fun h => h.imageType == 1 && decide (h.imageLen ≤ s.goldPointer.getD 0) &&
      decide (h.imageLen ≤ 100663296)) = (t, c)) :
    execLcGoldCommit m bad s = .next (if c.status ≠ St.ok then t.reply m c.status
      else t.updateDirectory m p (t.goldDirectory c) (identWords c.ident)) := by
  rw [execLcGoldCommit, command_runs s m 0xA5 p _ hc]
  simp only [hb, hn, hp, hcheck]
  rfl

end

/-- Settles O41: each command whose parameters allow it runs (`command_runs`) with the effect of its row; the packed fields
of a parameter are read by `bitsOf_of_fields`, and IMG_SET_STATE frees and retires by one rule (`execImgSetState_sets`).
That IMG_ALLOC takes the lowest FREE entry, and what a commit asks of the write pointer and the length, are log
entry 54. -/
theorem imageCommandsReply : Obligations.ImageCommandsReply := by
  unfold Obligations.ImageCommandsReply
  refine ⟨?read, ?alloc, ?write, ?commit, ?free, ?retire, ?select, ?selectRegion, ?writeGold, ?commitGold, ?createGold⟩
  case read =>
    rintro m p first count _ s hc hp hcount hend rfl
    rw [exec_imgDirRead, execImgDirRead_replies hc hp hcount hend]
  case alloc =>
    rintro m p slot seg n e _ x s hc hp hslot hseg hlen rfl hx hfree hclear
    rw [exec_imgAlloc, execImgAlloc_allocates hc hp hslot hseg hlen hx hfree hclear]
  case write =>
    rintro m p _ _ s hc he rfl hw hptr hsrc hlen rfl hquiet halone
    rw [exec_imgWrite, execImgWrite_starts hc he hw hptr hsrc hlen hquiet halone]
  case commit =>
    rintro m bad p _ t c s hc he rfl hw hptr hn hp hcheck
    rw [exec_imgCommit, execImgCommit_checks hc he hw hptr hn hp hcheck]
  case free =>
    intro m p e s hc hp hgold hboot hregion hused hstate
    rw [exec_imgSetState, execImgSetState_sets (next := 0) hc hp (.inl rfl) hgold hboot hregion hused (by simp)
      hstate.symm, if_pos rfl]
  case retire =>
    intro m p e s hc hp hgold hboot hregion hused hstate
    rw [exec_imgSetState, execImgSetState_sets (next := 3) hc hp (.inr rfl) hgold hboot hregion hused (by omega)
      (by omega), if_neg (by decide)]
  case select =>
    intro m p s hc hp
    rw [exec_imgSelect, execImgSelect_selects hc hp]
  case selectRegion =>
    intro m p s hc hp hmay
    rw [exec_imgRegionSelect, execImgRegionSelect_selects hc hp hmay]
  case writeGold =>
    intro m p t s hc hsrc hlen hptr hb hquiet halone ht
    rw [exec_lcGoldWrite, execLcGoldWrite_starts hc hsrc hlen hptr hb hquiet halone ht]
  case commitGold =>
    intro m bad p t c d s hc hb hn hp hcheck hd
    rw [exec_lcGoldCommit, execLcGoldCommit_checks hc hb hn hp hcheck, State.goldDirectory, hd]
    rfl
  case createGold =>
    intro m bad p t c s hc hb hn hp hcheck hd
    rw [exec_lcGoldCommit, execLcGoldCommit_checks hc hb hn hp hcheck, State.goldDirectory, hd]
    rfl

end Sys2Proof.Machine
end

section
/-! The configuration scrubber (06 R180 to R196): what a lane makes of its next frame, when a repair runs, how an injection
is armed, and the statement of the scrubber's commands. -/

namespace Sys2Proof.Machine

theorem exec_scrubCompare (k : Fin 16) (struck : List (Fin 10240)) (s : State) :
    exec (.scrubCompare k struck) s = execScrubCompare k struck s := rfl

theorem exec_scrubRepair (k : Fin 16) (misses : Fin 4) (bad : List (Nat × List Nat)) (s : State) :
    exec (.scrubRepair k misses bad) s = execScrubRepair k misses bad s := rfl

/-- The word that CFG_SCRUB_INJECT is armed with: ARM and FRAME. -/
def scrubInjectWord (f : BitVec 16) : Word := BitVec.ofNat 32 (2 ^ 16 + f.toNat)

theorem exec_cfgScrubInject (who : Requester) (f : BitVec 16) (s : State) :
    exec (.cfgScrubInject who f) s = .next (s.writeAs who .CFG_SCRUB_INJECT 0 (scrubInjectWord f)) := rfl

theorem exec_scrubQuery (m : Fin 5) (s : State) : exec (.scrubQuery m) s = execScrubQuery m s := rfl

/-! ## Comparisons (R180, R182, R186, R187) -/

theorem execScrubCompare_waits {k : Fin 16} {s : State} (struck : List (Fin 10240))
    (hq : 4 < (s.scrubLane k).repairs.length) : execScrubCompare k struck s = .next s := by
  simp [execScrubCompare, hq]

section
variable {k : Fin 16} {s : State} (struck : List (Fin 10240)) (hl : s.lanesRun = true)
  (hr : (s.scrubLane k).running = true) (hs : s.scrubbed k = true) (hq : (s.scrubLane k).repairs.length ≤ 4)
include hl hr hs hq

theorem execScrubCompare_ends (hn : s.nextStatic k = none) : execScrubCompare k struck s = .next (s.endSweep k) := by
  simp [execScrubCompare, hl, hr, hs, Nat.not_lt.2 hq, hn]

variable {o : Nat} {t : State} (ho : s.nextStatic k = some o) (ht : t = s.upset (4000 * k.val + o) struck)
include ho ht

/-- A running lane compares the cells of its next frame as the upsets have left them. -/
theorem execScrubCompare_compares {injected : Bool}
    (hi : (t.flag .CFG_SCRUB_INJECT_ARM && t.get .CFG_SCRUB_INJECT_FRAME == 4000 * k.val + o) = injected) :
    execScrubCompare k struck s =
      if !injected && some (crc32 (frameBytes (t.cells (4000 * k.val + o)))) =
          (t.liveEntry (4000 * k.val + o)).map (·.1) then
        .next ((t.setLane k { t.scrubLane k with matched := (t.scrubLane k).matched + 1 }).laneAfter k o)
      else .next (t.mismatch k o injected) := by
  simp only [execScrubCompare, hl, hr, hs, Nat.not_lt.2 hq, ho, ← ht, hi]
  rfl

theorem execScrubCompare_matches
    (hi : (t.flag .CFG_SCRUB_INJECT_ARM && t.get .CFG_SCRUB_INJECT_FRAME == 4000 * k.val + o) = false)
    (hc : some (crc32 (frameBytes (t.cells (4000 * k.val + o)))) = (t.liveEntry (4000 * k.val + o)).map (·.1)) :
    execScrubCompare k struck s =
      .next ((t.setLane k { t.scrubLane k with matched := (t.scrubLane k).matched + 1 }).laneAfter k o) := by
  rw [execScrubCompare_compares struck hl hr hs hq ho ht hi]
  exact if_pos (by simpa using hc)

/-- A frame that the armed injection names is a mismatch whatever its cells hold (R196). -/
theorem execScrubCompare_mismatches
    (hd : (t.flag .CFG_SCRUB_INJECT_ARM = true ∧ t.get .CFG_SCRUB_INJECT_FRAME = 4000 * k.val + o) ∨
      some (crc32 (frameBytes (t.cells (4000 * k.val + o)))) ≠ (t.liveEntry (4000 * k.val + o)).map (·.1)) :
    execScrubCompare k struck s = .next (t.mismatch k o
      (t.flag .CFG_SCRUB_INJECT_ARM && t.get .CFG_SCRUB_INJECT_FRAME == 4000 * k.val + o)) := by
  rw [execScrubCompare_compares struck hl hr hs hq ho ht rfl]
  refine if_neg ?_
  rcases hd with ⟨harm, hframe⟩ | hdiffers
  · simp [harm, hframe]
  · simp [hdiffers]

end

/-! ## Repairs (R187, R190) -/

theorem execScrubRepair_repairs {k : Fin 16} {s : State} {r : Repair} {rest : List Repair} (misses : Fin 4)
    (bad : List (Nat × List Nat)) (hr : (s.scrubLane k).repairs = r :: rest) (hl : s.lanesRun = true)
    (hs : s.scrubbed k = true) (hp : ∀ b ∈ s.repairBanks k, s.programmingBank b = false) :
    execScrubRepair k misses bad s = .next (s.repairFrame k r misses bad).releaseUnits := by
  have hidle : (s.repairBanks k).any s.programmingBank = false := by simpa using hp
  simp [execScrubRepair, hr, hl, hs, hidle]

/-! ## Injections (R196) -/

theorem scrubInjectWord_toNat (f : BitVec 16) : (scrubInjectWord f).toNat = 2 ^ 16 + f.toNat := by
  have hf := f.isLt
  simp only [scrubInjectWord, BitVec.toNat_ofNat]
  omega

theorem scrubInjectWord_frame (f : BitVec 16) : bitsOf (scrubInjectWord f).toNat 0 16 = f.toNat := by
  have hf := f.isLt
  rw [scrubInjectWord_toNat, bitsOf]
  omega

theorem scrubInjectWord_armed (f : BitVec 16) : (scrubInjectWord f).toNat.testBit 16 = true := by
  rw [scrubInjectWord_toNat, Nat.testBit_two_pow_add_eq, Nat.testBit_lt_two_pow f.isLt]
  rfl

/-- A maintaining owner arms a frame of a scrubbed region that is not skipped. -/
theorem writeScrubInject_arms {s : State} {o : Nat} {f : BitVec 16} (ho : s.maintains o = true) (hf : f.toNat < 64000)
    (hk : (s.liveEntry f.toNat).map (·.2) ≠ some true) (hs : s.scrubbed (f.toNat / 4000) = true) :
    s.writeScrubInject o (scrubInjectWord f).toNat =
      .took ((s.put .CFG_SCRUB_INJECT_FRAME f.toNat).putFlag .CFG_SCRUB_INJECT_ARM true) := by
  have hkept : ((s.liveEntry f.toNat).map (·.2)).getD false = false := by
    cases he : (s.liveEntry f.toNat).map (·.2) with
    | none => rfl
    | some skip => simpa [he] using hk
  simp [State.writeScrubInject, scrubInjectWord_frame, scrubInjectWord_armed, ho, Nat.not_le.2 hf, hkept, hs]

/-! ## SCRUB_QUERY (R194, R195) -/

/-- A query of regions that its sender administers or parents waits for their sweeps; the words of the regions that are not
scrubbed it has at once. -/
theorem execScrubQuery_queries {m : Fin 5} {p : Packet} {s : State} (hc : CommandRuns s m 0x18 p)
    (hmask : 0 < p.p 0 ∧ p.p 0 < 65536)
    (hmay : s.isAdmin (mailOwner m) = true ∨ ∀ k ∈ regionsOf (p.p 0), s.parent k = p.acts ∧ p.acts ≠ 0) :
    execScrubQuery m s = .next ((s.await m p .sweep).setQueries (s.loader.queries ++ [{
      mailbox := m.val, mask := p.p 0
      words := ((regionsOf (p.p 0)).filter fun k => !s.scrubbed k).map fun k =>
        (k, queryWord {} true false) }])).settleQueries := by
  have hshape : ¬ (65536 ≤ p.p 0 ∨ p.p 0 = 0) := by omega
  have hpasses : (s.isAdmin (mailOwner m) ||
      (regionsOf (p.p 0)).all fun k => s.parent k == p.acts && p.acts != 0) = true := by
    rcases hmay with hadmin | hparent
    · simp [hadmin]
    · simpa using .inr hparent
  rw [execScrubQuery, command_runs s m 0x18 p _ hc]
  simp only [hpasses]
  rw [if_neg (by simpa using hshape)]
  rfl

/-- Settles O39: a running lane compares its next frame as the upsets have left it (`execScrubCompare_compares`), and the
match or the mismatch follows from that one comparison; the oldest repair runs in idle flash banks
(`execScrubRepair_repairs`), an injection is a register write that is taken (`writeScrubInject_arms`), and SCRUB_QUERY is a
command that runs. That a lane with a full queue notes a fifth mismatch and pauses there is log entry 58. -/
theorem configurationScrubbing : Obligations.ConfigurationScrubbing := by
  unfold Obligations.ConfigurationScrubbing
  refine ⟨?sweepEnds, ?agrees, ?differs, ?waits, ?repair, ?inject, ?query⟩
  case sweepEnds =>
    intro k struck s hl hr hs hq hn
    rw [exec_scrubCompare, execScrubCompare_ends struck hl hr hs hq hn]
  case agrees =>
    intro k struck o t s hl hr hs hq ho ht hi hc
    rw [exec_scrubCompare, execScrubCompare_matches struck hl hr hs hq ho ht hi hc]
  case differs =>
    intro k struck o t s hl hr hs hq ho ht hd
    rw [exec_scrubCompare, execScrubCompare_mismatches struck hl hr hs hq ho ht hd]
  case waits =>
    intro k struck s hq
    rw [exec_scrubCompare, execScrubCompare_waits struck hq]
  case repair =>
    intro k misses bad r rest s hr hl hs hp
    rw [exec_scrubRepair, execScrubRepair_repairs misses bad hr hl hs hp]
  case inject =>
    intro who f s ho hmay hf hk hs
    rw [exec_cfgScrubInject, writeAs_took s _ who _ 0 _ ho (by decide) (writeScrubInject_arms hmay hf hk hs)]
  case query =>
    intro m p s hc hmask hmay
    rw [exec_scrubQuery, execScrubQuery_queries hc hmask hmay]

end Sys2Proof.Machine
end

section
/-! The diagnostic registers of the spine and of the banks (07 R229, R230; 09 R281, R282): the fields of the words that
their commands write, what each register does with an accepted write, and the statement of the four registers. -/

namespace Sys2Proof.Machine

/-! ## Fields of a register word -/

/-- The flag of a word that stands above `low` and below `high`. -/
theorem testBit_of_fields {v low lo : Nat} {b : Bool} (high : Nat) (hlow : low < 2 ^ lo)
    (hv : v = low + 2 ^ lo * (b.toNat + 2 * high)) : v.testBit lo = b := by
  have hfield : v / 2 ^ lo % 2 = b.toNat := bitsOf_of_fields (w := 1) high hlow b.toNat_lt hv
  rw [Nat.testBit_eq_decide_div_mod_eq, hfield]
  cases b <;> rfl

/-! ## SPN_FAIR (R229) -/

theorem exec_spnFairClr (who : Requester) (s : State) :
    exec (.spnFairClr who) s = .next (s.writeAs who .SPN_FAIR 0 (BitVec.ofNat 32 (2 ^ 31))) := rfl

theorem writeFair_clears {s : State} {o v : Nat} (hclr : v.testBit 31 = true) (ho : s.maintains o = true) :
    s.writeFair o v = .took ((s.put .SPN_FAIR_LINK_WAIT_MAX 0).put .SPN_FAIR_CREDIT_WAIT_MAX 0) := by
  simp [State.writeFair, hclr, ho]

/-! ## SPN_STALL_INJECT (R230) -/

section
variable (node : BitVec 5) (input : BitVec 4) (plane : Bool)

/-- The word that SPN_STALL_INJECT is armed with: NODE, INPUT, PLANE and ARM. -/
def stallInjectWord : Word := BitVec.ofNat 32 (node.toNat + 2 ^ 5 * input.toNat + 2 ^ 9 * plane.toNat + 2 ^ 16)

theorem exec_spnStallInject (who : Requester) (s : State) : exec (.spnStallInject who node input plane) s =
    .next (s.writeAs who .SPN_STALL_INJECT 0 (stallInjectWord node input plane)) := rfl

theorem stallInjectWord_toNat : (stallInjectWord node input plane).toNat =
    node.toNat + 2 ^ 5 * input.toNat + 2 ^ 9 * plane.toNat + 2 ^ 16 := by
  have hnode := node.isLt
  have hinput := input.isLt
  have hplane := plane.toNat_lt
  simp only [stallInjectWord, BitVec.toNat_ofNat]
  omega

theorem stallInjectWord_node : bitsOf (stallInjectWord node input plane).toNat 0 5 = node.toNat :=
  bitsOf_of_fields (low := 0) (input.toNat + 2 ^ 4 * plane.toNat + 2 ^ 11) (by decide) node.isLt
    (by rw [stallInjectWord_toNat]; omega)

theorem stallInjectWord_input : bitsOf (stallInjectWord node input plane).toNat 5 4 = input.toNat :=
  bitsOf_of_fields (low := node.toNat) (plane.toNat + 2 ^ 7) node.isLt input.isLt
    (by rw [stallInjectWord_toNat]; omega)

theorem stallInjectWord_plane : (stallInjectWord node input plane).toNat.testBit 9 = plane :=
  testBit_of_fields (low := node.toNat + 2 ^ 5 * input.toNat) (2 ^ 6) (by omega)
    (by rw [stallInjectWord_toNat]; omega)

theorem stallInjectWord_armed : (stallInjectWord node input plane).toNat.testBit 16 = true := by
  have hplane := plane.toNat_lt
  refine testBit_of_fields (low := node.toNat + 2 ^ 5 * input.toNat + 2 ^ 9 * plane.toNat) 0 (by omega) ?_
  rw [stallInjectWord_toNat]
  rfl

end

/-- A maintaining owner arms the injection at a node input of Table 7-2. -/
theorem writeStallInject_arms {s : State} {o : Nat} {node : BitVec 5} {input : BitVec 4} {plane : Bool}
    (ho : s.maintains o = true) (hin : nodeInput node.toNat input.toNat plane = true) :
    s.writeStallInject o (stallInjectWord node input plane).toNat =
      .took ((((s.put .SPN_STALL_INJECT_NODE node.toNat).put .SPN_STALL_INJECT_INPUT input.toNat).putFlag
        .SPN_STALL_INJECT_PLANE plane).putFlag .SPN_STALL_INJECT_ARM true) := by
  simp [State.writeStallInject, stallInjectWord_node, stallInjectWord_input, stallInjectWord_plane,
    stallInjectWord_armed, ho, hin]

/-! ## BNK_INJECT (R281) -/

section
variable (word : BitVec 16) (bitA bitB : BitVec 7) (double : Bool)

/-- The word that BNK_INJECT is armed with: WORD, BIT_A, BIT_B, DOUBLE and ARM. -/
def bankInjectWord : Word :=
  BitVec.ofNat 32 (word.toNat + 2 ^ 16 * bitA.toNat + 2 ^ 23 * bitB.toNat + 2 ^ 30 * double.toNat + 2 ^ 31)

theorem exec_bnkInject (who : Requester) (n : Fin 128) (s : State) : exec (.bnkInject who n word bitA bitB double) s =
    .next (s.writeAs who .BNK_INJECT n (bankInjectWord word bitA bitB double)) := rfl

theorem bankInjectWord_toNat : (bankInjectWord word bitA bitB double).toNat =
    word.toNat + 2 ^ 16 * bitA.toNat + 2 ^ 23 * bitB.toNat + 2 ^ 30 * double.toNat + 2 ^ 31 := by
  have hword := word.isLt
  have ha := bitA.isLt
  have hb := bitB.isLt
  have hdouble := double.toNat_lt
  simp only [bankInjectWord, BitVec.toNat_ofNat]
  omega

theorem bankInjectWord_word : bitsOf (bankInjectWord word bitA bitB double).toNat 0 16 = word.toNat :=
  bitsOf_of_fields (low := 0) (bitA.toNat + 2 ^ 7 * bitB.toNat + 2 ^ 14 * double.toNat + 2 ^ 15) (by decide) word.isLt
    (by rw [bankInjectWord_toNat]; omega)

theorem bankInjectWord_bitA : bitsOf (bankInjectWord word bitA bitB double).toNat 16 7 = bitA.toNat :=
  bitsOf_of_fields (low := word.toNat) (bitB.toNat + 2 ^ 7 * double.toNat + 2 ^ 8) word.isLt bitA.isLt
    (by rw [bankInjectWord_toNat]; omega)

theorem bankInjectWord_bitB : bitsOf (bankInjectWord word bitA bitB double).toNat 23 7 = bitB.toNat :=
  bitsOf_of_fields (low := word.toNat + 2 ^ 16 * bitA.toNat) (double.toNat + 2) (by omega) bitB.isLt
    (by rw [bankInjectWord_toNat]; omega)

theorem bankInjectWord_double : (bankInjectWord word bitA bitB double).toNat.testBit 30 = double :=
  testBit_of_fields (low := word.toNat + 2 ^ 16 * bitA.toNat + 2 ^ 23 * bitB.toNat) 1 (by omega)
    (by rw [bankInjectWord_toNat]; omega)

theorem bankInjectWord_armed : (bankInjectWord word bitA bitB double).toNat.testBit 31 = true := by
  have hdouble := double.toNat_lt
  refine testBit_of_fields (low := word.toNat + 2 ^ 16 * bitA.toNat + 2 ^ 23 * bitB.toNat + 2 ^ 30 * double.toNat) 0
    (by omega) ?_
  rw [bankInjectWord_toNat]
  rfl

end

/-- The owners that R281 names. -/
theorem injectsBank_iff (s : State) (n o : Nat) :
    (s.maintains o || (o == s.top (s.bankOwner n) && s.top (s.bankOwner n) != 0)) = true ↔
      s.maintains o = true ∨ (o = s.top (s.bankOwner n) ∧ s.top (s.bankOwner n) ≠ 0) := by
  simp

/-- An owner of R281 inverts bits of the stored row of a word that the last row of Table 9-5 does not shield. BIT_B is
read with DOUBLE alone. -/
theorem writeBankInject_flips {s : State} {n o : Nat} {word : BitVec 16} {bitA bitB : BitVec 7} {double : Bool}
    (ho : s.maintains o = true ∨ (o = s.top (s.bankOwner n) ∧ s.top (s.bankOwner n) ≠ 0)) (ha : bitA.toNat ≤ 71)
    (hb : double = true → bitB.toNat ≤ 71 ∧ bitA ≠ bitB) (hs : s.shieldedWord n word.toNat = false) :
    s.writeBankInject n o (bankInjectWord word bitA bitB double).toNat =
      .took (((((s.put .BNK_INJECT_WORD word.toNat n).put .BNK_INJECT_BIT_A bitA.toNat n).put .BNK_INJECT_BIT_B
        bitB.toNat n).putFlag .BNK_INJECT_DOUBLE double n).flipRow n word.toNat
        (BitVec.ofNat 72 (2 ^ bitA.toNat + if double then 2 ^ bitB.toNat else 0))) := by
  have hpair : (double && (decide (71 < bitB.toNat) || bitA.toNat == bitB.toNat)) = false := by
    cases double with
    | false => rfl
    | true =>
      obtain ⟨hlast, hne⟩ := hb rfl
      simp [hlast, BitVec.toNat_inj, hne]
  simp only [State.writeBankInject, bankInjectWord_word, bankInjectWord_bitA, bankInjectWord_bitB,
    bankInjectWord_double, bankInjectWord_armed, (injectsBank_iff s n o).2 ho, hpair, hs, Nat.not_lt.2 ha]
  rfl

/-! ## BNK_PARK (R282) -/

section
variable (a : Fin 128) (va : Bool) (b : Fin 128) (vb : Bool)

/-- The word that BNK_PARK is written with: BANK_A, VALID_A, BANK_B and VALID_B. -/
def parkWord : Word := BitVec.ofNat 32 (a.val + 2 ^ 7 * va.toNat + 2 ^ 8 * b.val + 2 ^ 15 * vb.toNat)

theorem exec_bnkParkWrite (who : Requester) (q : Fin 4) (s : State) : exec (.bnkParkWrite who q a va b vb) s =
    .next (s.writeAs who .BNK_PARK q (parkWord a va b vb)) := rfl

theorem parkWord_toNat : (parkWord a va b vb).toNat = a.val + 2 ^ 7 * va.toNat + 2 ^ 8 * b.val + 2 ^ 15 * vb.toNat := by
  have hva := va.toNat_lt
  have hvb := vb.toNat_lt
  simp only [parkWord, BitVec.toNat_ofNat]
  omega

theorem parkWord_bankA : bitsOf (parkWord a va b vb).toNat 0 7 = a.val :=
  bitsOf_of_fields (low := 0) (va.toNat + 2 * b.val + 2 ^ 8 * vb.toNat) (by decide) a.isLt
    (by rw [parkWord_toNat]; omega)

theorem parkWord_validA : (parkWord a va b vb).toNat.testBit 7 = va :=
  testBit_of_fields (low := a.val) (b.val + 2 ^ 7 * vb.toNat) a.isLt (by rw [parkWord_toNat]; omega)

theorem parkWord_bankB : bitsOf (parkWord a va b vb).toNat 8 7 = b.val := by
  have hva := va.toNat_lt
  exact bitsOf_of_fields (low := a.val + 2 ^ 7 * va.toNat) vb.toNat (by omega) b.isLt (by rw [parkWord_toNat]; omega)

theorem parkWord_validB : (parkWord a va b vb).toNat.testBit 15 = vb := by
  have hva := va.toNat_lt
  exact testBit_of_fields (low := a.val + 2 ^ 7 * va.toNat + 2 ^ 8 * b.val) 0 (by omega) (by rw [parkWord_toNat]; omega)

end

/-- A maintaining owner designates parking banks of distinct groups while none is in use. -/
theorem writePark_designates {s : State} {q o : Nat} {a b : Fin 128} {va vb : Bool} (ho : s.maintains o = true)
    (hfree : s.get .BNK_PARK_IN_USE q = 0) (ha : va = true → s.mayPark q a = true)
    (hb : vb = true → s.mayPark q b = true)
    (hgroups : va = true → vb = true → groupOfBank a ≠ groupOfBank b) :
    s.writePark q o (parkWord a va b vb).toNat =
      .took ((((s.put .BNK_PARK_BANK_A a q).putFlag .BNK_PARK_VALID_A va q).put .BNK_PARK_BANK_B b q).putFlag
        .BNK_PARK_VALID_B vb q) := by
  have hok : ((!va || s.mayPark q a) && (!vb || s.mayPark q b) && !(va && vb && groupOfBank a == groupOfBank b)) =
      true := by
    simpa [imp_iff_not_or, or_assoc] using And.intro (And.intro ha hb) hgroups
  simp only [State.writePark, parkWord_bankA, parkWord_validA, parkWord_bankB, parkWord_validB, ho, hfree, hok]
  rfl

/-- Settles O10: each register takes the word that its command writes (`writeFair_clears`, `writeStallInject_arms`,
`writeBankInject_flips`, `writePark_designates`), and a write that is taken does nothing else (`writeAs_took`). That
BNK_INJECT accepts a BIT_B above 71 without DOUBLE is log entry 16. -/
theorem spineAndBankRegisterWrites : Obligations.SpineAndBankRegisterWrites := by
  unfold Obligations.SpineAndBankRegisterWrites
  refine ⟨?fair, ?stall, ?inject, ?park⟩
  case fair =>
    intro who s hopen ho
    rw [exec_spnFairClr, writeAs_took s _ who _ 0 _ hopen (by decide) (writeFair_clears (by decide) ho)]
  case stall =>
    intro who node input plane s hopen ho hin
    rw [exec_spnStallInject, writeAs_took s _ who _ 0 _ hopen (by decide) (writeStallInject_arms ho hin)]
  case inject =>
    intro who n word bitA bitB double s hopen ho ha hb hs
    rw [exec_bnkInject, writeAs_took s _ who _ n _ hopen (by decide) (writeBankInject_flips ho ha hb hs)]
  case park =>
    intro who q a va b vb s hopen ho hfree ha hb hgroups
    rw [exec_bnkParkWrite, writeAs_took s _ who _ q _ hopen (by decide) (writePark_designates ho hfree ha hb hgroups)]

end Sys2Proof.Machine
end

section
/-! Transactions on their way through the spine (07 R199 to R224): what a requester port does with a request of its
consumer, the commands that look at the far end of a plane or at a requester's timer, and the statement of the
transactions. -/

namespace Sys2Proof.Machine

theorem exec_requestSubmit (who : Requester) (kind : TxnKind) (addr : BitVec 48) (beats : List BeatIn) (s : State) :
    exec (.requestSubmit who kind addr beats) s = execRequestSubmit who kind addr beats s := rfl

theorem exec_creditGrant (t : Fin 97) (s : State) : exec (.creditGrant t) s = execCreditGrant t s := rfl

theorem exec_spineRequest (t : Fin 97) (s : State) : exec (.spineRequest t) s = execSpineRequest t s := rfl

theorem exec_flush (t : Fin 97) (s : State) : exec (.flush t) s = execFlush t s := rfl

theorem exec_responseArrival (port : Fin 97) (tag : Fin 2048) (s : State) :
    exec (.responseArrival port tag) s = execResponseArrival port tag s := rfl

theorem exec_requesterTimeout (id : Nat) (s : State) :
    exec (.requesterTimeout id) s = execRequesterTimeout id s := rfl

/-! ## Submission (R199, R200, R202, R223) -/

section
variable {s : State} {src owner addr : Nat} {kind : TxnKind} {beats : List BeatIn} (user : Consumer)

theorem submit_of_sendable (h : sendable src kind addr beats.length = true) :
    s.submit src owner kind addr beats user = s.enqueue src owner kind addr beats user := by
  rw [State.submit, if_pos h]

theorem submit_of_not_sendable (h : sendable src kind addr beats.length = false) :
    s.submit src owner kind addr beats user = (s.captureDecerr owner addr (kind == .write) false).refuseTxn
      { id := s.spine.nextId, src, owner, kind, addr, beats, user } := by
  rw [State.submit, if_neg (by simp [h])]

end

/-- What `who` sends to `addr` comes to no port of the spine: the JTAG port is none, and scrubbing and self-test transfers
within one bank group stay inside the group's port (R200). -/
def StaysOffSpine (who : Requester) (addr : Nat) : Prop :=
  who = .jtag ∨ (∃ g, who = .scrubber g) ∨ ∃ g : Fin 16, who = .selftest g ∧ portOf addr = 77 + g.val

/-- The consumer of a port other than a region's reaches the spine with a request for `addr`. -/
structure ReachesSpine (who : Requester) (addr : Nat) : Prop where
  notJtag : who ≠ .jtag
  notScrubber : ∀ g, who ≠ .scrubber g
  notRegion : ∀ p, who ≠ .region p
  leavesGroup : ∀ g : Fin 16, who = .selftest g → portOf addr ≠ 77 + g.val

section
variable {who : Requester} {kind : TxnKind} {addr : BitVec 48} {beats : List BeatIn} {s : State}

theorem execRequestSubmit_submits (hp : s.mode ≠ .off) (hreach : ReachesSpine who addr.toNat) :
    execRequestSubmit who kind addr beats s =
      .next (s.submit who.port who.owner kind addr.toNat beats .other) := by
  have hoff : ¬ (!s.coreOn) = true := by simpa using hp
  cases who with
  | jtag => exact absurd rfl hreach.notJtag
  | scrubber g => exact absurd rfl (hreach.notScrubber g)
  | region p => exact absurd rfl (hreach.notRegion p)
  | selftest g => exact (if_neg hoff).trans (if_neg (hreach.leavesGroup g rfl))
  | mgc | mgcFor | loader | repairer | host | spi | ring => exact if_neg hoff

theorem execRequestSubmit_stays (hstays : StaysOffSpine who addr.toNat) :
    execRequestSubmit who kind addr beats s = .next s := by
  obtain rfl | ⟨g, rfl⟩ | ⟨g, rfl, hgroup⟩ := hstays
  · exact ite_self _
  · exact ite_self _
  · rw [execRequestSubmit, if_pos hgroup, ite_self]

/-- A region port's request takes the lowest free fabric tag and goes the way of INI_REQ. -/
theorem execRequestSubmit_region {p d : Fin 64} (hp : s.mode ≠ .off)
    (htag : ((List.range 64).find? fun e => !(s.port p).busy.contains e) = some d.val) (hr : s.portReady p = true)
    (ho : (s.port p).opened = none) (hk : kind = .read ∨ kind = .write)
    (hi : s.iniReady p d (kind == .write) addr.toNat beats.length = true) :
    execRequestSubmit (.region p) kind addr beats s = .next (s.transferIni p
      { dtag := d, write := kind == .write, addr := addr.toNat, count := beats.length, beats := [] } beats) := by
  have hoff : ¬ (!s.coreOn) = true := by simpa using hp
  have hkind : (kind == .read || kind == .write) = true := by simpa using hk
  rw [execRequestSubmit, if_neg hoff]
  simp only [htag, hr, ho, hkind, hi]
  rfl

end

/-! ## Credits, targets, responses and timers (R205, R208, R213, R215, R216) -/

theorem execCreditGrant_grants {t : Fin 97} {s : State} (hp : s.mode ≠ .off) (hc : 0 < s.spine.credits t) :
    execCreditGrant t s = .next (s.grantCredit t) := by
  simp [execCreditGrant, hp, hc]

theorem execSpineRequest_admits {t : Fin 97} {s : State} {x : Txn} (hp : s.mode ≠ .off)
    (hx : (s.flowRequests.spine.ingress.find? fun y => portOf y.addr == t.val) = some x) :
    execSpineRequest t s = .next (s.flowRequests.admitTxn x) := by
  simp [execSpineRequest, hp, hx]

/-- The transactions that target `t` has taken and that are not lost in an isolated unit. -/
def State.heldAt (s : State) (t : Nat) : List Txn := s.spine.taken.filter fun y => portOf y.addr == t && !y.lost

/-- The oldest FLUSH at target `t` that no earlier write of its source precedes. -/
def State.freeFlush (s : State) (t : Nat) : Option Txn :=
  (s.heldAt t).find? fun y => y.kind == .flush &&
    !(s.spine.network.map (·.1) ++ s.heldAt t ++ s.spine.ingress).any fun w =>
      w.isWrite && w.src == y.src && portOf w.addr == t && decide (w.id < y.id)

theorem execFlush_answers {t : Fin 97} {s : State} {x : Txn} (hp : s.mode ≠ .off)
    (ht : (64 ≤ t.val && decide (t.val < 68)) = false) (hx : s.flowRequests.freeFlush t = some x) :
    execFlush t s = .next (s.flowRequests.answerTxn x x.okWrite) := by
  have hgate : ¬ (!s.flowRequests.coreOn || (64 ≤ t.val && t.val < 68)) = true := by
    have hon : s.flowRequests.coreOn = true := by simpa using hp
    simp only [hon, ht]
    decide
  rw [State.freeFlush, State.heldAt] at hx
  simp only [execFlush, hgate, hx]
  rfl

theorem execResponseArrival_arrives {port : Fin 97} {tag : Fin 2048} {s : State} {a : Answered} (hp : s.mode ≠ .off)
    (ha : (s.flowResponses.spine.answered.find? fun b => b.txn.src == port.val && b.txn.tag == tag.val &&
      !b.txn.lost && !b.txn.freed && b.way.isEmpty) = some a) :
    execResponseArrival port tag s = .next (s.flowResponses.arrive a) := by
  simp [execResponseArrival, hp, ha]

theorem execRequesterTimeout_expires {id : Nat} {s : State} {t : Txn} (hp : s.mode ≠ .off)
    (ht : ((s.spine.waiting ++ s.spine.issued).find? fun x => x.id == id && !x.expired) = some t) :
    execRequesterTimeout id s = .next (s.expire t) := by
  simp only [execRequesterTimeout, ht]
  exact if_pos ((coreOn_iff s).2 hp)

/-- Settles O8: a request that reaches the spine is submitted (`execRequestSubmit_submits`), which queues or refuses it as
`sendable` says, and each other command finds what it acts on at the far end of its plane, in a port's crossing FIFO or
among the running timers. That a request addressed to its own port is refused is log entry 95, that a plane moves when a
command looks (`State.flowRequests`, `State.flowResponses`) is entry 11, and the form of the lists and of FLUSH is entry
43. -/
theorem spineTransactionsMove : Obligations.SpineTransactionsMove := by
  unfold Obligations.SpineTransactionsMove
  refine ⟨?queued, ?refused, ?region, ?stays, ?credit, ?request, ?flush, ?response, ?timer⟩
  case queued =>
    intro who kind addr beats s hp hj hs hr hg hsend
    rw [exec_requestSubmit, execRequestSubmit_submits hp ⟨hj, hs, hr, hg⟩, submit_of_sendable _ hsend]
  case refused =>
    intro who kind addr beats s hp hj hs hr hg hsend
    rw [exec_requestSubmit, execRequestSubmit_submits hp ⟨hj, hs, hr, hg⟩, submit_of_not_sendable _ hsend]
  case region =>
    intro p d kind addr beats s hp htag hr ho hk hi
    rw [exec_requestSubmit, execRequestSubmit_region hp htag hr ho hk hi]
  case stays =>
    intro who kind addr beats s hstays
    rw [exec_requestSubmit, execRequestSubmit_stays hstays]
  case credit =>
    intro t s hp hc
    rw [exec_creditGrant, execCreditGrant_grants hp hc]
  case request =>
    rintro t _ x s hp rfl hx
    rw [exec_spineRequest, execSpineRequest_admits hp hx]
  case flush =>
    rintro t _ x _ s hp rfl ht rfl hx
    rw [exec_flush, execFlush_answers hp ht hx]
  case response =>
    rintro port tag _ a s hp rfl ha
    rw [exec_responseArrival, execResponseArrival_arrives hp ha]
  case timer =>
    intro id t s hp ht
    rw [exec_requesterTimeout, execRequesterTimeout_expires hp ht]

end Sys2Proof.Machine
end

section
/-! Ownership (08 R237 to R250; 09 R262, R265): what the word of an owner register carries, how R238 decides a handover,
what a requester sees of a handover that it writes, accesses to the words of a bank, and the ownership commands. -/

namespace Sys2Proof.Machine

/-! ## The commands -/

theorem exec_bnkOwnerHandover (who : Requester) (n : Fin 128) (expect new : BitVec 8) (flag : Bool) (s : State) :
    exec (.bnkOwnerHandover who n expect new flag) s =
      .next (s.writeAs who .BNK_OWNER n (handoverWord expect new flag)) := rfl

theorem exec_attRegionParentHandover (who : Requester) (k : Fin 16) (expect new : BitVec 8) (flag : Bool) (s : State) :
    exec (.attRegionParentHandover who k expect new flag) s =
      .next (s.writeAs who .ATT_REGION_PARENT k (handoverWord expect new flag)) := rfl

theorem exec_attGroupParentHandover (who : Requester) (g : Fin 64) (expect new : BitVec 8) (flag : Bool) (s : State) :
    exec (.attGroupParentHandover who g expect new flag) s =
      .next (s.writeAs who .ATT_GROUP_PARENT g (handoverWord expect new flag)) := rfl

theorem exec_bankRead (who : Requester) (n : Fin 128) (w : BitVec 16) (s : State) :
    exec (.bankRead who n w) s = execBankRead who n w s := rfl

theorem exec_bankWrite (who : Requester) (n : Fin 128) (w : BitVec 16) (data : BitVec 64) (whole : Bool) (s : State) :
    exec (.bankWrite who n w data whole) s = execBankWrite who n w data whole s := rfl

theorem exec_ownRead (m : Fin 5) (s : State) : exec (.ownRead m) s = execOwnRead m s := rfl

theorem exec_ownHandover (m : Fin 5) (s : State) : exec (.ownHandover m) s = execOwnHandover m s := rfl

theorem exec_ownRecordGet (m : Fin 5) (s : State) : exec (.ownRecordGet m) s = execOwnRecordGet m s := rfl

theorem exec_ownRecordSet (m : Fin 5) (fails0 fails1 : Nat) (s : State) :
    exec (.ownRecordSet m fails0 fails1) s = execOwnRecordSet m fails0 fails1 s := rfl

/-! ## The word of an owner register -/

section
variable (expect new : BitVec 8) (flag : Bool)

theorem handoverWord_toNat :
    (handoverWord expect new flag).toNat = 2 ^ 8 * expect.toNat + 2 ^ 16 * new.toNat + 2 ^ 24 * flag.toNat := by
  have hexpect := expect.isLt
  have hnew := new.isLt
  have hflag := flag.toNat_lt
  simp only [handoverWord, BitVec.toNat_ofNat]
  omega

theorem handoverWord_expect : bitsOf (handoverWord expect new flag).toNat 8 8 = expect.toNat :=
  bitsOf_of_fields (low := 0) (new.toNat + 2 ^ 8 * flag.toNat) (by decide) expect.isLt
    (by rw [handoverWord_toNat]; omega)

theorem handoverWord_new : bitsOf (handoverWord expect new flag).toNat 16 8 = new.toNat :=
  bitsOf_of_fields (low := 2 ^ 8 * expect.toNat) flag.toNat (by omega) new.isLt (by rw [handoverWord_toNat]; omega)

theorem handoverWord_flag : (handoverWord expect new flag).toNat.testBit 24 = flag :=
  testBit_of_fields (low := 2 ^ 8 * expect.toNat + 2 ^ 16 * new.toNat) 0 (by omega) (by rw [handoverWord_toNat]; omega)

end

/-! ## The steps of R238 -/

section
variable {s : State} {r : Resource} {o expect new : Nat} {flag : Bool}

/-- Steps 1 and 2: EXPECT is the holder, and the requester is authorised. -/
theorem handOver_notAuthorised (h : expect ≠ s.holder r ∨ s.mayHandOver r o expect new = false) :
    s.handOver r o expect new flag = .notAuthorised := by
  by_cases he : expect = s.holder r
  · subst he
    simp [State.handOver, h.resolve_left (not_not.2 rfl)]
  · simp [State.handOver, he]

section
variable (he : expect = s.holder r) (ha : s.mayHandOver r o expect new = true)
include he ha

/-- Step 3: NEW is eligible. -/
theorem handOver_ineligible (hn : r.eligible new = false) : s.handOver r o expect new flag = .ineligible := by
  subst he
  simp [State.handOver, ha, hn]

/-- Step 4: the device is in RUN and the resource is free. -/
theorem handOver_busy (hn : r.eligible new = true) (hb : s.mode ≠ .run ∨ s.handoverBusy r = true) :
    s.handOver r o expect new flag = .busy := by
  subst he
  rcases hb with hb | hb <;> simp [State.handOver, ha, hn, hb]

/-- Steps 3 and 4 refuse an authorised requester. -/
theorem handOver_refused (h : r.eligible new = false ∨ s.mode ≠ .run ∨ s.handoverBusy r = true) :
    s.handOver r o expect new flag = .ineligible ∨ s.handOver r o expect new flag = .busy := by
  cases hn : r.eligible new with
  | false => exact .inl (handOver_ineligible he ha hn)
  | true => exact .inr (handOver_busy he ha hn (by simpa [hn] using h))

/-- Step 5 on: nothing refuses. -/
theorem handOver_done (hn : r.eligible new = true) (hm : s.mode = .run) (hb : s.handoverBusy r = false)
    (hl : ∀ k, r = .region k → (flag && s.loading k) = false) :
    s.handOver r o expect new flag = .done (s.handedOver r o expect new flag) := by
  subst he
  cases r with
  | bank n => simp [State.handOver, ha, hn, hm, hb]
  | region k => simp [State.handOver, ha, hn, hm, hb, hl k rfl]
  | group g => simp [State.handOver, ha, hn, hm, hb]

end
end

/-! ## Handovers written to a register -/

section
variable {s : State} {r : Resource} {o : Nat} {expect new : BitVec 8} {flag : Bool}

theorem writeHandover_took {t : State} (h : s.handOver r o expect.toNat new.toNat flag = .done t) :
    s.writeHandover r o (handoverWord expect new flag).toNat = .took t := by
  simp only [State.writeHandover, handoverWord_expect, handoverWord_new, handoverWord_flag, h]

theorem writeHandover_notOwner (h : s.handOver r o expect.toNat new.toNat flag = .notAuthorised) :
    s.writeHandover r o (handoverWord expect new flag).toNat = .notOwner (s.bump .ATT_HO_CNT_FAILED) := by
  simp only [State.writeHandover, handoverWord_expect, handoverWord_new, handoverWord_flag, h]

theorem writeHandover_rejected (h : s.handOver r o expect.toNat new.toNat flag = .ineligible ∨
      s.handOver r o expect.toNat new.toNat flag = .busy) :
    s.writeHandover r o (handoverWord expect new flag).toNat = .rejected (s.bump .ATT_HO_CNT_FAILED) := by
  simp only [State.writeHandover, handoverWord_expect, handoverWord_new, handoverWord_flag]
  rcases h with h | h <;> rw [h]

end

section
variable {s t : State} {who : Requester} {r : Reg} {v : Word}

/-- SAFE leaves a compare-and-set register to refuse the write itself. -/
theorem RegisterOpen.of_compareAndSet (hr : r.compareAndSet = true) (hp : s.mode ≠ .off) (hi : WriteIssues s who) :
    RegisterOpen s who r :=
  ⟨hp, hi, fun _ => .inr hr⟩

/-- A write without the right to it keeps what the register notes of the refusal. -/
theorem writeAs_notOwner (i : Nat) (hp : s.mode ≠ .off) (hi : WriteIssues s who) (hr : r ≠ .MBX_CTL)
    (hw : s.writeReg r i false false who.owner v.toNat = .notOwner t) :
    s.writeAs who r i v = { t with answer := some { codes := [.notown], words := [] } } := by
  have he : (Width.w32 == Width.w64) = false := rfl
  obtain ⟨ho, hb⟩ := hi.reaches hp
  simp [State.writeAs, State.accessAt, ho, hb, State.controlAt, State.writeChecked, Width.fits, State.writeAt, he, hw,
    clearAsked_none r i false _ _ hr]

/-- A write whose value an open register rejects keeps what the register notes of it, and is captured. -/
theorem writeAs_rejected (i : Nat) (h : RegisterOpen s who r) (hr : r ≠ .MBX_CTL)
    (hw : s.writeReg r i false false who.owner v.toNat = .rejected t) :
    s.writeAs who r i v = { t.captureDecerr who.owner (0x3_0000_0000 + r.addr i) true true with
      answer := some { codes := [.decerr], words := [] } } := by
  have he : (Width.w32 == Width.w64) = false := rfl
  obtain ⟨ho, hb⟩ := h.issues.reaches h.powered
  simp [State.writeAs, State.accessAt, ho, hb, State.controlAt, State.writeChecked, Width.fits, State.writeAt, he, hw,
    h.not_barred, State.finishWrite, clearAsked_none r i false _ _ hr]

end

/-- Settles O6: the three owner registers carry EXPECT, NEW and the flag to R238, whose steps 1 to 4 let the write pass
(`handOver_done`), and a write that its register takes does nothing else (`writeAs_took`). -/
theorem handoverByRegisterReplacesHolder : Obligations.HandoverByRegisterReplacesHolder := by
  unfold Obligations.HandoverByRegisterReplacesHolder
  intro s who expect new flag r hm hi he ha hn hb
  have hdone := handOver_done (flag := flag) he ha hn hm hb
  refine ⟨?bank, ?region, ?group⟩
  case bank =>
    rintro n rfl
    rw [exec_bnkOwnerHandover, writeAs_took s _ who .BNK_OWNER n _ (.of_run _ hm hi) (by decide)
      (writeHandover_took (hdone nofun))]
  case region =>
    rintro k rfl hl
    rw [exec_attRegionParentHandover, writeAs_took s _ who .ATT_REGION_PARENT k _ (.of_run _ hm hi) (by decide)
      (writeHandover_took (hdone (by rintro _ ⟨⟩; exact hl)))]
  case group =>
    rintro g rfl
    rw [exec_attGroupParentHandover, writeAs_took s _ who .ATT_GROUP_PARENT g _ (.of_run _ hm hi) (by decide)
      (writeHandover_took (hdone nofun))]

/-- Settles O7: steps 1 and 2 of R238 answer NOTOWN (`handOver_notAuthorised`), steps 3 and 4 DECERR
(`handOver_refused`), and the write leaves the count of failed handovers besides its answer. SAFE refuses by step 4. -/
theorem handoverByRegisterIsRefusedInOrder : Obligations.HandoverByRegisterIsRefusedInOrder := by
  unfold Obligations.HandoverByRegisterIsRefusedInOrder
  intro s who n expect new flag hp hi failed away
  refine ⟨fun haway => ?notown, fun hpasses hrefused => ?decerr⟩
  case notown =>
    rw [exec_bnkOwnerHandover, writeAs_notOwner (r := .BNK_OWNER) n hp hi (by decide)
      (writeHandover_notOwner (handOver_notAuthorised haway))]
  case decerr =>
    obtain ⟨he, ha⟩ := not_or.1 hpasses
    rw [exec_bnkOwnerHandover, writeAs_rejected (r := .BNK_OWNER) n (.of_compareAndSet rfl hp hi) (by decide)
      (writeHandover_rejected (handOver_refused (not_not.1 he) (eq_true_of_ne_false ha) hrefused))]

/-! ## Words of a bank (07 R202; 09 R262, R265) -/

section
variable {s : State} {who : Requester} {n : Fin 128}

theorem execBankRead_word {w : BitVec 16} {d : DWord} {t : State} (hc : s.bankCheck who.owner n = .ok)
    (hr : s.bankRead n w.toNat = (t, some d)) :
    execBankRead who n w s = .next (t.answerWord .ok (twoWords d.toNat)) := by
  simp only [execBankRead, hc, hr]

theorem execBankRead_poison {w : BitVec 16} {t : State} (hc : s.bankCheck who.owner n = .ok)
    (hr : s.bankRead n w.toNat = (t, none)) :
    execBankRead who n w s = .next (t.answerWord .poison (List.replicate 2 (BitVec.allOnes 32))) := by
  simp only [execBankRead, hc, hr]

theorem execBankWrite_permitted (w : BitVec 16) (data : BitVec 64) (whole : Bool) (hc : s.bankCheck who.owner n = .ok) :
    execBankWrite who n w data whole s = .next (if whole then (s.bankWrite n [(w.toNat, data)]).answerWord .ok []
      else s.answerWord .narrow []) := by
  cases whole <;> simp [execBankWrite, hc]

end

/-- Settles O15: past its checks a read answers what the bank gives of the word (`execBankRead_word`,
`execBankRead_poison`), and a write is stored where it is whole (`execBankWrite_permitted`). -/
theorem bankAccessesAnswer : Obligations.BankAccessesAnswer := by
  unfold Obligations.BankAccessesAnswer
  refine ⟨?word, ?poison, ?whole, ?part⟩
  case word =>
    intro who n w d t s hc hr
    rw [exec_bankRead, execBankRead_word hc hr]
  case poison =>
    intro who n w t s hc hr
    rw [exec_bankRead, execBankRead_poison hc hr]
  case whole =>
    intro who n w data s hc
    rw [exec_bankWrite, execBankWrite_permitted w data true hc, if_pos rfl]
  case part =>
    intro who n w data s hc
    rw [exec_bankWrite, execBankWrite_permitted w data false hc, if_neg Bool.false_ne_true]

/-! ## The ownership commands (R248 to R250) -/

section
variable {s : State} {m : Fin 5} {p : Packet}

/-- OWN_RECORD_SET of words that the resources may hold commits the record as item 2 of the journal. -/
theorem execOwnRecordSet_commits {fails0 fails1 : Nat} {u : State} (hc : CommandRuns s m 0x73 p)
    (hv : ownershipValid p.params = true) (hj : JournalTakes s 2 (wordBytes p.params) fails0 fails1 u) :
    execOwnRecordSet m fails0 fails1 s = .next ((u.commitOwner 0x01 fails0 fails1).reply m St.ok) := by
  rw [execOwnRecordSet, command_runs s m 0x73 p _ hc, hv, replyJournal_takes s u m 2 _ _ _ hj]
  rfl

/-- OWN_HANDOVER with clean parameters hands over as R238 decides; its reply comes once nothing is left to clear. -/
theorem execOwnHandover_hands {r : Resource} {t : State} (hc : CommandRuns s m 0x71 p)
    (hr : resourceOf (bitsOf (p.p 0) 0 2) (bitsOf (p.p 0) 8 7) = some r) (hgap : bitsOf (p.p 0) 2 6 = 0)
    (h0 : p.p 0 < 2 ^ 15) (h1 : p.p 1 < 2 ^ 17) (htarget : p.target = 0)
    (hd : s.handOver r (mailOwner m) (bitsOf (p.p 1) 0 8) (bitsOf (p.p 1) 8 8) ((p.p 1).testBit 16) = .done t) :
    execOwnHandover m s = .next (if t.handoverBusy r then t.await m p r.wait
      else t.reply m St.ok [BitVec.ofNat 32 (t.holder r)]) := by
  have hclean : (bitsOf (p.p 0) 2 6 ≠ 0 || p.p 0 / 2 ^ 15 ≠ 0 || p.p 1 / 2 ^ 17 ≠ 0 || p.target ≠ 0) = false := by
    rw [hgap, Nat.div_eq_of_lt h0, Nat.div_eq_of_lt h1, htarget]
    rfl
  rw [execOwnHandover, command_runs s m 0x71 p _ hc]
  simp only [hr, hclean, hd]
  rfl

end

/-- Settles O18: each command that runs acts as its row says (`command_runs`); OWN_RECORD_SET leaves the record to the
journal (`execOwnRecordSet_commits`), and OWN_HANDOVER leaves the decision to R238 (`execOwnHandover_hands`). -/
theorem ownershipCommandsReply : Obligations.OwnershipCommandsReply := by
  unfold Obligations.OwnershipCommandsReply
  refine ⟨?read, ?get, ?set, ?handover⟩
  case read =>
    intro m p s hc
    rw [exec_ownRead, execOwnRead, command_runs s m 0x70 p _ hc]
  case get =>
    intro m p s hc
    rw [exec_ownRecordGet, execOwnRecordGet, command_runs s m 0x72 p _ hc]
  case set =>
    intro m fails0 fails1 p u s hc hv hj
    rw [exec_ownRecordSet, execOwnRecordSet_commits hc hv hj]
  case handover =>
    intro m p r t s hc hr hgap h0 h1 htarget hd
    rw [exec_ownHandover, execOwnHandover_hands hc hr hgap h0 h1 htarget hd]

end Sys2Proof.Machine
end

section
/-! Scrubbers, clears and slice tests (09 R266 to R268, R273, R274, R278; 08 R241): what the step of each does, branch by
branch. -/

namespace Sys2Proof.Machine

theorem exec_scrubStep (n : Fin 128) (s : State) : exec (.scrubStep n) s = execScrubStep n s := rfl

theorem exec_scrubPassOverdue (n : Fin 128) (s : State) : exec (.scrubPassOverdue n) s = execScrubPassOverdue n s := rfl

theorem exec_bankClear (g : Fin 16) (s : State) : exec (.bankClear g) s = execBankClear g s := rfl

theorem exec_bankClearDone (g : Fin 16) (s : State) : exec (.bankClearDone g) s = execBankClearDone g s := rfl

theorem exec_clearOnHandover (n : Fin 128) (s : State) : exec (.clearOnHandover n) s = execClearOnHandover n s := rfl

theorem exec_slicePage (g : Fin 16) (found : List (Nat × Nat)) (s : State) :
    exec (.slicePage g found) s = execSlicePage g found s := rfl

section
variable {s : State} {n : Fin 128} {g : Fin 16}

/-! ## The scrub step (R253, R266, R267, R278) -/

theorem execScrubStep_deferred (hc : s.clearHolds n = true) : execScrubStep n s =
    .next { s with banks := { s.banks with deferred := SMap.put false s.banks.deferred n true } } := by
  rw [execScrubStep, hc]
  rfl

theorem execScrubStep_rests (hc : s.clearHolds n = false) (hw : s.scrubs n = false ∨ s.headWaits n = true) :
    execScrubStep n s = .next s := by
  obtain hidle | hwaits := hw
  · simp [execScrubStep, hc, hidle]
  · simp [execScrubStep, hc, hwaits]

/-- A step that neither a clear nor a request holds moves the scrubber to its next page, past a page under slice test. -/
theorem execScrubStep_runs (hc : s.clearHolds n = false) (hs : s.scrubs n = true) (hw : s.headWaits n = false) :
    execScrubStep n s = .next ((if (s.sliceOver n (512 * s.get .BNK_SCRUB_NEXT_PAGE n)).isSome then s
      else s.scrubPage n (s.get .BNK_SCRUB_NEXT_PAGE n)).scrubAdvance n) := by
  by_cases hslice : (s.sliceOver n (512 * s.get .BNK_SCRUB_NEXT_PAGE n)).isSome = true
  · simp [execScrubStep, hc, hs, hw, hslice]
  · simp [execScrubStep, hc, hs, hw, hslice]

theorem execScrubPassOverdue_reports (hs : s.scrubs n = true) :
    execScrubPassOverdue n s = .next (s.danger 4 n none (s.bankOwner n) false) := by
  rw [execScrubPassOverdue, if_pos hs, State.passOverdue]

/-! ## Clears (R241, R273, R274) -/

theorem execBankClear_starts {b : Nat} {rest : List Nat} (hr : s.enginesRun = true) (hg : s.groupOn g = true)
    (ha : s.flag .BNK_CLR_STAT_ACTIVE g = false) (hw : ∀ b ∈ banksOfGroup g, s.headWaits b = false)
    (hq : s.clears g = b :: rest) : execBankClear g s = .next ((s.deferredStep b).startClear g) := by
  have hnone : (banksOfGroup g).any s.headWaits = false := List.any_eq_false.2 fun b hb => by simp [hw b hb]
  simp [execBankClear, hr, hg, ha, hnone, hq]

theorem execBankClearDone_ends (hr : s.enginesRun = true) (ha : s.flag .BNK_CLR_STAT_ACTIVE g = true) :
    execBankClearDone g s = .next (s.endClear g) := by
  simp [execBankClearDone, hr, ha]

theorem execClearOnHandover_clears (hr : s.enginesRun = true) (hg : s.groupOn (groupOfBank n) = true)
    (hc : s.flag .BNK_OWNER_CLEARING n = true) (hf : (s.clears (groupOfBank n)).head? = some n.val) :
    execClearOnHandover n s = .next ((s.startClear (groupOfBank n)).endClear (groupOfBank n)) := by
  simp [execClearOnHandover, hr, hg, hc, hf]

/-! ## Slice tests (R278) -/

theorem execSlicePage_advances {found : List (Nat × Nat)} {t : SliceTest} (hm : s.mode = .run)
    (ht : s.slice g = some t) : execSlicePage g found s =
      .next (s.sliceUnit g (found.filter fun f => (pageCells t.page).contains f.1 && 0 < f.2)) := by
  simp [execSlicePage, hm, ht]

end

/-- Settles O17, each clause by the branch of its step that the hypotheses leave. -/
theorem scrubbersAndClearsRun : Obligations.ScrubbersAndClearsRun := by
  unfold Obligations.ScrubbersAndClearsRun
  refine ⟨?visit, ?skip, ?deferred, ?rests, ?overdue, ?start, ?done, ?handover, ?slice⟩
  case visit =>
    intro n s hc hs hw hslice
    rw [exec_scrubStep, execScrubStep_runs hc hs hw, hslice, if_neg Bool.false_ne_true]
  case skip =>
    intro n s hc hs hw hslice
    rw [exec_scrubStep, execScrubStep_runs hc hs hw, hslice, if_pos rfl]
  case deferred =>
    intro n s hc
    rw [exec_scrubStep, execScrubStep_deferred hc]
  case rests =>
    intro n s hc hw
    rw [exec_scrubStep, execScrubStep_rests hc hw]
  case overdue =>
    intro n s hs
    rw [exec_scrubPassOverdue, execScrubPassOverdue_reports hs]
  case start =>
    intro g n rest s hr hg ha hw hq
    rw [exec_bankClear, execBankClear_starts hr hg ha hw hq]
  case done =>
    intro g s hr ha
    rw [exec_bankClearDone, execBankClearDone_ends hr ha]
  case handover =>
    intro n s hr hg hc hf
    rw [exec_clearOnHandover, execClearOnHandover_clears hr hg hc hf]
  case slice =>
    intro g found t s hm ht
    rw [exec_slicePage, execSlicePage_advances hm ht]

end Sys2Proof.Machine
end

section
/-! The word code of a row (09 R255, R256): its syndrome is linear, the columns are distinct and of odd weight, and the sum
of two of them is of even weight. -/

namespace Sys2Proof.Machine

/-! ## Weights -/

theorem weight_xor_mod_two (a b w : Nat) : weight (a ^^^ b) w % 2 = (weight a w + weight b w) % 2 := by
  induction w with
  | zero => rfl
  | succ w ih =>
    have hbit : ((a ^^^ b).testBit w).toNat % 2 = ((a.testBit w).toNat + (b.testBit w).toNat) % 2 := by
      rw [Nat.testBit_xor]
      cases a.testBit w <;> cases b.testBit w <;> rfl
    simp only [weight]
    omega

/-! ## The columns (R255) -/

/-- The column of row bit i. -/
def column (i : Nat) : BitVec 8 := BitVec.ofNat 8 (columns.getD i 0)

theorem columns_getElem? {i : Nat} (hi : i < 72) : columns[i]? = some (column i).toNat := by
  have h : ∀ i < 72, columns[i]? = some (column i).toNat := by decide +kernel
  exact h i hi

/-- The columns are distinct: a column names its bit. -/
theorem columnIndex_column {i : Nat} (hi : i < 72) : columnIndex (column i).toNat = some i := by
  have h : ∀ i < 72, columnIndex (column i).toNat = some i := by decide +kernel
  exact h i hi

theorem weight_of_mem_columns {v : Nat} (hv : v ∈ columns) : weight v 8 % 2 = 1 := by
  have h : ∀ v ∈ columns, weight v 8 % 2 = 1 := by decide +kernel
  exact h v hv

theorem column_mem_columns {i : Nat} (hi : i < 72) : (column i).toNat ∈ columns :=
  List.mem_of_getElem? (columns_getElem? hi)

theorem column_ne_zero {i : Nat} (hi : i < 72) : column i ≠ 0 := by
  intro h
  have hodd : weight (column i).toNat 8 % 2 = 1 := weight_of_mem_columns (column_mem_columns hi)
  rw [h] at hodd
  exact absurd hodd (by decide)

theorem column_injective {i j : Nat} (hi : i < 72) (hj : j < 72) (h : column i = column j) : i = j := by
  have hindex : columnIndex (column i).toNat = some j := h ▸ columnIndex_column hj
  rw [columnIndex_column hi] at hindex
  exact Option.some.inj hindex

theorem columnIndex_eq_none {v : Nat} (hv : v ∉ columns) : columnIndex v = none := by
  rw [columnIndex, List.findIdx?_eq_none_iff]
  intro x hx
  exact beq_eq_false_iff_ne.2 fun h => hv (h ▸ hx)

/-! ## The check byte -/

theorem xor_if_xor (x y c : BitVec 8) (p q : Bool) : (if p ^^ q then x ^^^ y ^^^ c else x ^^^ y) =
    (if p then x ^^^ c else x) ^^^ (if q then y ^^^ c else y) := by
  have htwice : x ^^^ c ^^^ (y ^^^ c) = x ^^^ y := by
    calc x ^^^ c ^^^ (y ^^^ c) = x ^^^ y ^^^ (c ^^^ c) := by ac_rfl
      _ = x ^^^ y := by rw [BitVec.xor_self, BitVec.xor_zero]
  cases p <;> cases q
  · rfl
  · exact BitVec.xor_assoc x y c
  · show x ^^^ y ^^^ c = x ^^^ c ^^^ y
    ac_rfl
  · exact htwice.symm

theorem checkFold_xor (cs : List (Nat × Nat)) (a b : DWord) (x y : BitVec 8) :
    cs.foldl (fun c ci => if (a ^^^ b).getLsbD ci.2 then c ^^^ BitVec.ofNat 8 ci.1 else c) (x ^^^ y) =
      cs.foldl (fun c ci => if a.getLsbD ci.2 then c ^^^ BitVec.ofNat 8 ci.1 else c) x ^^^
        cs.foldl (fun c ci => if b.getLsbD ci.2 then c ^^^ BitVec.ofNat 8 ci.1 else c) y := by
  induction cs generalizing x y with
  | nil => rfl
  | cons ci cs ih =>
    have hstep : (if (a ^^^ b).getLsbD ci.2 then x ^^^ y ^^^ BitVec.ofNat 8 ci.1 else x ^^^ y) =
        (if a.getLsbD ci.2 then x ^^^ BitVec.ofNat 8 ci.1 else x) ^^^
          (if b.getLsbD ci.2 then y ^^^ BitVec.ofNat 8 ci.1 else y) := by
      rw [BitVec.getLsbD_xor]
      exact xor_if_xor x y _ _ _
    simp only [List.foldl_cons, hstep, ih]

theorem checkByte_xor (a b : DWord) : checkByte (a ^^^ b) = checkByte a ^^^ checkByte b :=
  checkFold_xor _ a b 0 0

/-! ## The syndrome (R256) -/

/-- The stored check byte of a row against that of its data bits. -/
def syndrome (r : BitVec 72) : BitVec 8 := checkByte (r.setWidth 64) ^^^ (r >>> 64).setWidth 8

theorem syndrome_xor (r e : BitVec 72) : syndrome (r ^^^ e) = syndrome r ^^^ syndrome e := by
  simp only [syndrome, BitVec.setWidth_xor, BitVec.ushiftRight_xor_distrib, checkByte_xor]
  ac_rfl

theorem encodeRow_data (d : DWord) : (encodeRow d).setWidth 64 = d := BitVec.setWidth_append_eq_right

theorem encodeRow_check (d : DWord) : (encodeRow d >>> 64).setWidth 8 = checkByte d := by
  ext i hi
  have hbit : (encodeRow d).getLsbD (64 + i) = _ := BitVec.getLsbD_append
  simp [hbit, BitVec.getLsbD_eq_getElem hi]

theorem syndrome_encodeRow (d : DWord) : syndrome (encodeRow d) = 0 := by
  rw [syndrome, encodeRow_data, encodeRow_check, BitVec.xor_self]
  rfl

theorem syndrome_bit {i : Nat} (hi : i < 72) : syndrome (BitVec.ofNat 72 (2 ^ i)) = column i := by
  have h : ∀ i < 72, syndrome (BitVec.ofNat 72 (2 ^ i)) = column i := by decide +kernel
  exact h i hi

theorem bit_data {i : Nat} (hi : i < 72) :
    (BitVec.ofNat 72 (2 ^ i)).setWidth 64 = if i < 64 then BitVec.ofNat 64 (2 ^ i) else 0 := by
  have h : ∀ i < 72, (BitVec.ofNat 72 (2 ^ i)).setWidth 64 = if i < 64 then BitVec.ofNat 64 (2 ^ i) else 0 := by
    decide +kernel
  exact h i hi

/-! ## Decoding by the syndrome (R256) -/

section
variable {r : BitVec 72}

theorem decodeRow_of_syndrome_zero (h : syndrome r = 0) : decodeRow r = .clean (r.setWidth 64) := by
  unfold syndrome at h
  rw [decodeRow, h]
  rfl

theorem decodeRow_of_syndrome_column {i : Nat} (hi : i < 72) (h : syndrome r = column i) :
    decodeRow r = .corrected
      (if i < 64 then r.setWidth 64 ^^^ BitVec.ofNat 64 (2 ^ i) else r.setWidth 64) := by
  have hne : (column i).toNat ≠ 0 := fun h0 => column_ne_zero hi (BitVec.eq_of_toNat_eq h0)
  unfold syndrome at h
  simp only [decodeRow, h, if_neg hne, columnIndex_column hi]

theorem decodeRow_of_syndrome_other (h0 : syndrome r ≠ 0) (h : (syndrome r).toNat ∉ columns) :
    decodeRow r = .uncorrectable (r.setWidth 64) := by
  have hne : (syndrome r).toNat ≠ 0 := fun hz => h0 (BitVec.eq_of_toNat_eq hz)
  unfold syndrome at h hne
  simp only [decodeRow, if_neg hne, columnIndex_eq_none h]

/-- Columns are of odd weight: an even syndrome but 0 is none of them. -/
theorem decodeRow_of_syndrome_even (h0 : syndrome r ≠ 0) (h : weight (syndrome r).toNat 8 % 2 = 0) :
    decodeRow r = .uncorrectable (r.setWidth 64) :=
  decodeRow_of_syndrome_other h0 fun hmem => by
    have hodd : weight (syndrome r).toNat 8 % 2 = 1 := weight_of_mem_columns hmem
    omega

end

theorem decodeRow_encodeRow (d : DWord) : decodeRow (encodeRow d) = .clean d := by
  rw [decodeRow_of_syndrome_zero (syndrome_encodeRow d), encodeRow_data]

theorem decodeRow_one_flip (d : DWord) {i : Nat} (hi : i < 72) :
    decodeRow (encodeRow d ^^^ BitVec.ofNat 72 (2 ^ i)) = .corrected d := by
  have hsyn : syndrome (encodeRow d ^^^ BitVec.ofNat 72 (2 ^ i)) = column i := by
    rw [syndrome_xor, syndrome_encodeRow, syndrome_bit hi]
    exact BitVec.zero_xor
  have hdata : (encodeRow d ^^^ BitVec.ofNat 72 (2 ^ i)).setWidth 64 =
      d ^^^ if i < 64 then BitVec.ofNat 64 (2 ^ i) else 0 := by
    rw [BitVec.setWidth_xor, encodeRow_data, bit_data hi]
  rw [decodeRow_of_syndrome_column hi hsyn, hdata]
  by_cases h : i < 64
  · rw [if_pos h, if_pos h, BitVec.xor_assoc, BitVec.xor_self, BitVec.xor_zero]
  · rw [if_neg h, if_neg h]
    congr 1
    exact BitVec.xor_zero

theorem decodeRow_two_flips (d : DWord) {i j : Nat} (hij : i < j) (hj : j < 72) :
    (decodeRow (encodeRow d ^^^ BitVec.ofNat 72 (2 ^ i) ^^^ BitVec.ofNat 72 (2 ^ j))).bad = true := by
  have hi : i < 72 := by omega
  have hsyn : syndrome (encodeRow d ^^^ BitVec.ofNat 72 (2 ^ i) ^^^ BitVec.ofNat 72 (2 ^ j)) =
      column i ^^^ column j := by
    rw [syndrome_xor, syndrome_xor, syndrome_encodeRow, syndrome_bit hi, syndrome_bit hj]
    congr 1
    exact BitVec.zero_xor
  have hne : column i ^^^ column j ≠ 0 := fun h => by
    have := column_injective hi hj (BitVec.xor_eq_zero_iff.1 h)
    omega
  have heven : weight (column i ^^^ column j).toNat 8 % 2 = 0 := by
    have hodd := weight_of_mem_columns (column_mem_columns hi)
    have hodd' := weight_of_mem_columns (column_mem_columns hj)
    rw [BitVec.toNat_xor, weight_xor_mod_two]
    omega
  rw [decodeRow_of_syndrome_even (hsyn ▸ hne) (hsyn ▸ heven)]
  rfl

/-- Settles O53: by the syndrome of the row (`decodeRow_of_syndrome_zero` and the three lemmas after it), which of one
flipped bit is its column and of two the sum of two columns. -/
theorem wordCodeCorrectsOneAndDetectsTwo : Obligations.WordCodeCorrectsOneAndDetectsTwo := by
  unfold Obligations.WordCodeCorrectsOneAndDetectsTwo
  refine ⟨?decoding, decodeRow_encodeRow, fun d i => decodeRow_one_flip d, fun d i j => decodeRow_two_flips d⟩
  intro r d syn hd hsyn
  have hr : syndrome r = syn := by rw [hsyn, hd, syndrome, BitVec.xor_comm]
  subst hd
  subst hr
  refine ⟨decodeRow_of_syndrome_zero, fun i hi hcol => ?_, decodeRow_of_syndrome_other, decodeRow_of_syndrome_even⟩
  have hcolumn : syndrome r = column i := by
    rw [columns_getElem? hi] at hcol
    exact (BitVec.eq_of_toNat_eq (Option.some.inj hcol)).symm
  exact decodeRow_of_syndrome_column hi hcolumn

end Sys2Proof.Machine
end

section
/-! A whole write of a word of a bank (09 R258, R262, R265): what a row reads as after another is written, the write in a
sound page, and its frame. -/

namespace Sys2Proof.Machine

/-! ## Rows and words -/

@[simp] theorem rowKey_putRow (s : State) (n cell m c : Nat) (r : BitVec 72) :
    (s.putRow n cell r).rowKey m c = s.rowKey m c := rfl

@[simp] theorem rowBase_putRow (s : State) (n cell m k : Nat) (r : BitVec 72) :
    (s.putRow n cell r).rowBase m k = s.rowBase m k := rfl

theorem spareOf_cell {s : State} {n c e : Nat} (h : s.spareOf n c = some e) :
    e < 16 ∧ s.get .BNK_REMAP_ENT_CELL (16 * n + e) = c := by
  have hmem : e ∈ List.range 16 := List.mem_of_find?_eq_some h
  have hholds := List.find?_some h
  simp only [Bool.and_eq_true, beq_iff_eq] at hholds
  exact ⟨List.mem_range.1 hmem, hholds.2⟩

/-- The place of a cell within its bank: its own, or a spare's. -/
def State.cellPlace (s : State) (n c : Nat) : Nat := ((s.spareOf n c).map (66560 + ·)).getD c

theorem rowKey_eq (s : State) (n c : Nat) : s.rowKey n c = 131072 * n + s.cellPlace n c := by
  rw [State.rowKey, State.cellPlace]
  cases s.spareOf n c <;> rfl

theorem cellPlace_lt {s : State} {n c : Nat} (hc : c < 66560) : s.cellPlace n c < 131072 := by
  rw [State.cellPlace]
  cases h : s.spareOf n c with
  | none => simpa using by omega
  | some e =>
    obtain ⟨he, -⟩ := spareOf_cell h
    simp only [Option.map_some, Option.getD_some]
    omega

/-- Two cells of a bank have two places: a spare cell serves one cell (R270). -/
theorem cellPlace_injective {s : State} {n c c' : Nat} (hc : c < 66560) (hc' : c' < 66560)
    (h : s.cellPlace n c = s.cellPlace n c') : c = c' := by
  rw [State.cellPlace, State.cellPlace] at h
  cases hs : s.spareOf n c with
  | none =>
    cases hs' : s.spareOf n c' with
    | none => simpa [hs, hs'] using h
    | some e' =>
      rw [hs, hs'] at h
      simp only [Option.map_none, Option.map_some, Option.getD_none, Option.getD_some] at h
      omega
  | some e =>
    cases hs' : s.spareOf n c' with
    | none =>
      rw [hs, hs'] at h
      simp only [Option.map_none, Option.map_some, Option.getD_none, Option.getD_some] at h
      omega
    | some e' =>
      rw [hs, hs'] at h
      simp only [Option.map_some, Option.getD_some, Nat.add_left_cancel_iff] at h
      subst h
      exact (spareOf_cell hs).2.symm.trans (spareOf_cell hs').2

theorem rowKey_injective {s : State} {n m c c' : Nat} (hc : c < 66560) (hc' : c' < 66560)
    (h : s.rowKey n c = s.rowKey m c') : n = m ∧ c = c' := by
  have hlt : s.cellPlace n c < 131072 := cellPlace_lt hc
  have hlt' : s.cellPlace m c' < 131072 := cellPlace_lt hc'
  rw [rowKey_eq, rowKey_eq] at h
  obtain rfl : n = m := by omega
  have hplace : s.cellPlace n c = s.cellPlace n c' := by omega
  exact ⟨rfl, cellPlace_injective hc hc' hplace⟩

theorem rowAt_putRow_same (s : State) (n c : Nat) (r : BitVec 72) : (s.putRow n c r).rowAt n c = r := by
  rw [State.rowAt, rowKey_putRow, rowBase_putRow]
  show SMap.look 0 (SMap.put 0 s.banks.row (s.rowKey n c) _) (s.rowKey n c) ^^^ _ = r
  rw [SMap.look_put_same, BitVec.xor_assoc, BitVec.xor_self, BitVec.xor_zero]

theorem rowAt_putRow_ne {s : State} {n m c c' : Nat} (r : BitVec 72) (h : s.rowKey m c' ≠ s.rowKey n c) :
    (s.putRow n c r).rowAt m c' = s.rowAt m c' := by
  rw [State.rowAt, State.rowAt, rowKey_putRow, rowBase_putRow]
  show SMap.look 0 (SMap.put 0 s.banks.row (s.rowKey n c) _) (s.rowKey m c') ^^^ _ = _
  rw [SMap.look_put_ne _ _ _ _ h]

@[simp] theorem wordAt_putWord_same (s : State) (n c : Nat) (d : DWord) : (s.putWord n c d).wordAt n c = .clean d := by
  rw [State.wordAt, State.putWord, rowAt_putRow_same, decodeRow_encodeRow]

theorem wordAt_putWord_ne {s : State} {n m c c' : Nat} (d : DWord) (hc : c < 66560) (hc' : c' < 66560)
    (h : m = n → c' ≠ c) : (s.putWord n c d).wordAt m c' = s.wordAt m c' := by
  rw [State.wordAt, State.putWord, rowAt_putRow_ne]
  · rfl
  · intro hkey
    obtain ⟨hbank, hcell⟩ := rowKey_injective hc' hc hkey
    exact h hbank hcell

/-! ## Frames -/

/-- `t` differs from `s` at most in the words `cells` of bank n: every other word reads as before, and the poison and the
registers are the same. -/
structure WritesCells (n : Nat) (cells : List Nat) (s t : State) : Prop where
  words : ∀ m c, c < 66560 → (m = n → c ∉ cells) → t.wordAt m c = s.wordAt m c
  poison : t.banks.poison = s.banks.poison
  regs : t.regs = s.regs

theorem WritesCells.refl (n : Nat) (cells : List Nat) (s : State) : WritesCells n cells s s :=
  ⟨fun _ _ _ _ => rfl, rfl, rfl⟩

theorem WritesCells.putWord {n c : Nat} {cells : List Nat} {s t : State} (h : WritesCells n cells s t) (d : DWord)
    (hc : c ∈ cells) (hlt : c < 66560) : WritesCells n cells s (t.putWord n c d) := by
  obtain ⟨hwords, hpoison, hregs⟩ := h
  refine ⟨fun m c' hc' hout => ?_, hpoison, hregs⟩
  have hne : m = n → c' ≠ c := fun hm heq => hout hm (heq ▸ hc)
  rw [wordAt_putWord_ne d hlt hc' hne, hwords m c' hc' hout]

/-! ## The parity words of a page -/

theorem mem_parityCells {p c : Nat} : c ∈ parityCells p ↔ ∃ i < 8, 65536 + 8 * p + i = c := by
  simp [parityCells]

theorem mem_dataCells_page (w : Nat) : w ∈ dataCells (w / 512) := by
  simp only [dataCells, List.mem_map, List.mem_range]
  exact ⟨w % 512, Nat.mod_lt _ (by decide), Nat.div_add_mod w 512⟩

theorem WritesCells.putParity {n p : Nat} {cells : List Nat} {s t : State} (h : WritesCells n cells s t) {ps : List DWord}
    (hp : p < 128) (hps : ps.length ≤ 8) (hcells : ∀ c ∈ parityCells p, c ∈ cells) :
    WritesCells n cells s (t.putParity n p ps) := by
  refine List.foldlRecOn _ _ h fun u hu x hx => ?_
  have hi : x.2 < ps.length := by simpa using List.snd_lt_of_mem_zipIdx hx
  exact hu.putWord _ (hcells _ (mem_parityCells.2 ⟨x.2, by omega, rfl⟩)) (by omega)

@[simp] theorem deltaParity_length (w : Nat) (delta : DWord) (ps : List DWord) :
    (deltaParity w delta ps).length = ps.length := by
  simp [deltaParity]

/-! ## A write in a sound page -/

section
variable {s : State} {n p w : Nat} {d : DWord}

theorem fixParity_of_clean (hclean : ∀ c ∈ parityCells p, ∃ d, s.wordAt n c = .clean d) : s.fixParity n p = s := by
  have hnone : (parityCells p).filter (fun c => (s.wordAt n c).fixed) = [] :=
    List.filter_eq_nil_iff.2 fun c hc => by
      obtain ⟨d, hd⟩ := hclean c hc
      rw [hd]
      exact Bool.false_ne_true
  rw [State.fixParity, hnone]
  rfl

/-- The parity words of page p after word w of it is written with d (R258). -/
def State.movedParity (s : State) (n p w : Nat) (d : DWord) : List DWord :=
  deltaParity (w % 512) ((s.wordAt n w).value ^^^ d) ((parityCells p).map fun c => (s.wordAt n c).value)

theorem movedParity_length : (s.movedParity n p w d).length = 8 := by
  simp [State.movedParity, parityCells]

theorem deltaWrite_of_clean (hclean : ∀ c ∈ parityCells p, ∃ d, s.wordAt n c = .clean d) :
    s.deltaWrite n p [(w, d)] = (s.putWord n w d).putParity n p (s.movedParity n p w d) := by
  simp only [State.deltaWrite, fixParity_of_clean hclean, List.foldl_cons, List.foldl_nil, State.movedParity]

/-- A sound page needs no correction first, and no word of it a seal (R258, R265). -/
theorem writeWords_of_sound (hclean : ∀ c ∈ pageCells (w / 512), ∃ d, s.wordAt n c = .clean d)
    (hpoison : s.poisoned n w = false) : s.writeWords n [(w, d)] = s.deltaWrite n (w / 512) [(w, d)] := by
  obtain ⟨old, hold⟩ := hclean w (List.mem_append_left _ (mem_dataCells_page w))
  have hmend : s.mendForWrite n (w / 512) [(w, d)] = s := by
    simp [State.mendForWrite, State.unsound, hold, Decoded.bad]
  have hseal : ([(w, d)].find? fun wd => s.poisoned n wd.1) = none := by simp [hpoison]
  have hparity : (parityCells (w / 512)).any (fun c => (s.wordAt n c).bad) = false :=
    List.any_eq_false.2 fun c hc => by
      obtain ⟨x, hx⟩ := hclean c (List.mem_append_right _ hc)
      rw [hx]
      exact Bool.false_ne_true
  have hfix : s.fixTargets n [(w, d)] = s := by simp [State.fixTargets, hold]
  simp only [State.writeWords, hmend, hseal, hparity, Option.map_none, Bool.and_false, if_neg Bool.false_ne_true,
    hfix]

theorem bankWrite_of_no_slice (hs : ∀ g, s.slice g = none) : s.bankWrite n [(w, d)] = s.writeWords n [(w, d)] := by
  have hroute : s.routeWrite n w = (s, n, w) := by
    rw [State.routeWrite, State.sliceOver, hs]
    rfl
  simp [State.bankWrite, hroute]

theorem wordAt_putParity (hw : w < 65536) (hp : p < 128) {ps : List DWord} (hps : ps.length ≤ 8) :
    (s.putParity n p ps).wordAt n w = s.wordAt n w := by
  have hframe : WritesCells n (parityCells p) s (s.putParity n p ps) :=
    (WritesCells.refl n _ s).putParity hp hps fun _ hc => hc
  refine hframe.words n w (by omega) fun _ hmem => ?_
  obtain ⟨i, -, hi⟩ := mem_parityCells.1 hmem
  omega

end

/-- A whole write of word w in a sound page stores it, and writes beside it the page's parity words only. -/
theorem bankWrite_sound {s : State} {n w : Nat} (d : DWord) (hw : w < 65536) (hs : ∀ g, s.slice g = none)
    (hclean : ∀ c ∈ pageCells (w / 512), ∃ d, s.wordAt n c = .clean d) (hpoison : s.poisoned n w = false) :
    (s.bankWrite n [(w, d)]).wordAt n w = .clean d ∧
      WritesCells n (w :: parityCells (w / 512)) s (s.bankWrite n [(w, d)]) := by
  have hp : w / 512 < 128 := by omega
  have hps : (s.movedParity n (w / 512) w d).length ≤ 8 := movedParity_length.le
  have hwritten : s.bankWrite n [(w, d)] =
      (s.putWord n w d).putParity n (w / 512) (s.movedParity n (w / 512) w d) := by
    rw [bankWrite_of_no_slice hs, writeWords_of_sound hclean hpoison,
      deltaWrite_of_clean fun c hc => hclean c (List.mem_append_right _ hc)]
  rw [hwritten]
  constructor
  · rw [wordAt_putParity hw hp hps, wordAt_putWord_same]
  · exact ((WritesCells.refl n _ s).putWord d List.mem_cons_self (by omega)).putParity hp hps
      fun c hc => List.mem_cons_of_mem _ hc

/-- Settles O54: past its checks the write is `bankWrite`, whose frame is `bankWrite_sound`; the answer is no memory. -/
theorem bankWriteChangesItsWordOnly : Obligations.BankWriteChangesItsWordOnly := by
  unfold Obligations.BankWriteChangesItsWordOnly
  intro who n w data s t hcheck hslice hclean hpoison hstep
  rw [exec_bankWrite, execBankWrite_permitted w data true hcheck, if_pos rfl] at hstep
  obtain rfl := Host.Outcome.next.inj hstep
  obtain ⟨hstored, hframe⟩ := bankWrite_sound data w.isLt hslice hclean (hpoison _ (mem_dataCells_page _))
  refine ⟨hstored, fun m c _ hc hout => ?_, hframe.poison, hframe.regs⟩
  refine hframe.words m c hc fun hm hmem => ?_
  obtain ⟨hne, hnot⟩ := hout hm
  obtain heq | hparity := List.mem_cons.1 hmem
  · exact hne heq
  · exact hnot hparity

end Sys2Proof.Machine
end

section
/-! The canonical form of the memories (04 R252; 11 R312), part 1: what it means for an outcome, the rules
every operation shares, and the operations of the fabric, the Spine, the mailboxes, the clocks and the engine. One
lemma per operation, with its proof in the shape of the operation's definition: `h.put.logEvent` for a `put`, then a
`logEvent`. -/

namespace Sys2Proof

theorem SMap.wf_nil {α : Type} {d : α} : SMap.wf d [] := ⟨List.Pairwise.nil, fun _ h => nomatch h⟩

end Sys2Proof

namespace Sys2Proof.Machine

/-- The seven memories that `MemoryForm` speaks of. -/
def State.memories (s : State) : SMap Nat × SMap (BitVec 72) × SMap (BitVec 3) × SMap DWord × SMap PageKind ×
    SMap Word × SMap Word :=
  (s.regs, s.banks.row, s.banks.poison, s.slate.word, s.slate.page, s.mail.request, s.mail.reply)

/-- A next state's memories keep their form. -/
def OutForm : Out → Prop
  | .next t => MemoryForm t
  | _ => True

/-- A register write's state keeps the memories' form. -/
def WroteForm : Wrote → Prop
  | .took t | .notOwner t | .rejected t => MemoryForm t
  | .dark => True

section
variable {s t : State}

theorem OutForm.next (h : MemoryForm s) : OutForm (.next s) := h

theorem WroteForm.took (h : MemoryForm s) : WroteForm (.took s) := h

theorem WroteForm.notOwner (h : MemoryForm s) : WroteForm (.notOwner s) := h

theorem WroteForm.rejected (h : MemoryForm s) : WroteForm (.rejected s) := h

theorem OutForm.ite {c : Prop} [Decidable c] {a b : Out} (ha : OutForm a) (hb : OutForm b) :
    OutForm (if c then a else b) := by split <;> assumption

theorem WroteForm.ite {c : Prop} [Decidable c] {a b : Wrote} (ha : WroteForm a) (hb : WroteForm b) :
    WroteForm (if c then a else b) := by split <;> assumption

namespace MemoryForm

theorem ite {c : Prop} [Decidable c] (hs : MemoryForm s) (ht : MemoryForm t) : MemoryForm (if c then s else t) := by
  split <;> assumption

theorem iteFst {β : Type} {c : Prop} [Decidable c] {p q : State × β} (hp : MemoryForm p.1) (hq : MemoryForm q.1) :
    MemoryForm (if c then p else q).1 := by
  split <;> assumption

/-- What an operation writes elsewhere than in the seven memories leaves their form. -/
theorem elsewhere (h : MemoryForm s) (e : t.memories = s.memories := by exact rfl) : MemoryForm t := by
  simp only [State.memories, Prod.mk.injEq] at e
  obtain ⟨hregs, hrows, hpoison, hwords, hpages, hrequests, hreplies⟩ := e
  exact ⟨hregs ▸ h.regs, hrows ▸ h.rows, hpoison ▸ h.poison, hwords ▸ h.words, hpages ▸ h.pages,
    hrequests ▸ h.requests, hreplies ▸ h.replies⟩

theorem withPending {x} (h : MemoryForm s) : MemoryForm { s with pending := x } := { h with }

theorem withFreeCount {x} (h : MemoryForm s) : MemoryForm { s with freeCount := x } := { h with }

theorem withLatch {x} (h : MemoryForm s) : MemoryForm { s with latch := x } := { h with }

theorem withAnswer {x} (h : MemoryForm s) : MemoryForm { s with answer := x } := { h with }

theorem withMode {x} (h : MemoryForm s) : MemoryForm { s with mode := x } := { h with }

theorem withHosts {x} (h : MemoryForm s) : MemoryForm { s with hosts := x } := { h with }

theorem withSpine {x} (h : MemoryForm s) : MemoryForm { s with spine := x } := { h with }

theorem withFences {x} (h : MemoryForm s) : MemoryForm { s with fences := x } := { h with }

theorem withPorts {x} (h : MemoryForm s) : MemoryForm { s with ports := x } := { h with }

theorem withFabric {x} (h : MemoryForm s) : MemoryForm { s with fabric := x } := { h with }

theorem withLoader {x} (h : MemoryForm s) : MemoryForm { s with loader := x } := { h with }

theorem withClocks {x} (h : MemoryForm s) : MemoryForm { s with clocks := x } := { h with }

theorem withLanes {x} (h : MemoryForm s) : MemoryForm { s with lanes := x } := { h with }

theorem withSafety {x} (h : MemoryForm s) : MemoryForm { s with safety := x } := { h with }

theorem withLedger {x} (h : MemoryForm s) : MemoryForm { s with ledger := x } := { h with }

theorem withPower {x} (h : MemoryForm s) : MemoryForm { s with power := x } := { h with }

theorem withJournal {x} (h : MemoryForm s) : MemoryForm { s with journal := x } := { h with }

theorem withDma {x} (h : MemoryForm s) : MemoryForm { s with dma := x } := { h with }

theorem withHoldup {x} (h : MemoryForm s) : MemoryForm { s with holdup := x } := { h with }

theorem withTest {x} (h : MemoryForm s) : MemoryForm { s with test := x } := { h with }

theorem withFuses {x} (h : MemoryForm s) : MemoryForm { s with fuses := x } := { h with }

theorem withGoldPointer {x} (h : MemoryForm s) : MemoryForm { s with goldPointer := x } := { h with }

theorem withJtag {x} (h : MemoryForm s) : MemoryForm { s with jtag := x } := { h with }

theorem withCalib {x} (h : MemoryForm s) : MemoryForm { s with calib := x } := { h with }

/-- The state half of a pair. -/
theorem ofFst {β : Type} {p : State × β} {b : β} (h : MemoryForm p.1) (e : p = (t, b)) : MemoryForm t := by
  rw [e] at h; exact h

theorem ofSnd {β : Type} {p : β × State} {b : β} (h : MemoryForm p.2) (e : p = (b, t)) : MemoryForm t := by
  rw [e] at h; exact h

theorem foldl {α : Type} {l : List α} {f : State → α → State} (h : MemoryForm s)
    (hf : ∀ t x, MemoryForm t → MemoryForm (f t x)) : MemoryForm (l.foldl f s) := by
  induction l generalizing s with
  | nil => exact h
  | cons x l ih => exact ih (hf s x h)

theorem foldlFst {α β : Type} {l : List α} {f : State × β → α → State × β} {p : State × β} (h : MemoryForm p.1)
    (hf : ∀ q x, MemoryForm q.1 → MemoryForm (f q x).1) : MemoryForm (l.foldl f p).1 := by
  induction l generalizing p with
  | nil => exact h
  | cons x l ih => exact ih (hf p x h)

theorem forEach {l : List Nat} {f : State → Nat → State} (h : MemoryForm s)
    (hf : ∀ t i, MemoryForm t → MemoryForm (f t i)) : MemoryForm (s.forEach l f) := h.foldl hf

/-! ## The shared operations -/

theorem put {f v i} (h : MemoryForm s) : MemoryForm (s.put f v i) := { h with regs := SMap.wf_put _ _ _ h.regs }

theorem putFlag {f b i} (h : MemoryForm s) : MemoryForm (s.putFlag f b i) := h.put

theorem putBit {f n b i} (h : MemoryForm s) : MemoryForm (s.putBit f n b i) := h.put

theorem bump {f i step} (h : MemoryForm s) : MemoryForm (s.bump f i step) := h.put

theorem resetRegs {rs i} (h : MemoryForm s) : MemoryForm (s.resetRegs rs i) :=
  { h with regs := SMap.wf_filter _ _ h.regs }

theorem stamp {f i} (h : MemoryForm s) : MemoryForm (s.stamp f i) := h.put

theorem spend (h : MemoryForm s) : MemoryForm s.spend := h.withFreeCount

theorem logEvent {code arg0 arg1 owner flags} (h : MemoryForm s) :
    MemoryForm (s.logEvent code arg0 arg1 owner flags) :=
  .ite h.withSafety h.bump

theorem logDiag {diag detail value owner flags} (h : MemoryForm s) :
    MemoryForm (s.logDiag diag detail value owner flags) := by
  unfold State.logDiag
  dsimp only
  split
  · exact h.bump.logEvent
  · exact h.bump.logEvent.spend

theorem setMode {m} (h : MemoryForm s) : MemoryForm (s.setMode m) := h.withMode.put.stamp.logEvent

theorem wake {source index} (h : MemoryForm s) : MemoryForm (s.wake source index) :=
  .ite h (.ite h.bump h.put.put.put.stamp.putFlag.withPower)

theorem admitOp {c what} (h : MemoryForm s) : MemoryForm (s.admitOp c what) := h.withLedger

theorem releaseOp {c what} (h : MemoryForm s) : MemoryForm (s.releaseOp c what) := h.withLedger

theorem refuseEnergy {c} (h : MemoryForm s) : MemoryForm (s.refuseEnergy c) := h.bump.put.put.stamp

theorem recordRefusal {request reason refuser index abort} (h : MemoryForm s) :
    MemoryForm (s.recordRefusal request reason refuser index abort) :=
  h.bump.bump.put.put.putFlag.put.put.stamp.logEvent

theorem captureDecerr {owner addr write cause} (h : MemoryForm s) :
    MemoryForm (s.captureDecerr owner addr write cause) :=
  h.put.put.putFlag.putFlag.bump

theorem countDark (h : MemoryForm s) : MemoryForm s.countDark := h.bump

theorem countDirect {beats c} (h : MemoryForm s) : MemoryForm (s.countDirect beats c) :=
  (MemoryForm.ite h.countDark h).put.bump

/-! ## The fabric -/

theorem putCells {f v} (h : MemoryForm s) : MemoryForm (s.putCells f v) := h.withFabric

theorem putFlop {k v} (h : MemoryForm s) : MemoryForm (s.putFlop k v) := h.withFabric

theorem leEdge {e} (h : MemoryForm s) : MemoryForm (s.leEdge e) := h.putFlop.putFlop

theorem initFlops {k} (h : MemoryForm s) : MemoryForm (s.initFlops k) :=
  h.withFabric.forEach fun _ _ h2 => h2.forEach fun _ _ h3 => h3.putFlop.putFlop

theorem putRamCell {f b v} (h : MemoryForm s) : MemoryForm (s.putRamCell f b v) := h.putCells

theorem putRamWord {f width w lanes v} (h : MemoryForm s) : MemoryForm (s.putRamWord f width w lanes v) :=
  h.forEach fun _ _ h1 => .ite h1.putRamCell h1

theorem ramWrite {f c width w lanes v} (h : MemoryForm s) : MemoryForm (s.ramWrite f c width w lanes v) :=
  .ite h.putRamWord h.putRamWord

theorem putRamState {f r} (h : MemoryForm s) : MemoryForm (s.putRamState f r) := h.withFabric

theorem ramPorts {f c e} (h : MemoryForm s) : MemoryForm (s.ramPorts f c e) := by
  have hw : ∀ {b : Bool} {f c w a l v} {u : State}, MemoryForm u →
      MemoryForm (if b then u.ramWrite f c w a l v else u) := fun hu => .ite hu.ramWrite hu
  exact (MemoryForm.ite (hw (hw h)) (hw (hw h))).putRamState.spend

theorem ramFifo {f c e} (h : MemoryForm s) : MemoryForm (s.ramFifo f c e) :=
  (MemoryForm.ite h.ramWrite h).putRamState.spend

theorem ramEdge {e} (h : MemoryForm s) : MemoryForm (s.ramEdge e) := .ite h.ramFifo h.ramPorts

theorem macEdge {e} (h : MemoryForm s) : MemoryForm (s.macEdge e) := h.withFabric

/-! ## The Spine -/

theorem enqueue {src owner kind addr beats user} (h : MemoryForm s) :
    MemoryForm (s.enqueue src owner kind addr beats user) :=
  h.withSpine

theorem answerTxn {t bs} (h : MemoryForm s) : MemoryForm (s.answerTxn t bs) := h.withSpine

theorem answerDark {t} (h : MemoryForm s) : MemoryForm (s.answerDark t) := h.answerTxn.countDark

theorem takeTxn {t} (h : MemoryForm s) : MemoryForm (s.takeTxn t) := h.withSpine

theorem noteGrant {arb input others} (h : MemoryForm s) : MemoryForm (s.noteGrant arb input others) :=
  h.withSpine.put

theorem linkGrant {plane xs y} (h : MemoryForm s) (e : s.linkGrant plane xs = some (t, y)) : MemoryForm t := by
  unfold State.linkGrant at e
  dsimp only at e
  (repeat' split at e) <;> cases e
  exact h.elsewhere.noteGrant

theorem moveRequests {n} (h : MemoryForm s) : MemoryForm (State.moveRequests n s) := by
  induction n generalizing s with
  | zero => exact h
  | succ n ih =>
    unfold State.moveRequests
    dsimp only
    split
    · exact h.elsewhere
    · rename_i e
      exact ih (linkGrant h.elsewhere e).elsewhere

theorem moveResponses {n} (h : MemoryForm s) : MemoryForm (State.moveResponses n s) := by
  induction n generalizing s with
  | zero => exact h
  | succ n ih =>
    unfold State.moveResponses
    dsimp only
    split
    · exact h.elsewhere
    · rename_i e
      exact ih (linkGrant h.elsewhere e).elsewhere

theorem flowRequests (h : MemoryForm s) : MemoryForm s.flowRequests := h.moveRequests

theorem flowResponses (h : MemoryForm s) : MemoryForm s.flowResponses := h.moveResponses

/-! ## Fences -/

theorem putFence {k f} (h : MemoryForm s) : MemoryForm (s.putFence k f) := h.withFences

theorem putGio {n p} (h : MemoryForm s) : MemoryForm (s.putGio n p) := h.withFabric

theorem putFio {n p} (h : MemoryForm s) : MemoryForm (s.putFio n p) := h.withFabric

theorem showFio {n} (h : MemoryForm s) : MemoryForm (s.showFio n) := (MemoryForm.ite h.putFio h).putBit

theorem showPins {k} (h : MemoryForm s) : MemoryForm (s.showPins k) := by
  unfold State.showPins
  extract_lets s1
  have h1 : MemoryForm s1 := by
    dsimp only [s1]
    split
    · exact h
    · exact h.putFlag.putFlag
  split
  · exact h1
  · exact h1.forEach fun _ _ h2 => h2.showFio

theorem showAllPins (h : MemoryForm s) : MemoryForm s.showAllPins := h.forEach fun _ _ h1 => h1.showPins

theorem capturePins {k} (h : MemoryForm s) : MemoryForm (s.capturePins k) := by
  unfold State.capturePins
  extract_lets s1
  have h1 : MemoryForm s1 := by
    dsimp only [s1]
    split
    · exact h
    · exact h.forEach fun _ _ h2 => h2.putGio
  split
  · exact h1
  · exact h1.forEach fun _ _ h3 => h3.putFio

theorem putChannel {c o} (h : MemoryForm s) : MemoryForm (s.putChannel c o) := h.withFabric

theorem closeChannels (h : MemoryForm s) : MemoryForm s.closeChannels :=
  h.forEach fun _ _ h1 => .ite h1 h1.putChannel

theorem putPort {p v} (h : MemoryForm s) : MemoryForm (s.putPort p v) := h.withPorts

theorem putLane {l v} (h : MemoryForm s) : MemoryForm (s.putLane l v) := h.withLanes

theorem abortScan {l} (h : MemoryForm s) : MemoryForm (s.abortScan l) := .ite h.spend.put.putFlag.putFlag.putFlag h

theorem idleLanes {k} (h : MemoryForm s) : MemoryForm (s.idleLanes k) :=
  h.forEach fun _ _ h1 => .ite h1 h1.putFlag.abortScan.putLane

theorem resumeLanes {k} (h : MemoryForm s) : MemoryForm (s.resumeLanes k) :=
  h.forEach fun _ _ h1 => .ite h1 h1.putLane

theorem discardFifo {p} (h : MemoryForm s) : MemoryForm (s.discardFifo p) := h.bump.bump.bump.putPort

theorem darkInFlight {k} (h : MemoryForm s) : MemoryForm (s.darkInFlight k) := h.foldl fun _ _ h1 => h1.answerDark

theorem discardRequests {k} (h : MemoryForm s) : MemoryForm (s.discardRequests k) :=
  (h.forEach fun _ _ h2 => h2.bump).withSpine

theorem fenceEffects {k} (h : MemoryForm s) : MemoryForm (s.fenceEffects k) :=
  (h.darkInFlight.discardRequests.forEach fun _ _ h3 => h3.discardFifo).idleLanes.closeChannels

theorem addFence {k f} (h : MemoryForm s) : MemoryForm (s.addFence k f) :=
  .ite h.putFence.showPins h.capturePins.putFence.fenceEffects.showPins

theorem resyncPorts {k} (h : MemoryForm s) : MemoryForm (s.resyncPorts k) :=
  h.forEach fun _ _ h1 => .ite h1.putPort h1

theorem clearFence {k f} (h : MemoryForm s) : MemoryForm (s.clearFence k f) :=
  .ite h (.ite h.putFence.showPins h.putFence.resyncPorts.resumeLanes.showPins)

theorem fenceAll {f} (h : MemoryForm s) : MemoryForm (s.fenceAll f) := h.forEach fun _ _ h1 => h1.addFence

theorem fenceByPll {j} (h : MemoryForm s) : MemoryForm (s.fenceByPll j) :=
  h.addFence.forEach fun _ _ h2 => h2.addFence

theorem unfenceByPll {j} (h : MemoryForm s) : MemoryForm (s.unfenceByPll j) :=
  h.clearFence.forEach fun _ _ h2 => .ite h2.clearFence h2

/-! ## Mailboxes -/

theorem setRunning {m p} (h : MemoryForm s) : MemoryForm (s.setRunning m p) := h.elsewhere

theorem putMsixWord {k w v} (h : MemoryForm s) : MemoryForm (s.putMsixWord k w v) := h.withHosts

theorem sendMsix {k v} (h : MemoryForm s) : MemoryForm (s.sendMsix k v) := .ite h.withHosts h.withHosts

/-- Words written into a reply ring one by one. -/
theorem replyRing {α : Type} {k : α → Nat} {w : α → Word} (l : List α) {ring : SMap Word} (h : SMap.wf 0 ring) :
    SMap.wf 0 (l.foldl (fun r x => SMap.put (0 : Word) r (k x) (w x)) ring) := by
  induction l generalizing ring with
  | nil => exact h
  | cons x l ih => exact ih (SMap.wf_put _ _ _ h)

theorem putReply {m at0 ws} (h : MemoryForm s) : MemoryForm (s.putReply m at0 ws) :=
  { h with replies := replyRing _ h.replies }

theorem replyTo {m p status results} (h : MemoryForm s) : MemoryForm (s.replyTo m p status results) :=
  .ite h (.ite h.setRunning.bump (.ite h.setRunning (.ite h.setRunning.putReply.put.sendMsix
      h.setRunning.putReply.put)))

theorem reply {m status results} (h : MemoryForm s) : MemoryForm (s.reply m status results) := by
  unfold State.reply
  split
  · exact h.replyTo
  · exact h

theorem command {m op f} (h : MemoryForm s) (hf : ∀ p, MemoryForm (f p)) : MemoryForm (s.command m op f) := by
  unfold State.command
  split
  · exact h
  · refine .ite h ?_
    split
    · exact hf _
    · exact hf _
    · exact .ite (hf _) h.replyTo
    · exact h

theorem await {m p w} (h : MemoryForm s) : MemoryForm (s.await m p w) := h.setRunning

theorem replyWaiting {w status results} (h : MemoryForm s) : MemoryForm (s.replyWaiting w status results) :=
  h.forEach fun _ _ h1 => by
    split
    · exact .ite h1.replyTo h1
    · exact h1

theorem replyEnergyRefused {m c} (h : MemoryForm s) : MemoryForm (s.replyEnergyRefused m c) := h.refuseEnergy.reply

theorem replyRefusal {m request reason refuser index} (h : MemoryForm s) :
    MemoryForm (s.replyRefusal m request reason refuser index) :=
  h.recordRefusal.reply

/-! ## Clocks -/

theorem finishWrite {o addr w} (h : MemoryForm s) (hw : WroteForm w) : MemoryForm (s.finishWrite o addr w).1 := by
  cases w with
  | took t => exact hw
  | notOwner t => exact hw
  | rejected t => exact MemoryForm.captureDecerr hw
  | dark => exact h.countDark

theorem putPll {k p} (h : MemoryForm s) : MemoryForm (s.putPll k p) := h.withClocks

theorem stagePll {k c} (h : MemoryForm s) : MemoryForm (s.stagePll k c) :=
  h.put.put.put.put.forEach fun _ _ h3 => h3.put.putFlag

theorem powerPll {k b} (h : MemoryForm s) : MemoryForm (s.powerPll k b) := h.putFlag.putBit

theorem gatePll {k st} (h : MemoryForm s) : MemoryForm (s.gatePll k st) := h.putFlag.putFlag.putFlag.put

theorem acquirePll {k window} (h : MemoryForm s) : MemoryForm (s.acquirePll k window) := h.gatePll.putPll

theorem restartMonitor {k} (h : MemoryForm s) : MemoryForm (s.restartMonitor k) := h.putFlag

theorem stopPll {k} (h : MemoryForm s) : MemoryForm (s.stopPll k) := h.gatePll.powerPll.putPll

theorem setBand {k b v} (h : MemoryForm s) : MemoryForm (s.setBand k b v) := h.put.put

theorem powerUpPll {k} (h : MemoryForm s) : MemoryForm (s.powerUpPll k) :=
  h.powerPll.restartMonitor.putPll.acquirePll.fenceByPll

theorem startPll {k c} (h : MemoryForm s) : MemoryForm (s.startPll k c) :=
  .ite h.put.logEvent.stopPll.putPll.fenceByPll (.ite h.setBand.putPll.stopPll h.setBand.putPll.powerUpPll)

theorem regionPll {k} (h : MemoryForm s) : MemoryForm (s.regionPll k) := by
  unfold State.regionPll
  split
  · exact h.startPll
  · exact .ite h h.powerUpPll

theorem applyPll {k c b v} (h : MemoryForm s) : MemoryForm (s.applyPll k c b v) :=
  (MemoryForm.ite h.put.setBand.fenceByPll.powerPll.putPll.restartMonitor
      h.put.setBand.fenceByPll.powerPll.putPll).acquirePll

theorem tryPll {k c} (h : MemoryForm s) : WroteForm (s.tryPll k c) :=
  .ite h (.ite h.put (.ite h.put.putPll h.applyPll))

theorem writePllCfg {k o v} (h : MemoryForm s) : WroteForm (s.writePllCfg k o v) := by
  unfold State.writePllCfg
  refine .ite h (.ite ?_ h.put.put)
  split
  · exact h.put
  · exact h.put.put.tryPll

theorem startPlls {set} (h : MemoryForm s) : MemoryForm (s.startPlls set) :=
  h.forEach fun _ _ h1 => h1.stagePll.startPll

theorem loadBands {k} (h : MemoryForm s) : MemoryForm (s.loadBands k) := h.forEach fun _ _ h1 => h1.put.put.put

theorem stopAllPlls (h : MemoryForm s) : MemoryForm s.stopAllPlls := h.forEach fun _ _ h1 => .ite h1.gatePll h1

theorem dozePlls (h : MemoryForm s) : MemoryForm s.dozePlls := h.forEach fun _ _ h1 => .ite h1.stopPll.putPll h1

theorem wakePlls (h : MemoryForm s) : MemoryForm s.wakePlls := h.forEach fun _ _ h1 => .ite h1.putPll.powerUpPll h1

theorem tick (h : MemoryForm s) : MemoryForm s.tick := h.put.withClocks

theorem setEpoch {retained snapshot archive} (h : MemoryForm s) :
    MemoryForm (s.setEpoch retained snapshot archive) :=
  h.put.putFlag.putFlag.logEvent

theorem enterDozeTime (h : MemoryForm s) : MemoryForm s.enterDozeTime :=
  (h.putFlag (f := .TMB_STAT_SOURCE) (b := true)).elsewhere

theorem exitDozeTime (h : MemoryForm s) : MemoryForm s.exitDozeTime := h.putFlag.put.put.bump

theorem writeAlarm {a o v} (h : MemoryForm s) : WroteForm (s.writeAlarm a o v) := by
  unfold State.writeAlarm
  extract_lets s1 s2 s3
  have h1 : MemoryForm s1 := .ite h.putFlag h
  have h2 : MemoryForm s2 := h1.put.putFlag
  have h3 : MemoryForm s3 := h2.put
  exact .ite h (.ite (.took h3.elsewhere) h2)

theorem fireAlarm {a} (h : MemoryForm s) : MemoryForm (s.fireAlarm a) :=
  .ite h.putFlag.putFlag h.putFlag.bump.withClocks

/-! ## Attribution -/

theorem captureFault {x a cause write} (h : MemoryForm s) : MemoryForm (s.captureFault x a cause write) :=
  .ite h.put.put.putFlag.put.bump h.put.put.putFlag.put.bump

theorem chargeEntry {e family} (h : MemoryForm s) : MemoryForm (s.chargeEntry e family) := h.put.withDma

theorem refundEntry {e} (h : MemoryForm s) : MemoryForm (s.refundEntry e) := .ite h h.put.withDma

theorem zeroMap {e} (h : MemoryForm s) : MemoryForm (s.zeroMap e) := h.put.put.put.put

theorem freeEntry {e} (h : MemoryForm s) : MemoryForm (s.freeEntry e) := h.refundEntry.put.putFlag.zeroMap

theorem staleKeys {x former} (h : MemoryForm s) : MemoryForm (s.staleKeys x former) :=
  (h.forEach fun _ _ h2 => h2.putFlag).withDma.putFlag

theorem sweep (h : MemoryForm s) : MemoryForm s.sweep := by
  unfold State.sweep
  split
  · exact h
  · exact (h.forEach fun _ _ h2 => h2.freeEntry).bump.withDma.putFlag

theorem writeAttKey {e o v} (h : MemoryForm s) : WroteForm (s.writeAttKey e o v) :=
  .ite h (.ite h (.ite h (.ite h (.ite (.ite h h.chargeEntry.put.zeroMap) h.freeEntry))))

theorem writeAttMap {e o v wide} (h : MemoryForm s) : WroteForm (s.writeAttMap e o v wide) :=
  .ite h (.ite h h.putFlag.putFlag.put.put)

theorem writeQuota {i o v} (h : MemoryForm s) : WroteForm (s.writeQuota i o v) := .ite h (.ite h h.put)

/-! ## The engine -/

theorem putRing {r v} (h : MemoryForm s) : MemoryForm (s.putRing r v) := h.withDma.put

theorem dropStuck {r} (h : MemoryForm s) : MemoryForm (s.dropStuck r) := .ite h.putRing h

theorem settleRing {r} (h : MemoryForm s) : MemoryForm (s.settleRing r) := .ite h.dropStuck.put h.dropStuck

theorem haltRing {r cause cut} (h : MemoryForm s) : MemoryForm (s.haltRing r cause cut) :=
  (MemoryForm.ite (MemoryForm.ite h.put.put h).putRing (.ite h.put.put h)).settleRing

theorem haltGroup {g cause} (h : MemoryForm s) : MemoryForm (s.haltGroup g cause) :=
  h.forEach fun _ _ h1 => h1.haltRing

theorem dropUnissued (h : MemoryForm s) : MemoryForm s.dropUnissued := h.withSpine

theorem stopRings (h : MemoryForm s) : MemoryForm s.stopRings :=
  h.dropUnissued.forEach fun _ _ h1 => h1.putRing.put.put

theorem dropJobs (h : MemoryForm s) : MemoryForm s.dropJobs := h.dropUnissued.forEach fun _ _ h1 => h1.putRing

theorem writeRingTail {r o v} (h : MemoryForm s) : WroteForm (s.writeRingTail r o v) := .ite h (.ite h h.put.wake)

theorem writeRingCtl {r o v} (h : MemoryForm s) : WroteForm (s.writeRingCtl r o v) := by
  unfold State.writeRingCtl
  dsimp only
  split
  · exact h
  · split
    · exact h
    · exact .ite h.put.put.putFlag.put.put.putRing.put.put (.ite h.put.put.putFlag.putRing.put (.ite
        h.put.put.putFlag.putRing.put.put (.ite h.put.put.putFlag.haltRing h.put.put.putFlag)))

theorem writeRingBase {f r o v} (h : MemoryForm s) : WroteForm (s.writeRingBase f r o v) := .ite h (.ite h h.put)

theorem writeDmaTimeout {o v} (h : MemoryForm s) : WroteForm (s.writeDmaTimeout o v) := .ite h (.ite h h.put)

theorem writeGroupCfg {g o v} (h : MemoryForm s) : WroteForm (s.writeGroupCfg g o v) := .ite h (.ite h h.put.put)

theorem setJob {r i j} (h : MemoryForm s) : MemoryForm (s.setJob r i j) := h.putRing

theorem endDescriptor {r i j outcome halts} (h : MemoryForm s) : MemoryForm (s.endDescriptor r i j outcome halts) :=
  .ite h.setJob.put.put.put.put.haltRing h.setJob

theorem startSlot {r} (h : MemoryForm s) : MemoryForm (s.startSlot r) := h.putRing

theorem failCompletion {r j code} (h : MemoryForm s) : MemoryForm (s.failCompletion r j code) :=
  h.put.put.put.put.putRing.haltRing

theorem issueJob {r i} (h : MemoryForm s) : MemoryForm (s.issueJob r i) := by
  unfold State.issueJob
  dsimp only
  split
  · exact .ite h h.startSlot
  · split
    · exact .ite h h.startSlot
    · split
      · exact .ite (MemoryForm.ite h h.startSlot).captureFault.failCompletion (MemoryForm.ite h
          h.startSlot).captureFault.endDescriptor
      · exact (MemoryForm.ite h h.startSlot).setJob.withSpine

theorem startDescriptor {r i j d} (h : MemoryForm s) : MemoryForm (s.startDescriptor r i j d) :=
  .ite h.setJob (.ite h.endDescriptor (.ite h.endDescriptor (.ite h.setJob h.setJob)))

theorem jobResponse {r i j beats} (h : MemoryForm s) : MemoryForm (s.jobResponse r i j beats) := by
  unfold State.jobResponse
  dsimp only
  split
  · exact .ite h.setJob h.endDescriptor
  · split
    · exact h.endDescriptor
    · split
      · exact h.endDescriptor
      · exact h.setJob
  · exact .ite h.endDescriptor h.setJob
  · exact .ite h.endDescriptor h.put.setJob
  · exact .ite h.endDescriptor h.setJob
  · exact .ite h.failCompletion h.setJob
  · exact h

theorem dmaResponse {r slot beats} (h : MemoryForm s) : MemoryForm (s.dmaResponse r slot beats) := by
  unfold State.dmaResponse
  split
  · exact h
  · split
    · exact h
    · exact h.jobResponse

theorem chainNext {r i j} (h : MemoryForm s) : MemoryForm (s.chainNext r i j) := by
  unfold State.chainNext
  split
  · exact .ite h.setJob (.ite h.endDescriptor.setJob (.ite h.setJob h.setJob))
  · exact h.setJob

theorem retireSlot {r j} (h : MemoryForm s) : MemoryForm (s.retireSlot r j) :=
  (MemoryForm.ite h.put.bump.putFlag h.put.bump).putRing.settleRing

theorem portIssue {p} (h : MemoryForm s) : MemoryForm (s.portIssue p) := by
  unfold State.portIssue
  dsimp only
  split
  · exact h
  · split
    · exact h
    · split
      · exact h.withDma
      · exact h.withDma.issueJob

end MemoryForm

end

end Sys2Proof.Machine
end

section
/-! The canonical form of the memories, part 2: the operations of the Slate, the images, the loader, the banks, the
journal and the tests, which write most of the memories. -/

namespace Sys2Proof.Machine
variable {s t : State}

namespace MemoryForm

/-! ## The Slate -/

theorem lockPartition {x} (h : MemoryForm s) : MemoryForm (s.lockPartition x) := by
  unfold State.lockPartition
  split
  · exact h.putBit
  · exact h.putFlag
  · exact h.putBit
  · exact h.putFlag
  · exact h
  · exact h.putFlag

theorem wearCheck {l} (h : MemoryForm s) : MemoryForm (s.wearCheck l) := .ite h.putFlag.logEvent h

theorem noteCorrections {l n} (h : MemoryForm s) : MemoryForm (s.noteCorrections l n) := h.put.wearCheck

theorem notePulses {l n} (h : MemoryForm s) : MemoryForm (s.notePulses l n) := h.put.wearCheck

theorem readPage {l page flips} (h : MemoryForm s) : MemoryForm (s.readPage l page flips).1 := by
  unfold State.readPage
  split
  · exact h
  · split
    · exact h
    · exact h
    · exact h
    · exact h.spend

theorem noteRead {l page r} (h : MemoryForm s) : MemoryForm (s.noteRead l page r) := by
  unfold State.noteRead
  split
  · exact h
  · split
    · exact h
    · exact h
    · exact h.bump.noteCorrections
    · exact h.bump.put.putFlag.stamp.logEvent

theorem showFlash (h : MemoryForm s) : MemoryForm s.showFlash := h.put.put.put

theorem setUnits {us} (h : MemoryForm s) : MemoryForm (s.setUnits us) := h.elsewhere.showFlash

theorem suspendBank {b long} (h : MemoryForm s) : MemoryForm (s.suspendBank b long) := h.setUnits.bump

theorem programPage {l page ws} (h : MemoryForm s) : MemoryForm (s.programPage l page ws) :=
  { h with
    words := SMap.wf_putList _ _ _ h.words
    pages := SMap.wf_put _ (64 * s.physOf l + page) PageKind.programmed h.pages }

theorem setKind {l page k} (h : MemoryForm s) : MemoryForm (s.setKind l page k) :=
  { h with pages := SMap.wf_put _ _ _ h.pages }

theorem beginUnit {u} (h : MemoryForm s) : MemoryForm (s.beginUnit u) :=
  .ite (h.setUnits.forEach fun _ _ h2 => h2.setKind) h.setUnits.setKind

theorem releaseUnits (h : MemoryForm s) : MemoryForm s.releaseUnits := h.foldl fun _ _ h1 => .ite h1.beginUnit h1

theorem endLong {b} (h : MemoryForm s) : MemoryForm (s.endLong b) := h.setUnits.releaseUnits

theorem requestUnit {u} (h : MemoryForm s) : MemoryForm (s.requestUnit u) := h.setUnits.releaseUnits

theorem startProgram {l page ws user held} (h : MemoryForm s) : MemoryForm (s.startProgram l page ws user held) :=
  h.programPage.setKind.requestUnit

theorem startErase {l user cost held} (h : MemoryForm s) : MemoryForm (s.startErase l user cost held) :=
  h.requestUnit

theorem dropWaitingUnits (h : MemoryForm s) : MemoryForm s.dropWaitingUnits := h.setUnits

theorem failPage {l page} (h : MemoryForm s) : MemoryForm (s.failPage l page) :=
  put { h with pages := SMap.wf_put _ _ .undefined h.pages }

theorem erasePhys {p} (h : MemoryForm s) : MemoryForm (s.erasePhys p) :=
  { h with words := SMap.wf_clearRange _ _ _ h.words, pages := SMap.wf_clearRange _ _ _ h.pages }

theorem freshBlock {l} (h : MemoryForm s) : MemoryForm (s.freshBlock l) := h.elsewhere.resetRegs

theorem noSpare {l} (h : MemoryForm s) : MemoryForm (s.noSpare l) := h.put.lockPartition.logEvent

theorem takeSpare {n} (h : MemoryForm s) : MemoryForm (s.takeSpare n) := h.elsewhere.erasePhys.put

theorem programMap {l n} (h : MemoryForm s) : MemoryForm (s.programMap l n) := h.elsewhere

theorem serveFrom {l n} (h : MemoryForm s) : MemoryForm (s.serveFrom l n) :=
  h.programMap.put.putFlag.freshBlock.logEvent

theorem drawFor {l b n} (h : MemoryForm s) : MemoryForm (s.drawFor l b n) := by
  induction n generalizing s with
  | zero =>
    unfold State.drawFor
    split
    · exact h.noSpare
    · exact h.takeSpare.serveFrom
  | succ n ih =>
    unfold State.drawFor
    split
    · exact h.noSpare
    · exact ih h.takeSpare.elsewhere.putFlag.bump

theorem withdrawSpare {p} (h : MemoryForm s) : MemoryForm (s.withdrawSpare p) := by
  unfold State.withdrawSpare
  split
  · exact h.put.putFlag.putFlag
  · exact h

theorem retireTo {l bad} (h : MemoryForm s) : MemoryForm (s.retireTo l bad) :=
  h.elsewhere.bump.withdrawSpare.drawFor

theorem eraseEnds {l pulses badSpares} (h : MemoryForm s) : MemoryForm (s.eraseEnds l pulses badSpares) :=
  .ite h.retireTo (.ite h.erasePhys.retireTo h.erasePhys.freshBlock)

theorem mapWorn {p} (h : MemoryForm s) : MemoryForm (s.mapWorn p) := by
  unfold State.mapWorn
  split
  · exact h.put.lockPartition
  · exact h

theorem mapSpare {n} (h : MemoryForm s) : MemoryForm (s.mapSpare n) := by
  unfold State.mapSpare
  dsimp only
  split
  · exact h.putFlag.put.putFlag
  · exact h.putFlag

theorem loadBlockMap (h : MemoryForm s) : MemoryForm s.loadBlockMap :=
  (((h.elsewhere.forEach fun _ _ h3 => h3.put).forEach fun _ _ h5 => h5.mapWorn).forEach fun _ _ h7 =>
      h7.mapSpare).put.put.putFlag

theorem readTimes {l page a fs} (h : MemoryForm s) : MemoryForm (s.readTimes l page a fs).1 := by
  induction fs generalizing s a with
  | nil => exact h
  | cons f fs ih => exact ih h.readPage.noteRead

theorem stability {l page} (h : MemoryForm s) : MemoryForm (s.stability l page).1 := h.readTimes

/-! ## The image directory -/

theorem countPage {c} (h : MemoryForm s) : MemoryForm (s.countPage c) := h.forEach fun _ _ h1 => h1.countDirect

theorem enginePage {l page errors} (h : MemoryForm s) : MemoryForm (s.enginePage l page errors).1 := by
  unfold State.enginePage
  dsimp only
  split
  · exact h.bump.countPage
  · split <;> exact h.suspendBank.readPage.noteRead.countPage

theorem readPages {l0 p errors n} (h : MemoryForm s) : MemoryForm (s.readPages l0 p errors n).1 := by
  induction n generalizing s p with
  | zero => exact h
  | succ n ih => exact ih h.enginePage

theorem readSpan {l0 off len errors} (h : MemoryForm s) : MemoryForm (s.readSpan l0 off len errors).1 := h.readPages

theorem checkRest {l0 errors agree head} (h : MemoryForm s) : MemoryForm (s.checkRest l0 errors agree head).1 := by
  unfold State.checkRest
  split
  · exact h
  · split
    · exact h
    · exact h.readSpan

theorem checkStored {l0 errors agree} (h : MemoryForm s) : MemoryForm (s.checkStored l0 errors agree).1 :=
  h.readSpan.checkRest

theorem findDirectory (h : MemoryForm s) : MemoryForm s.findDirectory.1 :=
  h.foldlFst fun _ _ h1 => by
    dsimp only
    split
    · exact h1
    · split
      · split <;> exact h1.stability
      · exact h1.stability

/-! ## Loads -/

theorem setLoader {l} (h : MemoryForm s) : MemoryForm (s.setLoader l) := h.withLoader

theorem setRegion {k st} (h : MemoryForm s) : MemoryForm (s.setRegion k st) := h.put

theorem beginStream {j} (h : MemoryForm s) : MemoryForm (s.beginStream j) := h.foldl fun _ _ h1 => h1.suspendBank

theorem endStreams {banks} (h : MemoryForm s) : MemoryForm (s.endStreams banks) := h.foldl fun _ _ h1 => h1.endLong

theorem endJob {i} (h : MemoryForm s) : MemoryForm (s.endJob i) := by
  unfold State.endJob
  split
  · exact h
  · exact h.setLoader.endStreams

theorem setWriter {k w} (h : MemoryForm s) : MemoryForm (s.setWriter k w) := h.setLoader

theorem showLanes (h : MemoryForm s) : MemoryForm s.showLanes := h.put

theorem setLane {k l} (h : MemoryForm s) : MemoryForm (s.setLane k l) := h.setLoader.showLanes

theorem setQueries {l} (h : MemoryForm s) : MemoryForm (s.setQueries l) := h.setLoader

theorem mapQueries {f} (h : MemoryForm s) : MemoryForm (s.mapQueries f) := h.setQueries

theorem settleQueries (h : MemoryForm s) : MemoryForm s.settleQueries := h.setQueries.foldl fun _ _ h2 => h2.reply

theorem cutQueries {k} (h : MemoryForm s) : MemoryForm (s.cutQueries k) := h.mapQueries.settleQueries

theorem startSweep {k} (h : MemoryForm s) : MemoryForm (s.startSweep k) := h.setLane.mapQueries

theorem abandonRepairs {k} (h : MemoryForm s) : MemoryForm (s.abandonRepairs k) :=
  (MemoryForm.ite h.setLane.put h.setLane).releaseUnits

theorem dropInjection {k} (h : MemoryForm s) : MemoryForm (s.dropInjection k) := .ite h.putFlag h

theorem stopLane {k} (h : MemoryForm s) : MemoryForm (s.stopLane k) :=
  .ite h.dropInjection.abandonRepairs.cutQueries.setLane h.dropInjection

theorem dozeLane {k} (h : MemoryForm s) : MemoryForm (s.dozeLane k) := .ite h.abandonRepairs.mapQueries.setLane h

theorem startWipe {k} (h : MemoryForm s) : MemoryForm (s.startWipe k) :=
  h.stopLane.addFence.setRegion.put.setWriter.setLoader

theorem wipeCells {k} (h : MemoryForm s) : MemoryForm (s.wipeCells k) := h.withFabric

theorem noteRegionFail {k status stage chunk record} (h : MemoryForm s) :
    MemoryForm (s.noteRegionFail k status stage chunk record) :=
  h.put.put.put.put.logEvent

theorem abortRegion {k status stage chunk record} (h : MemoryForm s) :
    MemoryForm (s.abortRegion k status stage chunk record) :=
  h.noteRegionFail.bump.addFence.startWipe.setLoader

theorem noteCheckFail {ks status stage} (h : MemoryForm s) : MemoryForm (s.noteCheckFail ks status stage) :=
  h.forEach fun _ _ h1 => h1.put.put.put.put

theorem noteBootFail {j status stage chunk record} (h : MemoryForm s) :
    MemoryForm (s.noteBootFail j status stage chunk record) :=
  .ite h.put.put.put (.ite h.put.put.put.put.put h.put.put.put)

theorem failBoot {j status stage chunk record} (h : MemoryForm s) :
    MemoryForm (s.failBoot j status stage chunk record) := by
  unfold State.failBoot
  extract_lets s1 s2 s3 begun banks l s4 s5 s6 s7
  have h3 : MemoryForm s3 := h.noteBootFail.logEvent.forEach fun _ _ ht => ht.put
  have h6 : MemoryForm s6 := h3.setLoader.endStreams.forEach fun _ _ ht =>
    .ite ht.startWipe (.ite ht.setRegion.setWriter ht)
  clear_value s6
  exact .ite h6.put.putFlag.logEvent.showAllPins
    (.ite h6.put.showAllPins h6.put.putFlag.logEvent.setLoader)

theorem failReload {i j status chunk} (h : MemoryForm s) : MemoryForm (s.failReload i j status chunk) :=
  h.endJob.forEach fun _ _ h2 => h2.noteRegionFail.bump.addFence.startWipe

theorem cutLoads {safe} (h : MemoryForm s) : MemoryForm (s.cutLoads safe) :=
  (MemoryForm.ite h.setLoader.endStreams h.setLoader).forEach fun _ _ h3 => .ite h3.setRegion.setWriter.put.bump
      h3.setRegion.setWriter

theorem takeRecord {j hdr chunk i r} (h : MemoryForm s) : MemoryForm (s.takeRecord j hdr chunk i r) :=
  .ite h (.ite h.abortRegion h.setWriter.setLoader)

theorem writeFrame {k w f} (h : MemoryForm s) : MemoryForm (s.writeFrame k w f) := by
  unfold State.writeFrame
  refine .ite h.setWriter ?_
  split <;> exact h.putCells.setWriter.put

theorem takePeriphery {k} (h : MemoryForm s) : MemoryForm (s.takePeriphery k) := by
  unfold State.takePeriphery
  dsimp only
  split
  · split
    · exact h
    · exact MemoryForm.forEach h.put.putFlag.putFlag fun _ _ ht => ht.putGio
  · refine forEach ?_ fun _ _ ht => ht.putFio
    split
    · exact h
    · exact MemoryForm.forEach h.put.putFlag.putFlag fun _ _ ht => ht.putGio

theorem rearmAll {k} (h : MemoryForm s) : MemoryForm (s.rearmAll k) := by
  unfold State.rearmAll
  extract_lets s1
  have h1 : MemoryForm s1 := by
    dsimp only [s1]
    split
    · exact h
    · exact h.put
  clear_value s1
  split
  · exact h1
  · refine h1.put.putFlag.forEach fun t i ht => ?_
    extract_lets p t1 t2 t3
    have h1 : MemoryForm t1 := ht.putFio
    have h2 : MemoryForm t2 := .ite h1 h1.putBit
    have h3 : MemoryForm t3 := .ite h2 h2.putBit
    exact .ite h3 h3.putBit

theorem swapSignatures {k} (h : MemoryForm s) : MemoryForm (s.swapSignatures k) := h.setLoader

theorem setGlobalLines {hdr} (h : MemoryForm s) : MemoryForm (s.setGlobalLines hdr) := h.withFabric

theorem setPortSides {k} (h : MemoryForm s) : MemoryForm (s.setPortSides k) := h.forEach fun _ _ h1 => h1.putPort

theorem settleJob {i} (h : MemoryForm s) : MemoryForm (s.settleJob i) := by
  unfold State.settleJob
  split
  · exact .ite h ((MemoryForm.ite h.setGlobalLines h).endJob)
  · exact h

theorem completeLoad {k i j hdr} (h : MemoryForm s) : MemoryForm (s.completeLoad k i j hdr) := by
  unfold State.completeLoad
  extract_lets s1
  have h1 : MemoryForm s1 := h.takePeriphery.rearmAll.swapSignatures.initFlops
  exact .ite h1.setRegion.put.put.bump.setLoader.logEvent.setPortSides.clearFence.showPins.startSweep
      h1.setRegion.put.put.bump.setLoader.logEvent.setPortSides.clearFence.showPins

theorem failRepair {k frame cause status} (h : MemoryForm s) : MemoryForm (s.failRepair k frame cause status) :=
  (MemoryForm.ite h.put.put.put h.put.put).logEvent.put.bump.addFence.startWipe

theorem repairRecord {k f hdr errors} (h : MemoryForm s) : MemoryForm (s.repairRecord k f hdr errors).1 := by
  unfold State.repairRecord
  dsimp only
  split
  · exact h.readSpan
  · split
    · exact h.readSpan
    · split
      · exact h.readSpan
      · split <;> exact h.readSpan

theorem repairFrame {k r misses errors} (h : MemoryForm s) : MemoryForm (s.repairFrame k r misses errors) := by
  unfold State.repairFrame
  split
  rename_i s1 got e
  have h1 : MemoryForm s1 := by
    split at e
    · exact ofFst h e
    · exact ofFst h.repairRecord e
  split
  · exact h1.setLane.failRepair
  · exact .ite h1.setLane.failRepair (.ite h1.setLane.putCells.bump.put h1.setLane.putCells.bump)

theorem endSweep {k} (h : MemoryForm s) : MemoryForm (s.endSweep k) :=
  h.bump.put.put.mapQueries.settleQueries.startSweep

theorem laneAfter {k o} (h : MemoryForm s) : MemoryForm (s.laneAfter k o) := .ite h.setLane.endSweep h.setLane

theorem upset {f bits} (h : MemoryForm s) : MemoryForm (s.upset f bits) := h.putCells

/-! ## Banks -/

theorem putRow {n cell r} (h : MemoryForm s) : MemoryForm (s.putRow n cell r) :=
  { h with rows := SMap.wf_put _ _ _ h.rows }

theorem putWord {n cell d} (h : MemoryForm s) : MemoryForm (s.putWord n cell d) := h.putRow

theorem setPoison {n w b} (h : MemoryForm s) : MemoryForm (s.setPoison n w b) :=
  .ite h (.put { h with poison := SMap.wf_put _ _ _ h.poison })

theorem noteErr {n kind cell inj} (h : MemoryForm s) : MemoryForm (s.noteErr n kind cell inj) :=
  .ite h h.put.put.put.putFlag.stamp

theorem bankDiag {diag n inj} (h : MemoryForm s) : MemoryForm (s.bankDiag diag n inj) := h.logDiag

theorem poisonWord {n w scrub inj} (h : MemoryForm s) : MemoryForm (s.poisonWord n w scrub inj) :=
  .ite h.setPoison.bump.logEvent.bankDiag.noteErr h.setPoison.bump.logEvent.bankDiag.noteErr

theorem countSpare {n cell} (h : MemoryForm s) : MemoryForm (s.countSpare n cell) := .ite h.bump h

theorem fixWord {n cell d access} (h : MemoryForm s) : MemoryForm (s.fixWord n cell d access) :=
  (MemoryForm.ite h.bankDiag h).putWord.bump.noteErr.countSpare

theorem owe {n b} (h : MemoryForm s) : MemoryForm (s.owe n b) := h.elsewhere

theorem putParity {n p ps} (h : MemoryForm s) : MemoryForm (s.putParity n p ps) := h.foldl fun _ _ h1 => h1.putWord

theorem reseal {n p cell scrub inj} (h : MemoryForm s) : MemoryForm (s.reseal n p cell scrub inj) :=
  (h.foldl fun _ _ h2 => .ite h2.poisonWord h2).putParity.noteErr.owe

theorem settlePage {n p cell scrub inj x} (h : MemoryForm s) : MemoryForm (s.settlePage n p cell scrub inj x).1 :=
  by
  unfold State.settlePage
  split
  · exact ((MemoryForm.ite h h.bankDiag).foldl fun _ _ h2 => h2.putWord.countSpare).bump.noteErr.owe
  · exact h.reseal

theorem correctPage {n p cell scrub} (h : MemoryForm s) : MemoryForm (s.correctPage n p cell scrub).1 :=
  h.settlePage

theorem readWord {n w} (h : MemoryForm s) : MemoryForm (s.readWord n w).1 := by
  unfold State.readWord
  split
  · exact h
  · split
    · exact h
    · exact h.fixWord
    · split
      · exact (.ofFst h.correctPage ‹_›)
      · exact (.ofFst h.correctPage ‹_›)

theorem mendForWrite {n p ws} (h : MemoryForm s) : MemoryForm (s.mendForWrite n p ws) := by
  unfold State.mendForWrite
  split
  · exact h.correctPage
  · exact h

theorem fixTargets {n ws} (h : MemoryForm s) : MemoryForm (s.fixTargets n ws) :=
  h.foldl fun _ _ h1 => by
    split
    · exact .ite h1 h1.fixWord
    · exact h1

theorem fixParity {n p} (h : MemoryForm s) : MemoryForm (s.fixParity n p) := h.foldl fun _ _ h1 => h1.fixWord

theorem sealWrite {n p ws c} (h : MemoryForm s) : MemoryForm (s.sealWrite n p ws c) :=
  (h.foldl fun _ _ h1 => h1.putWord.setPoison).reseal

theorem deltaWrite {n p ws} (h : MemoryForm s) : MemoryForm (s.deltaWrite n p ws) :=
  (h.fixParity.foldl fun _ _ h2 => h2.putWord).putParity

theorem writeWords {n ws} (h : MemoryForm s) : MemoryForm (s.writeWords n ws) := by
  unfold State.writeWords
  dsimp only
  split
  · exact h
  · split
    · exact (MemoryForm.ite h.mendForWrite.correctPage h.mendForWrite).fixTargets.sealWrite
    · exact (MemoryForm.ite h.mendForWrite.correctPage h.mendForWrite).fixTargets.deltaWrite

theorem setSlice {g t} (h : MemoryForm s) : MemoryForm (s.setSlice g t) := h.elsewhere

theorem routeWrite {n w} (h : MemoryForm s) : MemoryForm (s.routeWrite n w).1 := by
  unfold State.routeWrite
  split
  · split
    · exact h.setSlice
    · exact h
  · exact h

theorem bankRead {n w} (h : MemoryForm s) : MemoryForm (s.bankRead n w).1 := h.readWord

theorem bankWrite {n ws} (h : MemoryForm s) : MemoryForm (s.bankWrite n ws) := by
  have hr := h.foldlFst (p := (s, [])) (l := ws)
    (f := fun a wd => ((a.1.routeWrite n wd.1).1, a.2 ++ [((a.1.routeWrite n wd.1).2, wd.2)]))
    fun _ _ ht => ht.routeWrite
  unfold State.bankWrite
  dsimp only
  split
  · exact hr.writeWords
  · exact hr.writeWords.writeWords

theorem bankReadPart {n w e} (h : MemoryForm s) : MemoryForm (s.bankReadPart n w e).1 := by
  unfold State.bankReadPart
  split
  · exact h
  · split
    · exact h
    · split
      · exact (.ofFst h.bankRead ‹_›)
      · exact (.ofFst h.bankRead ‹_›)

theorem bankReadBeat {n w be} (h : MemoryForm s) : MemoryForm (s.bankReadBeat n w be).1 := by
  unfold State.bankReadBeat
  dsimp only
  exact foldlFst (p := (s, [])) h fun _ _ ht => ht.bankReadPart

theorem bankWriteBeat {n w b} (h : MemoryForm s) : MemoryForm (s.bankWriteBeat n w b).1 := h.bankWrite

theorem setSuspects {n l} (h : MemoryForm s) : MemoryForm (s.setSuspects n l) := h.elsewhere.put

theorem setPass {n p} (h : MemoryForm s) : MemoryForm (s.setPass n p) := h.elsewhere.setSuspects

theorem remapWord {n cell inj} (h : MemoryForm s) : MemoryForm (s.remapWord n cell inj) := by
  unfold State.remapWord
  split
  · exact h.putFlag.logEvent
  · exact h.put.putFlag.putWord.bump.putFlag.elsewhere.noteErr

theorem suspect {n cell inj} (h : MemoryForm s) : MemoryForm (s.suspect n cell inj) :=
  .ite h (.ite h.setSuspects.remapWord (.ite h (.ite h.setSuspects h.bump)))

theorem scrubPage {n p} (h : MemoryForm s) : MemoryForm (s.scrubPage n p) := by
  unfold State.scrubPage
  extract_lets visited injected fixed s1 bad badData r
  have h1 : MemoryForm s1 := by
    clear_value fixed
    exact h.foldl fun _ _ ht => ht.fixWord
  have hr : MemoryForm r.1 := h1.correctPage
  clear_value r badData bad s1 fixed injected
  split
  rename_i s2 more e
  have h2 : MemoryForm s2 := by
    split at e
    · exact ofFst (p := (s1, [])) h1 e
    · exact ofFst (p := (r.1, r.2.getD [])) hr e
  exact h2.foldl fun _ _ ht => ht.suspect

theorem scrubAdvance {n} (h : MemoryForm s) : MemoryForm (s.scrubAdvance n) := .ite h.put.bump.setPass h.put

theorem scrubRestart {n} (h : MemoryForm s) : MemoryForm (s.scrubRestart n) := h.put.putFlag.setPass

theorem setClears {g l} (h : MemoryForm s) : MemoryForm (s.setClears g l) := h.elsewhere.put

theorem requestClear {n} (h : MemoryForm s) : MemoryForm (s.requestClear n) := .ite h h.setClears

theorem zeroBank {n} (h : MemoryForm s) : MemoryForm (s.zeroBank n) :=
  .setSuspects (.put { h with
    rows := SMap.wf_clearRange _ _ _ h.rows, poison := SMap.wf_clearRange _ _ _ h.poison })

theorem startClear {g} (h : MemoryForm s) : MemoryForm (s.startClear g) := by
  unfold State.startClear
  split
  · exact h
  · exact h.zeroBank.putFlag.put

theorem settleHandovers (h : MemoryForm s) : MemoryForm s.settleHandovers :=
  (h.forEach fun _ _ h2 => .ite h2.putFlag.replyWaiting h2).forEach fun _ _ h3 => .ite h3.putFlag.replyWaiting h3

theorem clearOver {n} (h : MemoryForm s) : MemoryForm (s.clearOver n) :=
  have h1 : MemoryForm ((s.putFlag .BNK_OWNER_CLEARING false n).putFlag .BNK_STAT_PU_CLEAR false n) :=
    h.putFlag.putFlag
  h1.elsewhere.replyWaiting.settleHandovers

theorem deferredStep {n} (h : MemoryForm s) : MemoryForm (s.deferredStep n) :=
  .ite h.elsewhere.scrubPage.scrubAdvance h

theorem endClear {g} (h : MemoryForm s) : MemoryForm (s.endClear g) := by
  unfold State.endClear
  split
  · exact h
  · extract_lets _ _ s2 _ s4
    have h2 : MemoryForm s2 := .ite h.setClears.putFlag.bump.scrubRestart h.setClears.putFlag.bump.putFlag
    have h4 : MemoryForm s4 := .ite h2.clearOver.owe h2.clearOver.owe.deferredStep
    exact .ite h4.releaseOp.replyWaiting h4

theorem groupPowerUp {g} (h : MemoryForm s) : MemoryForm (s.groupPowerUp g) :=
  h.putBit.forEach fun _ _ h2 => h2.putFlag.putFlag.requestClear

theorem groupPowerDown {g} (h : MemoryForm s) : MemoryForm (s.groupPowerDown g) :=
  h.putBit.setClears.putFlag.forEach fun _ _ h3 => h3.zeroBank.putFlag.putFlag.clearOver

theorem showSlices (h : MemoryForm s) : MemoryForm s.showSlices :=
  (h.forEach fun _ _ h2 => h2.put).forEach fun _ _ h3 => h3.putFlag.put.putFlag

theorem readSlice {n p ws} (h : MemoryForm s) : MemoryForm (s.readSlice n p ws).1 :=
  h.foldlFst fun _ _ h1 => h1.readWord

theorem countPark {t beats} (h : MemoryForm s) : MemoryForm (s.countPark t beats) := .ite h h.countDirect

theorem saveBeat {g t} (h : MemoryForm s) : MemoryForm (s.saveBeat g t).1 := by
  unfold State.saveBeat
  extract_lets ws copied
  split
  rename_i s1 vals e
  have h1 : MemoryForm s1 := ofFst h.readSlice e
  split
  · exact h1
  · exact h1.writeWords.countPark.setSlice

theorem zeroPage {n p} (h : MemoryForm s) : MemoryForm (s.zeroPage n p) :=
  (h.foldl fun _ _ h2 => h2.putRow).foldl fun _ _ h3 => h3.setPoison

theorem restoreBeat {g t} (h : MemoryForm s) : MemoryForm (s.restoreBeat g t) := by
  unfold State.restoreBeat
  extract_lets ws copied
  split
  rename_i s1 vals e
  have h1 : MemoryForm s1 := ofFst h.countPark.readSlice e
  clear_value copied ws
  extract_lets good s2 found s3 bad
  have h3 : MemoryForm s3 := h1.writeWords.foldl fun _ _ ht => ht.setPoison
  clear_value bad s3
  refine .ite h3.setSlice (setSlice ?_)
  cases bad with
  | nil => exact h3
  | cons i bad => exact h3.reseal

theorem takeBack {t i} (h : MemoryForm s) : MemoryForm (s.takeBack t i) := by
  unfold State.takeBack
  split
  · exact .writeWords (.ofFst h.readWord ‹_›)
  · exact (.ofFst h.readWord ‹_›)

theorem endSave {t} (h : MemoryForm s) : MemoryForm (s.endSave t) := (h.forEach fun _ _ h1 => h1.takeBack).zeroPage

theorem restoreNext {g} (h : MemoryForm s) : MemoryForm (s.restoreNext g) := by
  unfold State.restoreNext
  split
  · exact .ite h.restoreBeat h
  · exact h

theorem finishSlice {g} (h : MemoryForm s) : MemoryForm (s.finishSlice g) := by
  unfold State.finishSlice
  split
  · exact h
  · exact .ite h.endSave.setSlice.showSlices (((MemoryForm.ite h.zeroPage h).setSlice.forEach fun _ _ h3 =>
      h3.restoreNext).zeroPage.setSlice.showSlices)

/-! ## The journal -/

theorem setCopy {c v} (h : MemoryForm s) : MemoryForm (s.setCopy c v) := h.withJournal

theorem showJournal (h : MemoryForm s) : MemoryForm s.showJournal := h.put.put.put.put.put

theorem setStaged {l} (h : MemoryForm s) : MemoryForm (s.setStaged l) := h.withJournal.showJournal

theorem showDegraded (h : MemoryForm s) : MemoryForm s.showDegraded := .ite h h.put.logEvent

theorem programNow {l page bs} (h : MemoryForm s) : MemoryForm (s.programNow l page bs) :=
  h.spend.programPage.notePulses

theorem programLog {c bs} (h : MemoryForm s) : MemoryForm (s.programLog c bs) := h.programNow.setCopy

theorem enterBlock {c seq} (h : MemoryForm s) : MemoryForm (s.enterBlock c seq) :=
  .ite h.setCopy.setCopy.programLog h.setCopy

theorem programRecords {c seq ps} (h : MemoryForm s) : MemoryForm (s.programRecords c seq ps) := by
  induction ps generalizing s with
  | nil => exact h
  | cons p ps ih => exact ih h.enterBlock.programLog

theorem abandonBlock {c seq} (h : MemoryForm s) : MemoryForm (s.abandonBlock c seq) :=
  (MemoryForm.ite h.enterBlock.failPage h.enterBlock).setCopy

theorem writeTxn {c seq owner cs checkpoint n} (h : MemoryForm s) :
    MemoryForm (s.writeTxn c seq owner cs checkpoint n) := by
  induction n generalizing s with
  | zero => exact h.programRecords.setCopy
  | succ n ih => exact ih h.abandonBlock

theorem writeBoth {owner cs checkpoint fails0 fails1} (h : MemoryForm s) :
    MemoryForm (s.writeBoth owner cs checkpoint fails0 fails1) :=
  (MemoryForm.ite (.ite h h.writeTxn) (MemoryForm.ite h h.writeTxn).writeTxn).put.showJournal

theorem commitOwner {owner fails0 fails1} (h : MemoryForm s) : MemoryForm (s.commitOwner owner fails0 fails1) :=
  .ite h h.setStaged.writeBoth

theorem stage {c} (h : MemoryForm s) : MemoryForm (s.stage c).2 := by
  unfold State.stage
  dsimp only
  split
  · exact h
  · split
    · exact h.refuseEnergy
    · exact h.setStaged

theorem journalRecord {id value fails0 fails1} (h : MemoryForm s) :
    MemoryForm (s.journalRecord id value fails0 fails1).2 := by
  unfold State.journalRecord
  dsimp only
  split
  · exact h
  · split
    · exact h
    · split
      · exact h.stage
      · split
        · exact h.stage.setStaged.refuseEnergy
        · exact h.stage.commitOwner

theorem replyJournal {m id value fails0 fails1} (h : MemoryForm s) :
    MemoryForm (s.replyJournal m id value fails0 fails1) :=
  .ite h h.journalRecord.reply

theorem useBank {o addr len} (h : MemoryForm s) : MemoryForm (s.useBank o addr len).1 :=
  .ite h.countDirect (.ite h.countDirect h)

theorem countRuns {addr len} (h : MemoryForm s) : MemoryForm (s.countRuns addr len) :=
  h.foldl fun _ _ h1 => h1.countDirect

theorem readBankWords {n w k} (h : MemoryForm s) : MemoryForm (s.readBankWords n w k).1 := by
  induction k generalizing s w with
  | zero => exact h
  | succ k ih =>
    unfold State.readBankWords
    split
    · exact ofFst h.bankRead ‹_›
    · rename_i s1 d e
      have h1 : MemoryForm s1 := ofFst h.bankRead e
      split
      · exact ofFst (ih h1) ‹_›
      · exact ofFst (ih h1) ‹_›

theorem readBankBytes {addr len} (h : MemoryForm s) : MemoryForm (s.readBankBytes addr len).1 := by
  unfold State.readBankBytes
  split
  · exact .countRuns (.ofFst h.readBankWords ‹_›)
  · exact .countDirect (.ofFst h.readBankWords ‹_›)

theorem writeBankWords {n ws} (h : MemoryForm s) : MemoryForm (s.writeBankWords n ws) := by
  induction ws generalizing s with
  | nil => exact h
  | cons w ws ih => exact ih h.bankWrite

theorem writeBankBytes {addr bs} (h : MemoryForm s) : MemoryForm (s.writeBankBytes addr bs) :=
  h.countRuns.writeBankWords

/-! ## Tests -/

theorem showTests (h : MemoryForm s) : MemoryForm s.showTests := h.putFlag

theorem recordSlice {t outcome cause} (h : MemoryForm s) : MemoryForm (s.recordSlice t outcome cause) :=
  .ite h.put.put.put.put.put.stamp.bump.bump.put.put.putFlag.putFlag h.put.put.put.put.put.stamp.bump

theorem replySlice {m status} (h : MemoryForm s) : MemoryForm (s.replySlice m status) := by
  unfold State.replySlice
  split
  · exact h.releaseOp.replyTo
  · exact h

theorem endSlice {g t outcome cause} (h : MemoryForm s) : MemoryForm (s.endSlice g t outcome cause) := by
  unfold State.endSlice
  dsimp only
  split
  · exact .ite h.setSlice.showSlices.recordSlice.showTests.replySlice (.ite
      h.setSlice.showSlices.recordSlice.showTests.setRunning.replySlice
      h.setSlice.showSlices.recordSlice.showTests.setRunning)
  · exact h.setSlice.showSlices.recordSlice.showTests

theorem abandonSlice {g} (h : MemoryForm s) : MemoryForm (s.abandonSlice g) := by
  unfold State.abandonSlice
  split
  · exact h
  · exact h.zeroPage.endSlice

theorem cutSlice {g cause} (h : MemoryForm s) : MemoryForm (s.cutSlice g cause) := by
  unfold State.cutSlice
  split
  · exact h
  · exact h.finishSlice.endSlice

theorem dropSlices (h : MemoryForm s) : MemoryForm s.dropSlices :=
  h.forEach fun _ _ h1 => by
    split
    · exact h1
    · exact h1.setSlice.recordSlice.showSlices.showTests

theorem unpark {n} (h : MemoryForm s) : MemoryForm (s.unpark n) :=
  (h.forEach fun _ _ h2 => by
    split
    · exact .ite h2.cutSlice h2
    · exact h2).forEach fun _ _ h3 => .ite (MemoryForm.ite h3.putFlag h3).putFlag (.ite h3.putFlag h3)

theorem beginPage {g m} (h : MemoryForm s) : MemoryForm (s.beginPage g m) := by
  unfold State.beginPage
  dsimp only
  split
  · exact h
  · split
    · exact h.replySlice
    · split
      · exact h.replySlice
      · split
        · exact h.replySlice
        · split
          · exact h.replySlice
          · exact h.setSlice.showSlices.showTests

theorem sliceUnit {g found} (h : MemoryForm s) : MemoryForm (s.sliceUnit g found) := by
  unfold State.sliceUnit
  split
  · split
    · exact h
    · exact h.beginPage
  · split
    · exact .ite h.saveBeat h.saveBeat.endSave.endSlice
    · exact h.setSlice
    · exact h.zeroPage.setSlice
    · exact h.restoreBeat
    · exact h.zeroPage.endSlice

theorem showRecord {i r} (h : MemoryForm s) : MemoryForm (s.showRecord i r) :=
  (h.put.put.putFlag.putFlag.putFlag.put.put.put.put.put.put.put.put.foldl fun _ _ h7 => h7.put.put.putFlag).foldl
      fun _ _ h8 => h8.put

theorem logTest {r} (h : MemoryForm s) : MemoryForm (s.logTest r) := h.logEvent.foldl fun _ _ h2 => h2.logEvent

theorem testBlockStep {w} (h : MemoryForm s) : MemoryForm (s.testBlockStep w) :=
  .ite h.erasePhys.setCopy (.ite h.programPage.setCopy h)

theorem testBlockSteps {steps counts} (h : MemoryForm s) : MemoryForm (s.testBlockSteps steps counts) :=
  h.foldl fun _ _ h1 => .ite h1.testBlockStep h1

end MemoryForm

end Sys2Proof.Machine
end

section
/-! The canonical form of the memories, part 3: the operations of handovers, lanes, safety, energy and power, and
the writes of registers. -/

namespace Sys2Proof.Machine
variable {s t : State}

namespace MemoryForm

/-! ## Handovers -/

theorem putHolder {x x2} (h : MemoryForm s) : MemoryForm (s.putHolder x x2) := by
  unfold State.putHolder
  split <;> exact h.put

theorem noteHandover {r old new owner} (h : MemoryForm s) : MemoryForm (s.noteHandover r old new owner) :=
  h.put.put.put.put.stamp.bump.logEvent

theorem clearOnHandover {n} (h : MemoryForm s) : MemoryForm (s.clearOnHandover n) := by
  unfold State.clearOnHandover
  extract_lets _ s2
  have h2 : MemoryForm s2 := by
    dsimp only [s2]
    split
    · exact .ite h.putFlag.abandonSlice h.putFlag
    · exact h.putFlag
  exact .ite h2.clearOver h2.requestClear.putFlag

theorem withRegionWait {x} (h : MemoryForm s) : MemoryForm { s with banks := { s.banks with regionWait := x } } :=
  { h with }

theorem withGroupWait {x} (h : MemoryForm s) : MemoryForm { s with banks := { s.banks with groupWait := x } } :=
  { h with }

theorem handoverFlag {r} (h : MemoryForm s) : MemoryForm (s.handoverFlag r) := by
  cases r with
  | bank n => exact h.clearOnHandover
  | region k => exact h.putFlag.startWipe.putFence.withRegionWait.forEach fun _ _ ht => ht.clearOnHandover
  | group g => exact (h.putFlag.withGroupWait.forEach fun _ _ ht => ht.clearOnHandover).settleHandovers

theorem holderChanged {r old new} (h : MemoryForm s) : MemoryForm (s.holderChanged r old new) := by
  unfold State.holderChanged
  split
  · exact .ite h.unpark h
  · exact h.staleKeys.closeChannels
  · exact h.haltGroup.staleKeys

theorem handedOver {r o hdr new flag} (h : MemoryForm s) : MemoryForm (s.handedOver r o hdr new flag) :=
  .ite (MemoryForm.ite h.putHolder.noteHandover h.putHolder.noteHandover.holderChanged).handoverFlag (.ite
      h.putHolder.noteHandover h.putHolder.noteHandover.holderChanged)

theorem handOver {r o expect new flag} (h : MemoryForm s) (e : s.handOver r o expect new flag = .done t) :
    MemoryForm t := by
  unfold State.handOver at e
  dsimp only at e
  (repeat' split at e) <;> cases e
  all_goals exact h.handedOver

theorem writeHandover {r o v} (h : MemoryForm s) : WroteForm (s.writeHandover r o v) := by
  unfold State.writeHandover
  split
  · exact h.bump
  · exact h.bump
  · exact h.bump
  · exact h.handOver ‹_›

theorem loadOwners (h : MemoryForm s) : MemoryForm s.loadOwners :=
  (((h.forEach fun _ _ h2 => h2.put).forEach fun _ _ h4 => h4.put).forEach fun _ _ h6 => h6.put).put

/-! ## Lanes -/

theorem putLcLock {q p b} (h : MemoryForm s) : MemoryForm (s.putLcLock q p b) := .ite h.putFlag h.putFlag

theorem putSource {refsel khz} (h : MemoryForm s) : MemoryForm (s.putSource refsel khz) := h.withClocks

theorem dropLane {l adapt} (h : MemoryForm s) : MemoryForm (s.dropLane l adapt) :=
  h.putFlag.putFlag.putFlag.putFlag.put.abortScan

theorem stopRclk {l} (h : MemoryForm s) : MemoryForm (s.stopRclk l) :=
  .ite (MemoryForm.ite h.putFlag h).putFlag (.ite h.putFlag h)

theorem dropLanesOf {q p} (h : MemoryForm s) : MemoryForm (s.dropLanesOf q p) :=
  h.forEach fun _ _ h1 => .ite h1.dropLane.stopRclk h1

theorem quadLanesOff {q keep} (h : MemoryForm s) : MemoryForm (s.quadLanesOff q keep) :=
  h.forEach fun _ _ h1 => h1.dropLane.stopRclk.putLane

theorem quadPowerDown {q keep} (h : MemoryForm s) : MemoryForm (s.quadPowerDown q keep) :=
  h.quadLanesOff.putLcLock.putLcLock.putFlag.putBit

theorem quadPowerUp {q} (h : MemoryForm s) : MemoryForm (s.quadPowerUp q) := h.putFlag.putBit

theorem idleAllLanes (h : MemoryForm s) : MemoryForm s.idleAllLanes := h.forEach fun _ _ h1 => h1.idleLanes

theorem writeLcPll {q p o v} (h : MemoryForm s) : WroteForm (s.writeLcPll q p o v) :=
  .ite h (.ite h (.ite h (h.put.put.put.putFlag.putLcLock.dropLanesOf.forEach fun _ _ h4 => h4.put)))

theorem writeLaneCfg {l o v} (h : MemoryForm s) : WroteForm (s.writeLaneCfg l o v) :=
  .ite h (.ite h (.ite h h.putFlag.put.put.put.put.putFlag.putFlag.putFlag.put.put.dropLane.stopRclk.putLane.put))

theorem writeRclk {q o v} (h : MemoryForm s) : WroteForm (s.writeRclk q o v) := by
  unfold State.writeRclk
  split
  · exact h
  · extract_lets _ _ _ _ s3
    have h3 : MemoryForm s3 := .ite h.put.put.putFlag.put.put.putFlag h.put.put.putFlag.put.put.putFlag.putFlag
    exact .took (.ite h3 h3.putFlag)

theorem writeEye {l o v} (h : MemoryForm s) : WroteForm (s.writeEye l o v) :=
  .ite h (.ite h (.took (.ite h.put.put.put.put.putFlag.putFlag.putFlag h.put.put.put)))

theorem laneOffer {l w} (h : MemoryForm s) : MemoryForm (s.laneOffer l w) := by
  unfold State.laneOffer
  split
  · exact h
  · exact .ite h.putLane.putFlag h

theorem laneTake {l ws} (h : MemoryForm s) : MemoryForm (s.laneTake l ws) := .ite h h.putLane

theorem lanePresent {l} (h : MemoryForm s) : MemoryForm (s.lanePresent l) := .ite h h.putLane

theorem laneErrors {e} (h : MemoryForm s) : MemoryForm (s.laneErrors e) := .ite h (.ite h.bump.bump.bump h.bump)

theorem laneEdge {e} (h : MemoryForm s) : MemoryForm (s.laneEdge e) := h.laneErrors.laneTake

theorem laneTick (h : MemoryForm s) : MemoryForm s.laneTick :=
  h.forEach fun _ _ h1 => by
    split
    · exact h1
    · exact .ite h1 h1.putLane

theorem idle (h : MemoryForm s) : MemoryForm s.idle := .ite h h.tick.laneTick

/-! ## Safety -/

theorem takeLogEntry (h : MemoryForm s) : MemoryForm s.takeLogEntry := by
  unfold State.takeLogEntry
  split
  · exact h
  · exact (MemoryForm.ite (MemoryForm.ite h.bump h).bump (.ite h.bump h)).withSafety.put

theorem drainLog (h : MemoryForm s) : MemoryForm s.drainLog := h.forEach fun _ _ h1 => h1.takeLogEntry

theorem contained {diag detail value owner injected} (h : MemoryForm s) :
    MemoryForm (s.contained diag detail value owner injected) :=
  h.logDiag

theorem recordFault {diag detail injected} (h : MemoryForm s) : MemoryForm (s.recordFault diag detail injected) :=
  h.put.putFlag.putFlag.putFlag.putFlag.put.stamp.put

theorem abortDoze {reason} (h : MemoryForm s) : MemoryForm (s.abortDoze reason) :=
  .ite h h.recordRefusal.bump.put.putFlag

theorem stopLanes (h : MemoryForm s) : MemoryForm s.stopLanes := h.forEach fun _ _ h1 => h1.stopLane

theorem leaveRows (h : MemoryForm s) : MemoryForm s.leaveRows :=
  .ite (.spend { h with rows := SMap.wf_nil }) h

theorem cutProgram (h : MemoryForm s) : MemoryForm s.cutProgram := .ite h.withTest.leaveRows.showTests h

theorem safeReplies (h : MemoryForm s) : MemoryForm s.safeReplies :=
  h.forEach fun _ _ h1 => by
    split
    · exact h1
    · split
      · exact h1.replyTo
      · exact h1.replyTo
      · exact h1.replyTo
      · exact h1.replyTo
      · exact h1.replyTo
      · exact h1.replyTo
      · exact h1.replyTo
      · exact h1

theorem enterSafe {diag user injected} (h : MemoryForm s) : MemoryForm (s.enterSafe diag user injected) := by
  unfold State.enterSafe
  extract_lets _ _ _ s3 _ s6 _ s8
  have h3 : MemoryForm s3 := .ite (h.putFlag.putFlag.abortDoze.setMode.forEach fun _ _ h4 => h4.scrubRestart)
      h.putFlag.putFlag.abortDoze.setMode
  have h6 : MemoryForm s6 := .ite h3.fenceAll.stopRings.idleAllLanes h3.fenceAll.stopRings.idleAllLanes.safeReplies
  have h8 : MemoryForm s8 := h6.setQueries.stopLanes.cutLoads.stopAllPlls.forEach fun _ _ h9 => h9.cutSlice
  exact (MemoryForm.ite h8.cutProgram.showAllPins.put h8.cutProgram.showAllPins).logEvent

theorem danger {diag detail value owner injected user} (h : MemoryForm s) :
    MemoryForm (s.danger diag detail value owner injected user) := by
  unfold State.danger
  dsimp only
  split
  · exact h
  · split
    · exact .ite h.bump.logDiag.recordFault h.bump.logDiag
    · exact .ite h.bump.logDiag.recordFault h.bump.logDiag
    · exact (MemoryForm.ite h.bump.logDiag.recordFault h.bump.logDiag).putFlag.cutProgram
    · exact (MemoryForm.ite h.bump.logDiag.recordFault h.bump.logDiag).enterSafe
    · exact (MemoryForm.ite h.bump.logDiag.recordFault h.bump.logDiag).enterSafe
    · exact (MemoryForm.ite h.bump.logDiag.recordFault h.bump.logDiag).enterSafe

/-! ## Energy -/

theorem recompute (h : MemoryForm s) : MemoryForm s.recompute := h.put.putFlag.putFlag

theorem writeArchivePage (h : MemoryForm s) : MemoryForm s.writeArchivePage := by
  unfold State.writeArchivePage
  dsimp only
  split
  · exact h
  · exact .ite h h.programNow.elsewhere

theorem writeArchive {n} (h : MemoryForm s) : MemoryForm (s.writeArchive n) :=
  h.forEach fun _ _ h1 => h1.writeArchivePage

theorem skipOld (h : MemoryForm s) : MemoryForm s.skipOld := by
  unfold State.skipOld
  dsimp only
  split
  · exact h.withSafety
  · exact h

theorem commitTxns {ts fails} (h : MemoryForm s) : MemoryForm (s.commitTxns ts fails) := by
  induction ts generalizing s fails with
  | nil => exact h
  | cons t ts ih =>
    unfold State.commitTxns
    exact ih (.ite h h.setStaged.writeBoth)

theorem commitOnVin {cause fails} (h : MemoryForm s) : MemoryForm (s.commitOnVin cause fails) :=
  h.commitTxns.writeArchive

theorem commitStaged {fails} (h : MemoryForm s) : MemoryForm (s.commitStaged fails) :=
  .ite h ((h.forEach fun _ _ h1 => h1.suspendBank).commitTxns)

theorem setHuCopy {c l} (h : MemoryForm s) : MemoryForm (s.setHuCopy c l) := h.withHoldup

theorem settleTxn {c t} (h : MemoryForm s) : MemoryForm (s.settleTxn c t) := .ite h.setCopy.showJournal h

theorem huPage {c} (h : MemoryForm s) : MemoryForm (s.huPage c) := by
  unfold State.huPage
  dsimp only
  split
  · exact h
  · split
    · exact h.setCopy.enterBlock.bump
    · split
      · exact h.setCopy.setHuCopy
      · exact .ite h.setCopy.programLog.bump.settleTxn.setHuCopy h.setCopy.programLog.bump.setHuCopy

theorem huFail {c} (h : MemoryForm s) : MemoryForm (s.huFail c) := by
  unfold State.huFail
  split
  · exact h
  · exact (MemoryForm.ite h.setCopy.abandonBlock.setHuCopy.put.withHoldup
      h.setCopy.abandonBlock.setHuCopy.put).logEvent

theorem huRound {c fail} (h : MemoryForm s) : MemoryForm (s.huRound c fail) := by
  unfold State.huRound
  split
  · exact h.forEach fun _ _ h1 => h1.huPage
  · exact (h.forEach fun _ _ h2 => h2.huPage).huFail

theorem huStop {outcome} (h : MemoryForm s) : MemoryForm (s.huStop outcome) := h.withHoldup.put

theorem huStall {u} (h : MemoryForm s) : MemoryForm (s.huStall u) := .ite h.huStop h

/-! ## Recovery -/

theorem logBytes {l page} (h : MemoryForm s) : MemoryForm (s.logBytes l page).1 := by
  unfold State.logBytes
  split
  · exact h
  · exact h.readPage.noteRead

theorem logHeaders {c} (h : MemoryForm s) : MemoryForm (s.logHeaders c).1 := h.foldlFst fun _ _ h1 => h1.logBytes

theorem stableLog {l page} (h : MemoryForm s) : MemoryForm (s.stableLog l page).1 := by
  unfold State.stableLog
  dsimp only
  split
  · exact h
  · split
    · exact h.stability
    · exact h.stability.putFlag

theorem blockPages {l newest} (h : MemoryForm s) : MemoryForm (s.blockPages l newest).1 :=
  h.foldlFst fun _ _ h1 => h1.logBytes

theorem erasedAhead {c b n} (h : MemoryForm s) : MemoryForm (s.erasedAhead c b n).1 := by
  induction n generalizing b with
  | zero => exact h
  | succ n ih =>
    unfold State.erasedAhead
    extract_lets l
    clear_value l
    split
    · exact ih
    · split
      rename_i s1 good e
      refine ofFst (foldlFst (p := (s, true)) h fun a p ha => ?_) e
      dsimp only
      split
      · split
        · exact ha.stability
        · exact ha.stability.putFlag
      · exact ha

theorem followLog {c b hs} (h : MemoryForm s) : MemoryForm (s.followLog c b hs).1 := by
  unfold State.followLog
  extract_lets base blocks
  clear_value blocks base
  split
  rename_i s1 pages e1
  have h1 : MemoryForm s1 := by
    refine ofFst (foldlFst (p := (s, [])) h fun a i ha => ?_) e1
    exact ha.blockPages
  extract_lets last
  clear_value last
  split
  rename_i s2 stable e2
  have h2 : MemoryForm s2 := ofFst h1.stableLog e2
  split
  rename_i s3 next e3
  have h3 : MemoryForm s3 := ofFst (.iteFst h2.stableLog h2.stableLog) e3
  extract_lets pages' got
  split
  rename_i s4 ahead e4
  exact ofFst h3.erasedAhead e4

theorem recoverCopy {c} (h : MemoryForm s) : MemoryForm (s.recoverCopy c).1 := by
  unfold State.recoverCopy
  split
  rename_i s1 hs e
  have h1 : MemoryForm s1 := ofFst h.logHeaders e
  split
  · exact h1.followLog
  · exact h1

theorem recoverJournal (h : MemoryForm s) : MemoryForm s.recoverJournal := by
  unfold State.recoverJournal
  split
  rename_i s1 k0 e0
  split
  rename_i s2 k1 e1
  exact (ofFst (ofFst h.recoverCopy e0).recoverCopy e1).setCopy.setCopy

/-! ## Power -/

theorem enterOff (h : MemoryForm s) : MemoryForm s.enterOff :=
  let h' := (h.setMode (m := .off)).drainLog
  { h' with
    regs := SMap.wf_filter _ _ h'.regs, rows := SMap.wf_nil, poison := SMap.wf_nil
    requests := SMap.wf_nil, replies := SMap.wf_nil }

theorem eraseRetained (h : MemoryForm s) : MemoryForm s.eraseRetained :=
  { h with regs := SMap.wf_filter _ _ h.regs }

theorem repairFlags (h : MemoryForm s) : MemoryForm s.repairFlags := h.withFuses

theorem showFuses (h : MemoryForm s) : MemoryForm s.showFuses :=
  (h.put.putFlag.putFlag.putFlag.put.put.put.putFlag.forEach fun _ _ h6 => h6.forEach fun _ _ h7 =>
      h7.put).put.put.put.forEach fun _ _ h10 => h10.put

theorem loadRemap (h : MemoryForm s) : MemoryForm s.loadRemap := by
  unfold State.loadRemap
  split
  · exact h
  · exact .ite h ((h.forEach fun _ _ h2 => h2.put.putFlag).forEach fun _ _ h3 => h3.put.putFlag)

theorem loadAttachment (h : MemoryForm s) : MemoryForm s.loadAttachment :=
  h.foldl fun _ _ h1 => .ite (h1.putFlag.put.put.forEach fun _ _ h4 => h4.putFlag) h1.putFlag.put.put

theorem loadExtents (h : MemoryForm s) : MemoryForm s.loadExtents := h.forEach fun _ _ h1 => .ite h1 h1.withJournal

theorem returnFuses (h : MemoryForm s) : MemoryForm s.returnFuses := h.withFuses

theorem eraseBlocks {ls} (h : MemoryForm s) : MemoryForm (s.eraseBlocks ls) :=
  h.forEach fun _ _ h1 => .ite h1 h1.eraseEnds

theorem eraseReturned (h : MemoryForm s) : MemoryForm s.eraseReturned := h.eraseBlocks.withJournal

theorem completeReturn (h : MemoryForm s) : MemoryForm s.completeReturn :=
  .ite h h.returnFuses.eraseReturned.showFuses

theorem continueLog (h : MemoryForm s) : MemoryForm s.continueLog := .ite h.put h.withSafety.put

theorem readRecord (h : MemoryForm s) : MemoryForm s.readRecord.1 := by
  unfold State.readRecord
  dsimp only
  split
  · exact h
  · split
    · exact (MemoryForm.ite h.showRecord.putFlag h.showRecord).putFlag.withTest.putFlag
    · exact .ite h.showRecord.putFlag h.showRecord

theorem startLoads (h : MemoryForm s) : MemoryForm s.startLoads :=
  (h.forEach fun _ _ h2 => h2.setRegion).setLoader.put

theorem selectImages (h : MemoryForm s) : MemoryForm s.selectImages := by
  have h1 := h.findDirectory
  rw [State.selectImages]
  generalize s.findDirectory = r at h1 ⊢
  obtain ⟨s1, found⟩ := r
  exact (setLoader (s := s1) h1).putFlag.put.putFlag.startPlls

theorem startBoot {skip} (h : MemoryForm s) : MemoryForm (s.startBoot skip) :=
  .ite h.put (.ite h.startLoads h.withTest.put.putFlag.showTests)

theorem bootStart (h : MemoryForm s) : MemoryForm s.bootStart := h.withPower.putFlag.putFlag.continueLog.setMode.put

theorem bootFuses (h : MemoryForm s) : MemoryForm s.bootFuses := h.repairFlags.showFuses.loadBlockMap.completeReturn

theorem loadStores (h : MemoryForm s) : MemoryForm s.loadStores :=
  (h.forEach fun _ _ h2 =>
      h2.groupPowerUp).recoverJournal.loadAttachment.put.put.showJournal.loadOwners.loadRemap.loadExtents

theorem settleEpoch (h : MemoryForm s) : MemoryForm s.settleEpoch := h.setEpoch.withPower

theorem bootRecords (h : MemoryForm s) : MemoryForm s.bootRecords := by
  unfold State.bootRecords
  extract_lets r
  have hr : MemoryForm r.1 := h.loadStores.readRecord
  clear_value r
  exact (hr.settleEpoch.forEach fun _ _ ht => ht.loadBands).selectImages.startBoot

theorem boot (h : MemoryForm s) : MemoryForm s.boot := h.bootStart.bootFuses.bootRecords

theorem beginDoze (h : MemoryForm s) : MemoryForm s.beginDoze :=
  (h.put.withPower.forEach fun _ _ h4 => h4.fenceEffects.dozeLane).dozePlls.enterDozeTime.put.withCalib.bump

theorem completeDoze (h : MemoryForm s) : MemoryForm s.completeDoze :=
  .ite ((h.forEach fun _ _ h2 => h2.quadPowerDown).withPower.forEach fun _ _ h5 =>
      h5.putFlag).setMode.put.bump.bump ((h.forEach fun _ _ h2 => h2.quadPowerDown).withPower.forEach fun _ _ h5 =>
      h5.putFlag).setMode.put.bump

theorem exitDoze (h : MemoryForm s) : MemoryForm s.exitDoze :=
  (((h.exitDozeTime.forEach fun _ _ h3 => h3.quadPowerUp).putFlag.setMode.wakePlls.forEach fun _ _ h6 =>
      (MemoryForm.ite h6.startSweep h6).resyncPorts.resumeLanes).forEach fun _ _ h9 =>
      h9.scrubRestart).withPower.put

theorem acceptOff {o force} (h : MemoryForm s) : MemoryForm (s.acceptOff o force) :=
  (MemoryForm.ite (h.forEach fun _ _ h2 => h2.haltGroup) h).withPower.put

theorem stopFabric (h : MemoryForm s) : MemoryForm s.stopFabric :=
  h.fenceAll.dropJobs.stopLanes.closeChannels.showAllPins

theorem dropWaiting (h : MemoryForm s) : MemoryForm s.dropWaiting := h.setLoader

theorem blowState {n} (h : MemoryForm s) : MemoryForm (s.blowState n) := h.withFuses.showFuses

/-! ## Calibration -/

theorem outOfBounds {loop cause detail injected} (h : MemoryForm s) :
    MemoryForm (s.outOfBounds loop cause detail injected) :=
  (MemoryForm.ite h.putBit.put.put.put.putFlag.putFlag.stamp h.putBit).danger

theorem evaluate {loop found} (h : MemoryForm s) : MemoryForm (s.evaluate loop found) :=
  (MemoryForm.ite h.withCalib.outOfBounds h).foldl fun _ _ h2 => h2.outOfBounds

theorem setSeen {loop b} (h : MemoryForm s) : MemoryForm (s.setSeen loop b) := h.withCalib

theorem moveCorrection {target} (h : MemoryForm s) : MemoryForm (s.moveCorrection target) := h.put.stamp

theorem loseSource (h : MemoryForm s) : MemoryForm s.loseSource := .ite h.put.putFlag.withCalib h

theorem discardWindow (h : MemoryForm s) : MemoryForm s.discardWindow := h.bump.setSeen

theorem discipline {rs} (h : MemoryForm s) : MemoryForm (s.discipline rs) := by
  unfold State.discipline
  split
  · exact h.withCalib.putFlag.put.moveCorrection.put
  · exact .ite h.loseSource.moveCorrection h.loseSource

theorem execReferenceOscillatorWindow_form {complete refs umber} (h : MemoryForm s) :
    OutForm (execReferenceOscillatorWindow complete refs umber s) :=
  .ite h (.ite h.discardWindow h.put.put.put.discipline.setSeen.evaluate)

theorem execCorrectionHoldExpiry_form (h : MemoryForm s) : OutForm (execCorrectionHoldExpiry s) :=
  .ite h.withCalib.putFlag h

theorem execSpineRateMeasure_form {mtps} (h : MemoryForm s) : OutForm (execSpineRateMeasure mtps s) :=
  .ite h ((MemoryForm.ite h.put.put h.put).put.evaluate)

theorem execMarginProbe_form {percent} (h : MemoryForm s) : OutForm (execMarginProbe percent s) :=
  .ite h ((MemoryForm.ite h.withCalib.put.put.stamp.put.put h.withCalib.put.put.stamp).evaluate)

theorem execSlateReadReferenceWindow_form {b image onesAsZero zerosAsOne} (h : MemoryForm s) :
    OutForm (execSlateReadReferenceWindow b image onesAsZero zerosAsOne s) :=
  .ite h (.ite h.evaluate (.ite h.evaluate h.put.bump.stamp.evaluate))

theorem execEnergyMeterWindow_form {complete vin int ext gain} (h : MemoryForm s) :
    OutForm (execEnergyMeterWindow complete vin int ext gain s) :=
  .ite h (.ite h.setSeen h.put.put.put.put.stamp.setSeen.evaluate)

theorem correctZone {z c} (h : MemoryForm s) : MemoryForm (s.correctZone z c) :=
  .ite h.withCalib.withCalib h.withCalib.put

theorem execThermalWindow_form {complete zones} (h : MemoryForm s) : OutForm (execThermalWindow complete zones s) :=
  .ite h ((h.foldl fun _ _ h2 => h2.correctZone).stamp.evaluate)

theorem sampleZone {z main check} (h : MemoryForm s) : MemoryForm (s.sampleZone z main check) := by
  unfold State.sampleZone
  extract_lets hot c s1 temp s2 k s3 warned warn s4
  have h2 : MemoryForm s2 := h.withCalib.put.putFlag.put
  have h3 : MemoryForm s3 := .ite h2.withClocks h2
  have h4 : MemoryForm s4 := .ite h3.withSafety (.ite h3.withSafety.logEvent h3)
  exact .ite h4.danger h4

theorem execThermalSample_form {zones} (h : MemoryForm s) : OutForm (execThermalSample zones s) :=
  .ite h (h.foldl fun _ _ h1 => h1.sampleZone)

theorem writeCalInject {o v} (h : MemoryForm s) : WroteForm (s.writeCalInject o v) :=
  .ite h (.ite h (.took (.ite h.put.withCalib h.put)))

/-! ## Diagnostics -/

theorem classify {marked diag detail value owner injected} (h : MemoryForm s) :
    MemoryForm (s.classify marked diag detail value owner injected) :=
  .ite h.danger h.contained

theorem passOverdue {n injected} (h : MemoryForm s) : MemoryForm (s.passOverdue n injected) := h.danger

theorem pllLoss {k reference injected} (h : MemoryForm s) : MemoryForm (s.pllLoss k reference injected) :=
  .ite h (.ite h (.ite h.bump.stamp.logEvent h.bump.stamp.logEvent.fenceByPll.acquirePll.putPll.classify))

theorem gioShort {n driven pad injected} (h : MemoryForm s) : MemoryForm (s.gioShort n driven pad injected) :=
  h.putBit.bump.put.put.putFlag.putFlag.stamp.classify

theorem noteFio {n kind injected} (h : MemoryForm s) : MemoryForm (s.noteFio n kind injected) :=
  h.put.put.put.putFlag.putFlag.stamp

theorem fioTrip {n mA injected} (h : MemoryForm s) : MemoryForm (s.fioTrip n mA injected) :=
  h.putBit.bump.noteFio.showFio.classify

theorem groupTrip {g mA} (h : MemoryForm s) : MemoryForm (s.groupTrip g mA) :=
  (h.forEach fun _ _ h2 => (MemoryForm.ite h2 h2.putFio).putBit.showFio).putFlag.bump.noteFio.classify

theorem lockstepMismatch {injected} (h : MemoryForm s) : MemoryForm (s.lockstepMismatch injected) :=
  h.withPower.danger

theorem inject {diag index} (h : MemoryForm s) : MemoryForm (s.inject diag index) := by
  unfold State.inject
  split
  · exact h.passOverdue
  · exact h.pllLoss
  · exact .ite h.gioShort h
  · exact .ite h.fioTrip.spend h
  · exact h.lockstepMismatch
  · exact h.withCalib
  · exact h

theorem writeSafInject {o v} (h : MemoryForm s) : WroteForm (s.writeSafInject o v) :=
  .ite h (.ite h (.took (.ite h.put.put.inject h.put.put)))

theorem writeSafReq {o v} (h : MemoryForm s) : WroteForm (s.writeSafReq o v) := .ite h (.took (.ite h.danger h))

theorem writeMarking {value fixed allowed o v} (h : MemoryForm s) :
    WroteForm (s.writeMarking value fixed allowed o v) :=
  .ite h (.ite h (.ite h (.ite h h.put.putFlag)))

theorem writeCfgCrit {o v} (h : MemoryForm s) : WroteForm (s.writeCfgCrit o v) := h.writeMarking

theorem writePllCrit {o v} (h : MemoryForm s) : WroteForm (s.writePllCrit o v) := h.writeMarking

theorem writeIoCrit {o v} (h : MemoryForm s) : WroteForm (s.writeIoCrit o v) := h.writeMarking

/-! ## Writes of registers -/

theorem clearMail {m} (h : MemoryForm s) : MemoryForm (s.clearMail m) := by
  have h' : MemoryForm { s with mail := { s.mail with
      request := s.mail.request.clearRange (4096 * m) 4096
      reply := s.mail.reply.clearRange (4096 * m) 4096
      clearing := SMap.put false s.mail.clearing m true } } :=
    { h with requests := SMap.wf_clearRange _ _ _ h.requests, replies := SMap.wf_clearRange _ _ _ h.replies }
  unfold State.clearMail
  dsimp only
  split
  · exact h'.put.put.put.put.setRunning
  · exact h'.put.put.put.put

theorem writeReqTail {m o v} (h : MemoryForm s) : WroteForm (s.writeReqTail m o v) :=
  .ite h (.ite trivial (.ite h h.put.wake))

theorem writeRspHead {m o v} (h : MemoryForm s) : WroteForm (s.writeRspHead m o v) :=
  .ite h (.ite trivial (.ite h h.put))

theorem writeMailCtl {m o v} (h : MemoryForm s) : WroteForm (s.writeMailCtl m o v) :=
  .ite h (.ite trivial (.took (.ite (MemoryForm.ite h.putFlag h).clearMail (.ite h.putFlag h))))

theorem writeMailRo {m o} (h : MemoryForm s) : WroteForm (s.writeMailRo m o) := .ite h (.ite trivial h)

theorem writeRequest {m w o v} (h : MemoryForm s) : WroteForm (s.writeRequest m w o v) :=
  .ite h (.ite trivial (.ite h (.took { h with requests := SMap.wf_put _ _ _ h.requests })))

theorem writeReplyRing {m o} (h : MemoryForm s) : WroteForm (s.writeReplyRing m o) := .ite h (.ite trivial h)

theorem writeDecerrCount {o v} (h : MemoryForm s) : WroteForm (s.writeDecerrCount o v) := .ite h h.put

theorem writeEpErrCount {k o v} (h : MemoryForm s) : WroteForm (s.writeEpErrCount k o v) := .ite h h.put

theorem writeScrubInject {o v} (h : MemoryForm s) : WroteForm (s.writeScrubInject o v) :=
  .ite h (.ite h h.put.putFlag)

theorem writeFair {o v} (h : MemoryForm s) : WroteForm (s.writeFair o v) := .ite h (.ite h h.put.put)

theorem writeStallInject {o v} (h : MemoryForm s) : WroteForm (s.writeStallInject o v) :=
  .ite h (.ite h h.put.put.putFlag.putFlag)

theorem writePortTimer {p o v} (h : MemoryForm s) : WroteForm (s.writePortTimer p o v) := .ite h (.ite h h.put)

theorem flipRow {n w mask} (h : MemoryForm s) : MemoryForm (s.flipRow n w mask) := h.putRow.elsewhere

theorem writeBankInject {n o v} (h : MemoryForm s) : WroteForm (s.writeBankInject n o v) :=
  .ite h (.ite h (.took (.ite h.put.put.put.putFlag.flipRow h.put.put.put.putFlag)))

theorem writePark {q o v} (h : MemoryForm s) : WroteForm (s.writePark q o v) :=
  .ite h (.ite h h.put.putFlag.put.putFlag)

theorem writeRingPlain {f r o v} (h : MemoryForm s) : WroteForm (s.writeRingPlain f r o v) := .ite h h.put

theorem writeRingRo {r o} (h : MemoryForm s) : WroteForm (s.writeRingRo r o) := .ite h h

theorem writeVeto {i o v} (h : MemoryForm s) : WroteForm (s.writeVeto i o v) := .ite h h.putFlag.putFlag

theorem writeWakeEn {o v} (h : MemoryForm s) : WroteForm (s.writeWakeEn o v) := .ite h h.put.put.putFlag

theorem writePllRef {k o v} (h : MemoryForm s) : WroteForm (s.writePllRef k o v) := .ite h h.put.put

theorem writePllOut {i o v} (h : MemoryForm s) : WroteForm (s.writePllOut i o v) := .ite h h.put.putFlag

theorem writePllBand {i o v} (h : MemoryForm s) : WroteForm (s.writePllBand i o v) := .ite h h.put.put.put

theorem writeTmbCtl {o v} (h : MemoryForm s) : WroteForm (s.writeTmbCtl o v) := .ite h (.ite h h.put)

theorem writeAlarmStage {f a o v} (h : MemoryForm s) : WroteForm (s.writeAlarmStage f a o v) := .ite h h.put

theorem writeTestStat {o v} (h : MemoryForm s) : WroteForm (s.writeTestStat o v) :=
  .ite h (.took (.ite h.putFlag h))

theorem writeGioRearm {b o v} (h : MemoryForm s) : WroteForm (s.writeGioRearm b o v) := .ite h h.put.showPins

theorem rearmField {g mask} (h : MemoryForm s) : MemoryForm (s.rearmField g mask) :=
  (MemoryForm.ite (h.forEach fun _ _ h2 => h2.putBit.putFio) (h.forEach fun _ _ h2 =>
      h2.putBit.putFio).putFlag).showPins

theorem writeFioRearm {g o v} (h : MemoryForm s) : WroteForm (s.writeFioRearm g o v) := .ite h h.rearmField

theorem writeFioWake {g o v} (h : MemoryForm s) : WroteForm (s.writeFioWake g o v) := .ite h h.put.put

theorem writeLaneRo {l o} (h : MemoryForm s) : WroteForm (s.writeLaneRo l o) := .ite h h

theorem writeQuadRo {q o} (h : MemoryForm s) : WroteForm (s.writeQuadRo q o) := .ite h h

theorem writeReg {r i high wide o v} (h : MemoryForm s) : WroteForm (s.writeReg r i high wide o v) := by
  unfold State.writeReg
  split
  · exact h.writeDecerrCount
  · exact h.writeReqTail
  · exact h.writeRspHead
  · exact h.writeMailCtl
  · exact h.writeMailRo
  · exact h.writeMailRo
  · exact h.writeMailRo
  · exact h.writeEpErrCount
  · exact h.writeScrubInject
  · exact h.writeFair
  · exact h.writeStallInject
  · exact h.writePortTimer
  · exact h.writeHandover
  · exact h.writeHandover
  · exact h.writeHandover
  · exact h.writeBankInject
  · exact h.writePark
  · exact h.writeDmaTimeout
  · exact h.writeGroupCfg
  · exact h.writeRingTail
  · exact h.writeRingCtl
  · exact h.writeRingBase
  · exact h.writeRingBase
  · exact h.writeRingPlain
  · exact h.writeRingPlain
  · exact h.writeRingRo
  · exact h.writeRingRo
  · exact h.writeRingRo
  · exact h.writeRingRo
  · exact h.writeRingRo
  · exact h.writeAttMap
  · exact h.writeAttKey
  · exact h.writeQuota
  · exact h.writeVeto
  · exact h.writeWakeEn
  · exact h.writePllRef
  · exact h.writePllCfg
  · exact h.writePllOut
  · exact h.writePllBand
  · exact h.writeTmbCtl
  · exact h.writeAlarmStage
  · exact h.writeAlarmStage
  · exact h.writeAlarm
  · exact h.writeLcPll
  · exact h.writeRclk
  · exact h.writeQuadRo
  · exact h.writeLaneCfg
  · exact h.writeEye
  · exact h.writeLaneRo
  · exact h.writeLaneRo
  · exact h.writeLaneRo
  · exact h.writeLaneRo
  · exact h.writeCalInject
  · exact h.writeCfgCrit
  · exact h.writePllCrit
  · exact h.writeIoCrit
  · exact h.writeSafReq
  · exact h.writeSafInject
  · exact h.writeTestStat
  · exact h.writeGioRearm
  · exact h.writeFioRearm
  · exact h.writeFioWake
  · exact h

/-! ## Accesses of registers -/

theorem setLatch {port off v} (h : MemoryForm s) : MemoryForm (s.setLatch port off v) := h.withLatch

theorem latchDetails {port r i v} (h : MemoryForm s) : MemoryForm (s.latchDetails port r i v) := by
  unfold State.latchDetails
  split
  · exact h
  · exact h.setLatch.setLatch

theorem readReg {port o r i high wide} (h : MemoryForm s) : MemoryForm (s.readReg port o r i high wide).1 := by
  unfold State.readReg
  dsimp only
  split
  · exact h.latchDetails
  · split
    · split
      · exact h.setLatch
      · exact h
    · split
      · exact h.setLatch.latchDetails
      · split
        · exact h.setLatch.setLatch
        · exact h

theorem readLog {port slot w wide} (h : MemoryForm s) : MemoryForm (s.readLog port slot w wide).1 := by
  unfold State.readLog
  dsimp only
  split
  · exact .ite h.withSafety h
  · split
    · exact .ite h.withSafety h
    · split
      · exact (MemoryForm.ite h.withSafety h).setLatch
      · split
        · exact (MemoryForm.ite h.withSafety h).setLatch
        · exact .ite h.withSafety h

theorem readAt {port o wide x} (h : MemoryForm s) : MemoryForm (s.readAt port o wide x).1 := by
  unfold State.readAt
  split
  · exact h.readReg
  · exact h.readLog
  · exact h
  · exact h

theorem writeAt {o wide v x} (h : MemoryForm s) : WroteForm (s.writeAt o wide v x) := by
  unfold State.writeAt
  split
  · exact h.writeReg
  · exact h
  · exact h.writeRequest
  · exact h.writeReplyRing

theorem writeChecked {o off w v p} (h : MemoryForm s) : MemoryForm (s.writeChecked o off w v p).1 := by
  have hw : WroteForm (s.writeAt o (w == .w64) v p) := h.writeAt
  unfold State.writeChecked
  dsimp only
  split
  · rename_i u e
    rw [e] at hw
    exact .ite h hw
  · exact h.countDark
  · exact .iteFst h (.iteFst h.captureDecerr (h.finishWrite hw))

theorem controlAt {port o off p w ask} (h : MemoryForm s) : MemoryForm (s.controlAt port o off p w ask).1 := by
  unfold State.controlAt
  split
  · exact h.captureDecerr
  · split
    · exact h.writeChecked
    · split
      · exact h
      · split
        · exact h.countDark
        · split
          · exact h
          · split
            · exact h
            · exact h.readAt

theorem control {port o off w ask} (h : MemoryForm s) : MemoryForm (s.control port o off w ask).1 := h.controlAt

theorem controlTxn {t} (h : MemoryForm s) : MemoryForm (s.controlTxn t).1 := h.control

theorem controlBy {who off p w ask} (h : MemoryForm s) : MemoryForm (s.controlBy who off p w ask).1 := by
  unfold State.controlBy
  split
  · split
    · exact h.captureDecerr
    · exact h.controlAt
  · exact h.controlAt

theorem accessAt {who off p w ask} (h : MemoryForm s) : MemoryForm (s.accessAt who off p w ask) := by
  unfold State.accessAt
  dsimp only
  split
  · exact h
  · split
    · exact h.controlBy.elsewhere
    · exact h.controlBy.withAnswer

theorem access {who off w ask} (h : MemoryForm s) : MemoryForm (s.access who off w ask) := h.accessAt

theorem writeAs {who r i v} (h : MemoryForm s) : MemoryForm (s.writeAs who r i v) := h.accessAt

end MemoryForm

end Sys2Proof.Machine
end

section
/-! The canonical form of the memories, part 4: hosts and targets, the meaning of every command, the step. -/

namespace Sys2Proof.Machine
variable {s t : State}

namespace MemoryForm

/-! ## Commands: ownership -/

theorem execBnkOwnerHandover_form {who n expect new clr} (h : MemoryForm s) :
    OutForm (execBnkOwnerHandover who n expect new clr s) :=
  h.writeAs

theorem execAttRegionParentHandover_form {who k expect new wipe} (h : MemoryForm s) :
    OutForm (execAttRegionParentHandover who k expect new wipe s) :=
  h.writeAs

theorem execAttGroupParentHandover_form {who g expect new clr} (h : MemoryForm s) :
    OutForm (execAttGroupParentHandover who g expect new clr s) :=
  h.writeAs

theorem execClearOnHandover_form {n} (h : MemoryForm s) : OutForm (execClearOnHandover n s) :=
  .ite h.startClear.endClear h

theorem execOwnRead_form {m} (h : MemoryForm s) : OutForm (execOwnRead m s) := h.command fun _ => h.reply

theorem execOwnHandover_form {m} (h : MemoryForm s) : OutForm (execOwnHandover m s) :=
  h.command fun p => by
    extract_lets p0 p1
    split
    · exact h.reply
    · refine .ite h.reply ?_
      split
      · exact h.bump.reply
      · exact h.bump.reply
      · exact h.bump.reply
      · have ht : MemoryForm _ := h.handOver ‹_›
        exact .ite ht.await ht.reply

theorem execOwnRecordGet_form {m} (h : MemoryForm s) : OutForm (execOwnRecordGet m s) := h.command fun _ => h.reply

theorem execOwnRecordSet_form {m fails0 fails1} (h : MemoryForm s) : OutForm (execOwnRecordSet m fails0 fails1 s) :=
  h.command fun _ => .ite h.reply h.replyJournal

/-! ## Hosts -/

theorem putEndpoint {k e} (h : MemoryForm s) : MemoryForm (s.putEndpoint k e) := h.withHosts

theorem linkActivity {k} (h : MemoryForm s) : MemoryForm (s.linkActivity k) := .ite h.wake h

theorem putConfig {k w v} (h : MemoryForm s) : MemoryForm (s.putConfig k w v) := h.putEndpoint

theorem dropLink {k} (h : MemoryForm s) : MemoryForm (s.dropLink k) := .ite h.putFlag.put.put.putEndpoint h

theorem darkHost {k} (h : MemoryForm s) : MemoryForm (s.darkHost k) := h.foldl fun _ _ h1 => h1.answerDark

theorem discardBar {k} (h : MemoryForm s) : MemoryForm (s.discardBar k) := h.elsewhere

theorem hostReset {k cause} (h : MemoryForm s) : MemoryForm (s.hostReset k cause) :=
  (h.bump.put.clearMail.withHosts.putFlag.putFlag.putEndpoint.putFlag.putFlag.forEach fun _ _ h7 =>
      h7.haltGroup).discardBar.darkHost

theorem captureEndpoint {k addr c write} (h : MemoryForm s) : MemoryForm (s.captureEndpoint k addr c write) :=
  .ite h h.put.put.putFlag.bump

theorem reportAer {k} (h : MemoryForm s) : MemoryForm (s.reportAer k) := h.putConfig.withHosts

theorem completeTo {k a} (h : MemoryForm s) : MemoryForm (s.completeTo k a) := h.withHosts

theorem finishTlp {t} (h : MemoryForm s) : MemoryForm (s.finishTlp t) :=
  .ite (.ite h.withHosts.reportAer h.withHosts) (.ite h.withHosts.completeTo h.withHosts.completeTo)

theorem barResponse {id part x bs} (h : MemoryForm s) : MemoryForm (s.barResponse id part x bs) := by
  unfold State.barResponse
  split
  · exact h
  · exact .ite h.captureEndpoint.finishTlp h.captureEndpoint.withHosts

theorem startTlp {k write base ds} (h : MemoryForm s) : MemoryForm (s.startTlp k write base ds) :=
  .ite h.withHosts.finishTlp (h.withHosts.foldl fun _ _ h2 => h2.enqueue)

theorem writeMsix {k w v} (h : MemoryForm s) : MemoryForm (s.writeMsix k w v) :=
  .ite h.putMsixWord.withHosts.sendMsix h.putMsixWord

theorem writeConfig {k w d} (h : MemoryForm s) : MemoryForm (s.writeConfig k w d) :=
  .ite (.ite h.putEndpoint h) (.ite h.putConfig (.ite h.putConfig.hostReset h.putConfig))

theorem configRequest {k w write d} (h : MemoryForm s) : MemoryForm (s.configRequest k w write d) :=
  .ite h.writeConfig.completeTo h.completeTo

theorem barTlp {k b off write ds} (h : MemoryForm s) : MemoryForm (s.barTlp k b off write ds) := by
  unfold State.barTlp
  split
  · exact h.startTlp
  · exact .ite (h.foldl fun _ _ h1 => .ite h1.writeMsix h1) h.completeTo
  · exact .ite h h.completeTo
  · exact h.configRequest
  · exact .ite h.reportAer h.completeTo

theorem putSpi {p} (h : MemoryForm s) : MemoryForm (s.putSpi p) := h.withHosts

theorem spiReadWord {off} (h : MemoryForm s) : MemoryForm (s.spiReadWord off).1 := by
  unfold State.spiReadWord
  split
  exact ofFst h.control ‹_›

theorem spiReadWords {off n} (h : MemoryForm s) : MemoryForm (s.spiReadWords off n).1 := by
  induction n generalizing s off with
  | zero => exact h
  | succ n ih => exact ih h.spiReadWord

theorem noteSpi {c} (h : MemoryForm s) : MemoryForm (s.noteSpi c) := h.putSpi

theorem spiWriteWord {off v} (h : MemoryForm s) : MemoryForm (s.spiWriteWord off v) := by
  unfold State.spiWriteWord
  dsimp only
  split
  · exact h.control.elsewhere
  · exact h.control.noteSpi

/-! ## Targets -/

theorem answerDecerr {t cause} (h : MemoryForm s) : MemoryForm (s.answerDecerr t cause) := h.captureDecerr.answerTxn

theorem answerCode {t c} (h : MemoryForm s) : MemoryForm (s.answerCode t c) := by
  unfold State.answerCode
  split
  · exact h.answerDark
  · exact h.answerDecerr
  · exact h.answerTxn

theorem bankReadBeats {n w bs} (h : MemoryForm s) : MemoryForm (s.bankReadBeats n w bs).1 := by
  induction bs generalizing s w with
  | nil => exact h
  | cons b bs ih => exact ih h.bankReadBeat

theorem bankWriteBeats {n w bs} (h : MemoryForm s) : MemoryForm (s.bankWriteBeats n w bs).1 := by
  induction bs generalizing s w with
  | nil => exact h
  | cons b bs ih => exact ih h.bankWriteBeat

theorem bankTxn {t n off} (h : MemoryForm s) : MemoryForm (s.bankTxn t n off) :=
  .ite h.bankWriteBeats.answerTxn h.bankReadBeats.answerTxn

theorem controlRequest {t} (h : MemoryForm s) : MemoryForm (s.controlRequest t) := by
  unfold State.controlRequest
  dsimp only
  split
  · exact h.controlTxn.elsewhere.takeTxn
  · exact .ite h.controlTxn.takeTxn h.controlTxn.answerTxn

theorem hostRequest {t k a} (h : MemoryForm s) : MemoryForm (s.hostRequest t k a) :=
  .ite h.withHosts.answerTxn h.takeTxn

theorem regionRequest {t p} (h : MemoryForm s) : MemoryForm (s.regionRequest t p) :=
  .ite h.takeTxn h.takeTxn.putPort

theorem admitTxn {t} (h : MemoryForm s) : MemoryForm (s.admitTxn t) := by
  unfold State.admitTxn
  dsimp only
  split
  · exact h.put.answerDecerr
  · exact .ite h.put.answerTxn h.put.controlRequest
  · split
    · exact .ite h.put.takeTxn h.put.owe.bankTxn
    · exact h.put.answerCode
  · split
    · exact .ite h h.put.takeTxn
    · exact h.put.answerCode
  · split
    · exact .ite h h.put.regionRequest
    · exact h.put.answerCode
  · split
    · exact .ite h h.put.hostRequest
    · exact h.put.answerCode

theorem notePassed {t others} (h : MemoryForm s) : MemoryForm (s.notePassed t others) := h.withSpine.put

theorem issueTxn {t x} (h : MemoryForm s) : MemoryForm (s.issueTxn t x) := h.withSpine

theorem grantCredit {t} (h : MemoryForm s) : MemoryForm (s.grantCredit t) := by
  unfold State.grantCredit
  dsimp only
  split
  · exact h
  · split
    · exact h
    · exact h.notePassed.withSpine.issueTxn

theorem deliver {t bs} (h : MemoryForm s) : MemoryForm (s.deliver t bs) := by
  unfold State.deliver
  dsimp only
  split
  · exact h.bump.withSpine.barResponse
  · exact h.bump.withSpine.putPort
  · exact h.bump.withSpine.dmaResponse
  · exact h.bump.withSpine

theorem forget {id} (h : MemoryForm s) : MemoryForm (s.forget id) := h.withSpine

theorem mapTxn {id f} (h : MemoryForm s) : MemoryForm (s.mapTxn id f) := h.withSpine

theorem noteDiscard {p} (h : MemoryForm s) : MemoryForm (s.noteDiscard p) := .ite h.bump h

theorem arrive {a} (h : MemoryForm s) : MemoryForm (s.arrive a) :=
  .ite h.forget.bump.noteDiscard (.ite h.forget.noteDiscard h.forget.deliver)

theorem expire {t} (h : MemoryForm s) : MemoryForm (s.expire t) := by
  unfold State.expire
  dsimp only
  split
  · exact .ite (MemoryForm.ite h.bump.bump h.bump).forget (MemoryForm.ite h.bump.bump h.bump).mapTxn
  · split
    · exact (MemoryForm.ite (MemoryForm.ite h.bump.bump h.bump).forget (MemoryForm.ite h.bump.bump
        h.bump).mapTxn).deliver.putPort
    · exact (MemoryForm.ite (MemoryForm.ite h.bump.bump h.bump).forget (MemoryForm.ite h.bump.bump
        h.bump).mapTxn).deliver

theorem refuseTxn {t} (h : MemoryForm s) : MemoryForm (s.refuseTxn t) := h.deliver

theorem submit {src owner kind addr beats user} (h : MemoryForm s) :
    MemoryForm (s.submit src owner kind addr beats user) :=
  .ite h.enqueue h.captureDecerr.refuseTxn

theorem iniRequest {p d write a beats} (h : MemoryForm s) : MemoryForm (s.iniRequest p d write a beats) := by
  refine .ite h.submit ?_
  split
  · exact (h.captureFault (write := write)).refuseTxn
  · exact h.submit

theorem transferIni {p o bs} (h : MemoryForm s) : MemoryForm (s.transferIni p o bs) :=
  .ite h.putPort h.putPort.iniRequest

theorem designAnswer {p t beats} (h : MemoryForm s) : MemoryForm (s.designAnswer p t beats) :=
  (MemoryForm.ite h.bump.captureDecerr h.bump).answerTxn

theorem recordStall {u injected} (h : MemoryForm s) : MemoryForm (s.recordStall u injected) :=
  h.put.put.putFlag.put.putFlag.putFlag.putFlag.stamp

theorem cutIngress {p} (h : MemoryForm s) : MemoryForm (s.cutIngress p) := h.withSpine

theorem stall {u} (h : MemoryForm s) : MemoryForm (s.stall u) := by
  unfold State.stall
  extract_lets injected replaces s1 s2 spine s3 s4 s5 s6
  have h1 : MemoryForm s1 := (MemoryForm.ite h.putFlag h).bump
  have h2 : MemoryForm s2 := .ite h1 h1.recordStall
  have h3 : MemoryForm s3 := h2.withSpine
  have h4 : MemoryForm s4 := by
    dsimp only [s4]
    split
    · exact h3.cutIngress
    · exact h3
  have h6 : MemoryForm s6 := h4.logEvent.danger
  exact .ite h6.put h6

/-! ## Commands: banks -/

theorem answerWord {c words} (h : MemoryForm s) : MemoryForm (s.answerWord c words) := h.withAnswer

theorem execBankRead_form {who n w} (h : MemoryForm s) : OutForm (execBankRead who n w s) := by
  unfold execBankRead
  dsimp only
  split
  · split
    · exact .next (.answerWord (.ofFst h.bankRead ‹_›))
    · exact .next (.answerWord (.ofFst h.bankRead ‹_›))
  · exact .ite h.countDark.answerWord h
  · exact h.answerWord

theorem execBankWrite_form {who n w data whole} (h : MemoryForm s) : OutForm (execBankWrite who n w data whole s) :=
  by
  unfold execBankWrite
  split
  · exact .ite h.bankWrite.answerWord h.answerWord
  · exact .ite h.countDark.answerWord h
  · exact h.answerWord

theorem execScrubStep_form {n} (h : MemoryForm s) : OutForm (execScrubStep n s) :=
  .ite h.elsewhere (.ite h (.ite h (.ite h.scrubAdvance h.scrubPage.scrubAdvance)))

theorem execScrubPassOverdue_form {n} (h : MemoryForm s) : OutForm (execScrubPassOverdue n s) :=
  .ite h.passOverdue h

theorem execBankClear_form {g} (h : MemoryForm s) : OutForm (execBankClear g s) := by
  unfold execBankClear
  split
  · split
    · exact h
    · exact h.deferredStep.startClear
  · exact h

theorem execBankClearDone_form {g} (h : MemoryForm s) : OutForm (execBankClearDone g s) := .ite h.endClear h

theorem execBnkInject_form {who n word bitA bitB double} (h : MemoryForm s) :
    OutForm (execBnkInject who n word bitA bitB double s) :=
  h.writeAs

theorem execBnkParkWrite_form {who q bankA validA bankB validB} (h : MemoryForm s) :
    OutForm (execBnkParkWrite who q bankA validA bankB validB s) :=
  h.writeAs

/-! ## Commands: clocks -/

theorem execPllApply_form {who k m n} (h : MemoryForm s) : OutForm (execPllApply who k m n s) := h.writeAs

theorem execReferenceWindow_form {k khz} (h : MemoryForm s) : OutForm (execReferenceWindow k khz s) :=
  .next (.ite h (.ite (MemoryForm.ite h h.putSource).put.putFlag.acquirePll (MemoryForm.ite h
      h.putSource).put.putFlag))

theorem execPllLock_form {k} (h : MemoryForm s) : OutForm (execPllLock k s) := .next (.ite h.putFlag.put h)

theorem execPllQualified_form {k} (h : MemoryForm s) : OutForm (execPllQualified k s) :=
  .next (.ite h h.putFlag.putFlag.put.putPll.unfenceByPll.replyWaiting)

theorem execPllLoss_form {k reference} (h : MemoryForm s) : OutForm (execPllLoss k reference s) := h.pllLoss

theorem ofWrote {w : Wrote} (h : WroteForm w) (e : w = .took t ∨ w = .rejected t) : MemoryForm t := by
  obtain rfl | rfl := e <;> exact h

theorem execPllSet_form {m} (h : MemoryForm s) : OutForm (execPllSet m s) :=
  h.command fun p => by
    refine .ite h.reply (.ite h.reply ?_)
    split
    · split
      · have ht : MemoryForm _ := ofWrote h.stagePll.tryPll (.inl ‹_›)
        exact .ite ht.await ht.reply
      · exact h
    · exact (ofWrote h.tryPll (.inr ‹_›)).reply
    · exact h

theorem execPllSetTimeout_form {m} (h : MemoryForm s) : OutForm (execPllSetTimeout m s) := by
  unfold execPllSetTimeout
  apply OutForm.next
  split
  · split
    · exact h.replyTo
    · exact h
  · exact h

theorem execPllBootSet_form {m fails0 fails1} (h : MemoryForm s) : OutForm (execPllBootSet m fails0 fails1 s) :=
  h.command fun _ => .ite h.reply (.ite h.reply (.ite h.reply h.replyJournal))

theorem execPllBandLoad_form {m} (h : MemoryForm s) : OutForm (execPllBandLoad m s) :=
  h.command fun _ => .ite h.reply (.ite h.reply h.loadBands.reply)

theorem execTmbSample_form {m} (h : MemoryForm s) : OutForm (execTmbSample m s) := h.command fun _ => h.reply

theorem execAlarmArm_form {who a vector clear} (h : MemoryForm s) : OutForm (execAlarmArm who a vector clear s) :=
  h.writeAs

theorem execAlarmDisarm_form {who a vector clear} (h : MemoryForm s) :
    OutForm (execAlarmDisarm who a vector clear s) :=
  h.writeAs

theorem sendAlarm {a} (h : MemoryForm s) : MemoryForm (s.sendAlarm a) := .ite h h.sendMsix

theorem execAlarmFire_form {a} (h : MemoryForm s) : OutForm (execAlarmFire a s) :=
  .next (.ite h (.ite h.fireAlarm.sendAlarm.wake h.fireAlarm.sendAlarm))

theorem execClrUncert_form {who} (h : MemoryForm s) : OutForm (execClrUncert who s) := h.writeAs

/-! ## Commands: the engine -/

theorem execDmaDoorbell_form {who r tail} (h : MemoryForm s) : OutForm (execDmaDoorbell who r tail s) := h.writeAs

theorem execRingEnable_form {who r size vector} (h : MemoryForm s) : OutForm (execRingEnable who r size vector s) :=
  h.writeAs

theorem writeCtl {who r enable halt resume} (h : MemoryForm s) : MemoryForm (s.writeCtl who r enable halt resume) :=
  h.writeAs

theorem execRingDisable_form {who r} (h : MemoryForm s) : OutForm (execRingDisable who r s) := h.writeCtl

theorem execRingHalt_form {who r} (h : MemoryForm s) : OutForm (execRingHalt who r s) := h.writeCtl

theorem execRingResume_form {who r} (h : MemoryForm s) : OutForm (execRingResume who r s) := h.writeCtl

theorem execDmaIssue_form {p} (h : MemoryForm s) : OutForm (execDmaIssue p s) := .ite h.portIssue h

theorem execDescriptorStart_form {r i} (h : MemoryForm s) : OutForm (execDescriptorStart r i s) := by
  unfold execDescriptorStart
  split
  · split
    · exact .ite h.startDescriptor h
    · exact h
  · exact h

theorem execChainNext_form {r i} (h : MemoryForm s) : OutForm (execChainNext r i s) := by
  unfold execChainNext
  split
  · exact .ite h.chainNext.settleRing h
  · exact h

theorem execCompletionWrite_form {r} (h : MemoryForm s) : OutForm (execCompletionWrite r s) := by
  unfold execCompletionWrite
  split
  · exact .ite h.retireSlot h
  · exact h

theorem execMsixSend_form {r} (h : MemoryForm s) : OutForm (execMsixSend r s) := by
  unfold execMsixSend
  dsimp only
  split
  · exact h
  · split
    · exact h.putFlag
    · exact h.putFlag.putRing.sendMsix

theorem execAttKeyChange_form {who e expect new} (h : MemoryForm s) :
    OutForm (execAttKeyChange who e expect new s) :=
  h.writeAs

theorem execAttMapWrite_form {who e rd wr base limit} (h : MemoryForm s) :
    OutForm (execAttMapWrite who e rd wr base limit s) :=
  h.accessAt

theorem execAttSweep_form (h : MemoryForm s) : OutForm (execAttSweep s) := .ite h.sweep h

/-! ## Commands: power -/

theorem execVinGood_form (h : MemoryForm s) : OutForm (execVinGood s) := .ite h.withPower.boot h

theorem execTimebaseSwitch_form (h : MemoryForm s) : OutForm (execTimebaseSwitch s) :=
  .ite h.withClocks.putFlag.put h

theorem execVinOff_form (h : MemoryForm s) : OutForm (execVinOff s) := .ite h.withPower h

theorem execRestart_form {nresetHigh vinGood} (h : MemoryForm s) : OutForm (execRestart nresetHigh vinGood s) :=
  .ite h.boot h

theorem execRetentionLoss_form (h : MemoryForm s) : OutForm (execRetentionLoss s) :=
  .ite h.eraseRetained.withPower h

theorem execNresetIn_form (h : MemoryForm s) : OutForm (execNresetIn s) := by
  unfold execNresetIn
  split
  · exact h
  · exact h.withPower
  · exact h.wake.withPower
  · exact .ite h.withPower.enterOff (.ite h.wake.withPower (.ite h h.acceptOff))

theorem execPwrDoze_form {m} (h : MemoryForm s) : OutForm (execPwrDoze m s) :=
  h.command fun _ => by
    split
    · exact h.reply
    · split
      · exact h.replyRefusal
      · exact h.reply.beginDoze

theorem execDozeEntryComplete_form (h : MemoryForm s) : OutForm (execDozeEntryComplete s) := .ite h.completeDoze h

theorem execDozeWake_form {source} (h : MemoryForm s) : OutForm (execDozeWake source s) := .ite h h.wake.withPower

theorem execDozeExit_form (h : MemoryForm s) : OutForm (execDozeExit s) :=
  .ite h (.ite (.ite h h.refuseEnergy.recordRefusal.withPower) (.ite h.exitDoze.withPower.acceptOff
      h.exitDoze.withPower))

theorem logDomain {kind index on} (h : MemoryForm s) : MemoryForm (s.logDomain kind index on) := h.logEvent

theorem regionDown {k} (h : MemoryForm s) : MemoryForm (s.regionDown k) :=
  h.capturePins.fenceEffects.stopLane.stopPll.putBit.closeChannels.showPins.logDomain

theorem regionUp {k} (h : MemoryForm s) : MemoryForm (s.regionUp k) :=
  h.startWipe.wipeCells.setRegion.putFence.putBit.regionPll.showPins.logDomain

theorem execPwrRegion_form {m} (h : MemoryForm s) : OutForm (execPwrRegion m s) :=
  h.command fun _ => by
    dsimp only
    split
    · exact h.reply
    · split
      · exact h.reply
      · split
        · exact h.reply
        · split
          · exact h.reply
          · split
            · exact .ite h.admitOp.regionUp.releaseOp.reply h.refuseEnergy.replyRefusal
            · split
              · exact h.replyRefusal
              · exact h.reply.regionDown

theorem groupOff {g} (h : MemoryForm s) : MemoryForm (s.groupOff g) :=
  (h.groupPowerDown.forEach fun _ _ h3 => .ite (MemoryForm.ite h3.putFlag h3).putFlag (.ite h3.putFlag
      h3)).showSlices.logDomain

theorem execPwrBankGroup_form {m} (h : MemoryForm s) : OutForm (execPwrBankGroup m s) :=
  h.command fun _ => by
    dsimp only
    split
    · exact h.reply
    · split
      · exact h.reply
      · exact .ite h.reply (.ite h.reply (.ite (.ite h.admitOp.groupPowerUp.logDomain.await
          h.refuseEnergy.replyRefusal) (.ite h.replyRefusal h.groupOff.reply)))

theorem execPwrQuad_form {m} (h : MemoryForm s) : OutForm (execPwrQuad m s) :=
  h.command fun _ => by
    dsimp only
    split
    · exact h.reply
    · split
      · exact h.reply
      · split
        · exact h.reply
        · split
          · exact h.quadPowerUp.logDomain.reply
          · split
            · exact h.replyRefusal
            · exact h.quadPowerDown.logDomain.reply

theorem execDevShutdown_form {m} (h : MemoryForm s) : OutForm (execDevShutdown m s) :=
  h.command fun _ => by
    dsimp only
    split
    · exact h.reply
    · split
      · exact h.reply
      · split
        · exact h.replyRefusal
        · exact h.await.acceptOff

theorem execDevReboot_form {m} (h : MemoryForm s) : OutForm (execDevReboot m s) :=
  h.command fun _ => by
    dsimp only
    split
    · exact h.reply
    · split
      · exact h.reply
      · split
        · exact h.replyRefusal
        · exact h.await.acceptOff

theorem replyOrderly {o status} (h : MemoryForm s) : MemoryForm (s.replyOrderly o status) := by
  unfold State.replyOrderly
  split
  · exact h.reply
  · exact h

theorem orderlyOff {o} (h : MemoryForm s) : MemoryForm (s.orderlyOff o) := h.withPower.enterOff

theorem runProgram {program steps} (h : MemoryForm s) : MemoryForm (s.runProgram program steps) :=
  (h.withTest.forEach fun _ _ h2 => h2.putBit.putBit).showTests

theorem shutdownTest {o} (h : MemoryForm s) : MemoryForm (s.shutdownTest o) :=
  .ite h.orderlyOff (.ite h.admitOp.runProgram h.refuseEnergy.recordRefusal.orderlyOff)

theorem advance {o lc} (h : MemoryForm s) : MemoryForm (s.advance o lc) :=
  h.drainLog.blowState.eraseRetained.put.bump.logEvent.drainLog.replyOrderly.orderlyOff

theorem execOrderlyCommit_form {fails} (h : MemoryForm s) : OutForm (execOrderlyCommit fails s) := by
  unfold execOrderlyCommit
  dsimp only
  split
  · exact h
  · split
    · exact h
    · split
      · exact h.withPower.dropWaiting.stopFabric.commitOnVin.withPower.put.replyOrderly
      · split
        · exact h.withPower.dropWaiting.stopFabric.commitOnVin.advance
        · exact .ite h.withPower.dropWaiting.stopFabric.commitOnVin.replyOrderly.orderlyOff
            h.withPower.dropWaiting.stopFabric.commitOnVin.replyOrderly.runProgram
        · exact h.withPower.dropWaiting.stopFabric.commitOnVin.replyOrderly.shutdownTest
        · exact h.withPower.dropWaiting.stopFabric.commitOnVin.replyOrderly.orderlyOff

/-! ## Commands: energy -/

theorem countEnergy {d pj} (h : MemoryForm s) : MemoryForm (s.countEnergy d pj) := .ite h h.withLedger.bump

theorem sampleVin {mv ma} (h : MemoryForm s) : MemoryForm (s.sampleVin mv ma) := h.withLedger.put.put

theorem capTimeouts (h : MemoryForm s) : MemoryForm s.capTimeouts :=
  h.forEach fun _ _ h1 => by
    split
    · exact .ite h1.replyTo h1
    · exact h1

theorem execLedgerSample_form {vinMv iinMa intMv extMv charging domains} (h : MemoryForm s) :
    OutForm (execLedgerSample vinMv iinMa intMv extMv charging domains s) :=
  .ite h (.ite trivial ((h.sampleVin.put.put.countEnergy.foldl fun _ _ h5 => .ite h5
      h5.countEnergy).putFlag.putFlag.recompute.capTimeouts))

theorem takeCapacitance {ext cap method} (h : MemoryForm s) : MemoryForm (s.takeCapacitance ext cap method) :=
  h.put.putFlag.put.recompute

theorem dischargeCapacitance {ext drop} (h : MemoryForm s) : MemoryForm (s.dischargeCapacitance ext drop).1 := by
  unfold State.dischargeCapacitance
  split
  · exact h.spend
  · exact h

theorem capForCommand {m p ext cap} (h : MemoryForm s) : MemoryForm (s.capForCommand m p ext cap) := by
  unfold State.capForCommand
  dsimp only
  split
  · exact .ite h.setRunning h.takeCapacitance.takeCapacitance.replyTo
  · exact h

theorem execCapacitanceMeasurement_form {ext discharge current time drop} (h : MemoryForm s) :
    OutForm (execCapacitanceMeasurement ext discharge current time drop s) := by
  unfold execCapacitanceMeasurement
  dsimp only
  split
  · exact h
  · split
    · exact h.takeCapacitance
    · split
      · exact h
      · split
        · exact h.dischargeCapacitance.capForCommand
        · exact h.dischargeCapacitance.takeCapacitance

theorem execExtHoldChargeTimeout_form (h : MemoryForm s) : OutForm (execExtHoldChargeTimeout s) :=
  .ite h h.takeCapacitance

theorem shortCommit {fails} (h : MemoryForm s) : MemoryForm (s.shortCommit fails) := .ite h.commitStaged h

theorem execReserveShort_form {fails} (h : MemoryForm s) : OutForm (execReserveShort fails s) :=
  .ite h.putFlag.logEvent.shortCommit (.next (.ite h.shortCommit h))

theorem execReserveShortClear_form (h : MemoryForm s) : OutForm (execReserveShortClear s) := .ite h.putFlag h

theorem openOutcome {fromBoot} (h : MemoryForm s) : MemoryForm (s.openOutcome fromBoot) :=
  h.put.putFlag.putFlag.putFlag.putFlag.put.put

theorem stopForHoldup (h : MemoryForm s) : MemoryForm s.stopForHoldup := by
  unfold State.stopForHoldup
  extract_lets s1 s2 s3 mail power s4
  have h1 : MemoryForm s1 := h.fenceAll.dropJobs.idleAllLanes
  have h2 : MemoryForm s2 := h1.setQueries.stopLanes.cutLoads.stopAllPlls
  have h3 : MemoryForm s3 := (h2.forEach fun _ _ ht => ht.putFlag).dropSlices.cutProgram
  clear_value s3
  have h4 : MemoryForm s4 := h3.elsewhere
  exact h4.showAllPins.put

theorem suspendErases (h : MemoryForm s) : MemoryForm s.suspendErases :=
  h.dropWaitingUnits.withLedger.forEach fun _ _ h3 => h3.suspendBank

theorem enterHoldup (h : MemoryForm s) : MemoryForm s.enterHoldup :=
  h.abortDoze.putFlag.putFlag.withPower.bump.logEvent.openOutcome.setMode.put.withHoldup.stopForHoldup.suspendErases

theorem execHoldupEntry_form (h : MemoryForm s) : OutForm (execHoldupEntry s) := by
  unfold execHoldupEntry
  split
  · exact h.enterHoldup
  · exact h.enterHoldup
  · exact h.enterHoldup
  · exact h.enterHoldup
  · exact h
  · exact h

theorem execVinReturn_form (h : MemoryForm s) : OutForm (execVinReturn s) := .ite h.withPower.putFlag h

theorem closeHoldup (h : MemoryForm s) : MemoryForm s.closeHoldup := by
  unfold State.closeHoldup
  extract_lets s1 s2
  have h1 : MemoryForm s1 := .ite h h.skipOld.writeArchive
  have h2 : MemoryForm s2 := .ite h1.put h1
  exact .ite h2.withHoldup.setUnits.admitOp.runProgram.putFlag h2.withHoldup.setUnits

theorem execHoldupRound_form {fail} (h : MemoryForm s) : OutForm (execHoldupRound fail s) := by
  unfold execHoldupRound
  split
  · exact h
  · split
    · exact h.huStop
    · split
      · exact h.closeHoldup
      · exact .ite h.huStop h.huRound

theorem execHoldupOff_form (h : MemoryForm s) : OutForm (execHoldupOff s) := .ite h.put.put.put.enterOff h

theorem execNrgQuery_form {m} (h : MemoryForm s) : OutForm (execNrgQuery m s) :=
  h.command fun _ => .ite h.reply h.reply

theorem execNrgSnapshotRead_form {m bad} (h : MemoryForm s) : OutForm (execNrgSnapshotRead m bad s) :=
  h.command fun _ => by
    dsimp only
    split
    · exact h.reply
    · split
      · exact h.useBank.reply
      · split
        · exact h.useBank.reply
        · exact .ite h.useBank.reply h.useBank.writeBankBytes.reply

theorem execNrgCapMeasure_form {m} (h : MemoryForm s) : OutForm (execNrgCapMeasure m s) :=
  h.command fun _ => h.await

/-! ## Commands: the fabric -/

theorem samplePads {k pads} (h : MemoryForm s) : MemoryForm (s.samplePads k pads) := by
  unfold State.samplePads
  split
  · exact h.put
  · exact h

theorem samplePad {n pads} (h : MemoryForm s) : MemoryForm (s.samplePad n pads) := .ite h.putGio h

theorem clockPin {k n rise fall pads} (h : MemoryForm t) : MemoryForm (s.clockPin t k n rise fall pads) := h.putGio

theorem drivePin {k n rise fall} (h : MemoryForm s) : MemoryForm (s.drivePin k n rise fall) := h.putGio

theorem drivePins {k rising falling} (h : MemoryForm s) : MemoryForm (s.drivePins k rising falling) :=
  ((h.foldl fun _ _ h2 => h2.drivePin).foldl fun _ _ h3 => h3.putFio).showPins

theorem clockLanes {k rising} (h : MemoryForm t) : MemoryForm (s.clockLanes t k rising) :=
  h.forEach fun _ _ hu => hu.lanePresent.laneOffer

theorem clockPort {rspReady reqReady p} (h : MemoryForm s) : MemoryForm (s.clockPort rspReady reqReady p) :=
  h.putPort

theorem clockElements {k rising} (h : MemoryForm s) : MemoryForm (s.clockElements k rising) :=
  ((h.forEach fun _ _ h2 => h2.forEach fun _ _ h3 => h3.leEdge).forEach fun _ _ h5 => .ite h5.ramEdge h5).forEach
      fun _ _ h6 => .ite h6.macEdge h6

theorem execFabricClockEdge_form {k rising falling pads lanes rspReady reqReady} (h : MemoryForm s) :
    OutForm (execFabricClockEdge k rising falling pads lanes rspReady reqReady s) := by
  rw [execFabricClockEdge]
  refine OutForm.next (.ite h ?_)
  extract_lets s1 s2 t1 t2 t3 t4
  have h1 : MemoryForm s1 := (h.foldl fun _ _ ht => ht.laneEdge).samplePads
  have h2 : MemoryForm s2 := h1.foldl fun _ _ ht => ht.samplePad
  have h3 : MemoryForm t2 := h2.clockElements.foldl fun _ _ ht => ht.clockPin
  have h4 : MemoryForm t4 := h3.clockLanes.forEach fun _ _ ht => ht.clockPort
  exact .ite h1 h4.spend.drivePins

/-! ## Commands: hosts -/

theorem execPerstRelease_form {k} (h : MemoryForm s) : OutForm (execPerstRelease k s) :=
  .ite h h.putEndpoint.linkActivity

theorem execLinkUp_form {k gen width} (h : MemoryForm s) : OutForm (execLinkUp k gen width s) :=
  .ite h.putFlag.put.put.linkActivity h

theorem execPerstLow_form {k} (h : MemoryForm s) : OutForm (execPerstLow k s) :=
  .ite h (.ite h.putEndpoint.dropLink.hostReset.linkActivity h.putEndpoint)

theorem execHotReset_form {k} (h : MemoryForm s) : OutForm (execHotReset k s) :=
  .ite h.dropLink.hostReset.linkActivity h

theorem execLinkDown_form {k} (h : MemoryForm s) : OutForm (execLinkDown k s) :=
  .ite h.dropLink.hostReset.linkActivity h

theorem execFunctionLevelReset_form {k} (h : MemoryForm s) : OutForm (execFunctionLevelReset k s) :=
  .ite h.hostReset h

theorem execMailboxClearDone_form {m} (h : MemoryForm s) : OutForm (execMailboxClearDone m s) := by
  unfold execMailboxClearDone
  refine OutForm.ite h ?_
  extract_lets ack mail s1
  have h1 : MemoryForm s1 := h.elsewhere
  refine .ite h1 (.ite h1.withAnswer (.ite h1.noteSpi ?_))
  split
  · exact h1.answerTxn
  · exact h1

theorem execLinkPowerState_form {k change} (h : MemoryForm s) : OutForm (execLinkPowerState k change s) := by
  unfold execLinkPowerState
  dsimp only
  split
  · exact h
  · split
    · exact h.putEndpoint
    · exact h.putEndpoint
    · exact h.putEndpoint
    · exact .ite h.putEndpoint.linkActivity h

theorem execBarTlp_form {k bar offset write ds} (h : MemoryForm s) : OutForm (execBarTlp k bar offset write ds s) :=
  by
  unfold execBarTlp
  split
  · exact h
  · exact .ite (.next (.ite (MemoryForm.ite h.putEndpoint.linkActivity h).reportAer (MemoryForm.ite
      h.putEndpoint.linkActivity h).completeTo)) (MemoryForm.ite h.putEndpoint.linkActivity h).barTlp

theorem execSpiRead_form {addr words late} (h : MemoryForm s) : OutForm (execSpiRead addr words late s) :=
  .ite h h.spiReadWords.putSpi

theorem execSpiWriteWord_form {addr data} (h : MemoryForm s) : OutForm (execSpiWriteWord addr data s) := by
  unfold execSpiWriteWord
  dsimp only
  split
  · exact h
  · split
    · exact h.putSpi.spiWriteWord
    · exact h.putSpi.spiWriteWord
    · exact h

theorem execSpiStatus_form (h : MemoryForm s) : OutForm (execSpiStatus s) := .ite h h.putSpi

theorem execSpiUnknownOperation_form {op} (h : MemoryForm s) : OutForm (execSpiUnknownOperation op s) :=
  .ite h h.putSpi

theorem execSpiCsRise_form (h : MemoryForm s) : OutForm (execSpiCsRise s) := h.putSpi

theorem execMailboxEntryWrite_form {who m word data} (h : MemoryForm s) :
    OutForm (execMailboxEntryWrite who m word data s) :=
  h.accessAt

theorem execMbxReqTailWrite_form {who m tail} (h : MemoryForm s) : OutForm (execMbxReqTailWrite who m tail s) :=
  h.writeAs

theorem execMbxRspHeadWrite_form {who m head} (h : MemoryForm s) : OutForm (execMbxRspHeadWrite who m head s) :=
  h.writeAs

theorem execMbxClear_form {who m irqEn} (h : MemoryForm s) : OutForm (execMbxClear who m irqEn s) := h.writeAs

theorem takePacket {m} (h : MemoryForm s) : MemoryForm (s.takePacket m) :=
  .ite h.elsewhere.put.setRunning h.elsewhere.put.replyTo

theorem execPacketStart_form (h : MemoryForm s) : OutForm (execPacketStart s) := by
  unfold execPacketStart
  split
  · exact h
  · split
    · exact h
    · exact h.takePacket

theorem execNop_form {m} (h : MemoryForm s) : OutForm (execNop m s) := h.command fun _ => h.reply

theorem execHostAttachGet_form {m} (h : MemoryForm s) : OutForm (execHostAttachGet m s) :=
  h.command fun _ => h.reply

theorem execHostAttachSet_form {m fails0 fails1} (h : MemoryForm s) :
    OutForm (execHostAttachSet m fails0 fails1 s) :=
  h.command fun _ => .ite h.reply h.replyJournal

theorem execPcieCompletion_form {id data} (h : MemoryForm s) : OutForm (execPcieCompletion id data s) := by
  unfold execPcieCompletion
  split
  · exact h
  · split
    · exact .ite h.answerTxn h
    · exact h.answerTxn

theorem execPcieCompletionTimeout_form {id} (h : MemoryForm s) : OutForm (execPcieCompletionTimeout id s) := by
  unfold execPcieCompletionTimeout
  split
  · exact h
  · exact h.answerTxn

/-! ## Units of a mailbox -/

theorem endUnits {m p status results} (h : MemoryForm s) : MemoryForm (s.endUnits m p status results) :=
  h.releaseOp.replyTo

theorem unitErase {m p l} (h : MemoryForm s) : MemoryForm (s.unitErase m p l) := h.await.startErase

theorem unitProgram {m p l page ws} (h : MemoryForm s) : MemoryForm (s.unitProgram m p l page ws) :=
  h.await.startProgram

theorem nextUnit {m p erased} (h : MemoryForm s) : MemoryForm (s.nextUnit m p erased) :=
  .ite h.unitErase h.unitProgram

theorem putPointer {p v} (h : MemoryForm s) : MemoryForm (s.putPointer p v) := .ite h.withGoldPointer h.setLoader

theorem imageUnit {m p erase ok} (h : MemoryForm s) : MemoryForm (s.imageUnit m p erase ok) :=
  .ite (.ite h.nextUnit h.endUnits) (.ite h.putPointer.endUnits (.ite h.nextUnit h.putPointer.endUnits))

theorem userUnit {m p ok} (h : MemoryForm s) : MemoryForm (s.userUnit m p ok) :=
  .ite h.endUnits (.ite h.nextUnit h.endUnits)

theorem programDir {m p d pos} (h : MemoryForm s) : MemoryForm (s.programDir m p d pos) :=
  .ite h.setLoader.unitProgram h.setLoader.unitErase

theorem endDirectory {m p} (h : MemoryForm s) : MemoryForm (s.endDirectory m p) := by
  unfold State.endDirectory
  extract_lets dir s1 pointer s2
  have h1 : MemoryForm s1 := h.setLoader
  have h2 : MemoryForm s2 := by
    dsimp only [s2]
    split
    · exact h1.setLoader
    · exact h1.setLoader
    · exact h1
  exact h2.endUnits

theorem directoryUnit {m p erase ok} (h : MemoryForm s) : MemoryForm (s.directoryUnit m p erase ok) := by
  unfold State.directoryUnit
  split
  · exact h
  · exact .ite (.ite h.endDirectory (.ite h.setLoader.endUnits h.unitProgram)) (.ite h.programDir (.ite
      h.setLoader.unitErase h.setLoader.endDirectory))

theorem updateDirectory {m p d results} (h : MemoryForm s) : MemoryForm (s.updateDirectory m p d results) :=
  .ite h (.ite h.reply (.ite h.reply (.ite h.replyEnergyRefused h.admitOp.programDir)))

theorem unitEnds {u ok} (h : MemoryForm s) : MemoryForm (s.unitEnds u ok) := by
  unfold State.unitEnds
  extract_lets s1
  have h1 : MemoryForm s1 := by
    dsimp only [s1]
    split
    · exact .ite h.releaseOp h
    · exact h.releaseOp
  split
  · exact h1
  · split
    · split
      · exact h1
      · split
        · exact h1
        · split
          · exact h1.imageUnit
          · exact h1.imageUnit
          · exact h1.userUnit
          · exact h1.endUnits
          · exact h1.directoryUnit
    · exact .ite h1.setCopy.showJournal h1.showDegraded
    · exact h1.withJournal
    · exact h1
    · exact h1

/-! ## Commands: images -/

theorem checkChunks {hdr l0 errors c leaves} (h : MemoryForm s) :
    MemoryForm (s.checkChunks hdr l0 errors c leaves).1 := by
  induction leaves generalizing s c with
  | nil => exact h
  | cons leaf rest ih =>
    unfold State.checkChunks
    extract_lets size
    split
    rename_i s1 chunk e
    have h1 : MemoryForm s1 := ofFst h.readSpan e
    split
    exact .iteFst h1 (.iteFst h1 (.iteFst h1 (ih h1)))

theorem checkWhole {l0 errors agree} (h : MemoryForm s) : MemoryForm (s.checkWhole l0 errors agree).1 := by
  unfold State.checkWhole
  dsimp only
  split
  · exact h.checkStored
  · exact h.checkStored.readSpan.checkChunks

theorem startWrite {m p base pos addr len locked} (h : MemoryForm s) :
    MemoryForm (s.startWrite m p base pos addr len locked) := by
  unfold State.startWrite
  dsimp only
  split
  · exact h.useBank.reply
  · split
    · exact .reply (.ofFst h.useBank.readBankBytes ‹_›)
    · split
      · exact .reply (.ofFst h.useBank.readBankBytes ‹_›)
      · exact .ite (.replyEnergyRefused (.ofFst h.useBank.readBankBytes ‹_›)) ((MemoryForm.admitOp (.ofFst
          h.useBank.readBankBytes ‹_›)).nextUnit)

theorem execImgDirRead_form {m} (h : MemoryForm s) : OutForm (execImgDirRead m s) :=
  h.command fun _ => .ite h.reply h.reply

theorem execImgAlloc_form {m} (h : MemoryForm s) : OutForm (execImgAlloc m s) :=
  h.command fun _ => by
    dsimp only
    split
    · exact h.reply
    · split
      · exact h.reply
      · exact .ite h.reply (.ite h.reply (.ite h.reply h.updateDirectory))

theorem execImgWrite_form {m} (h : MemoryForm s) : OutForm (execImgWrite m s) :=
  h.command fun _ => .ite h.reply (.ite h h.startWrite)

theorem execImgCommit_form {m errors} (h : MemoryForm s) : OutForm (execImgCommit m errors s) :=
  h.command fun _ => .ite h.reply (.ite h (.ite h.checkWhole.reply h.checkWhole.updateDirectory))

theorem execImgSetState_form {m} (h : MemoryForm s) : OutForm (execImgSetState m s) :=
  h.command fun _ => .ite h.reply (.ite h.reply (.ite h.reply (.ite h.reply h.updateDirectory)))

theorem execImgSelect_form {m} (h : MemoryForm s) : OutForm (execImgSelect m s) :=
  h.command fun _ => .ite h.reply h.updateDirectory

theorem execImgRegionSelect_form {m} (h : MemoryForm s) : OutForm (execImgRegionSelect m s) :=
  h.command fun _ => .ite h.reply (.ite h.reply h.updateDirectory)

/-! ## Commands: JTAG -/

theorem driveJtag {f g} (h : MemoryForm s) : MemoryForm (s.driveJtag f g) :=
  ((h.forEach fun _ _ h2 => h2.putGio).forEach fun _ _ h3 => h3.putFio).showAllPins

theorem releaseJtag (h : MemoryForm s) : MemoryForm s.releaseJtag := h.driveJtag

theorem driveCells (h : MemoryForm s) : MemoryForm s.driveCells := h.driveJtag

theorem setIr {code} (h : MemoryForm s) : MemoryForm (s.setIr code) := h.put

theorem pinControl {code f} (h : MemoryForm s) (hf : ∀ t, MemoryForm t → MemoryForm (f t)) :
    MemoryForm (s.pinControl code f) :=
  .ite h (.ite (hf _ h.releaseJtag.setIr) h.releaseJtag.setIr.bump)

theorem plainJtag {code f} (h : MemoryForm s) (hf : ∀ t, MemoryForm t → MemoryForm (f t)) :
    MemoryForm (s.plainJtag code f) :=
  .ite h (hf _ h.releaseJtag.setIr)

theorem scan {pins load} (h : MemoryForm s) : MemoryForm (s.scan pins load) := h.withJtag

theorem execTestLogicReset_form (h : MemoryForm s) : OutForm (execTestLogicReset s) := h.plainJtag fun _ ht => ht

theorem execExtest_form {pins load} (h : MemoryForm s) : OutForm (execExtest pins load s) :=
  h.pinControl fun _ ht => ht.scan.driveCells

theorem execSamplePreload_form {pins load} (h : MemoryForm s) : OutForm (execSamplePreload pins load s) :=
  h.plainJtag fun _ ht => ht.scan

theorem execIdcode_form (h : MemoryForm s) : OutForm (execIdcode s) := h.plainJtag fun _ ht => ht.withJtag

theorem execClamp_form (h : MemoryForm s) : OutForm (execClamp s) := h.pinControl fun _ ht => ht.driveCells

theorem execHighz_form (h : MemoryForm s) : OutForm (execHighz s) := h.pinControl fun _ ht => ht.driveJtag

theorem execExtestPulse_form {pins load} (h : MemoryForm s) : OutForm (execExtestPulse pins load s) :=
  h.pinControl fun _ ht => ht.scan

theorem execExtestTrain_form {pins load} (h : MemoryForm s) : OutForm (execExtestTrain pins load s) :=
  h.pinControl fun _ ht => ht.scan

theorem execBypass_form (h : MemoryForm s) : OutForm (execBypass s) := h.plainJtag fun _ ht => ht

theorem execJtagReg_form {offset write data} (h : MemoryForm s) : OutForm (execJtagReg offset write data s) :=
  .next (.ite (h.plainJtag fun _ ht => ht) (h.plainJtag fun _ ht => ht.controlBy.withJtag))

theorem execJtagLoad_form {bytes} (h : MemoryForm s) : OutForm (execJtagLoad bytes s) :=
  .next (.ite (h.plainJtag fun _ ht => ht) (h.plainJtag fun _ ht => .ite ht ht.setLoader))

/-! ## Commands: lanes -/

theorem execLcPllApply_form {who q p refsel m n khz} (h : MemoryForm s) :
    OutForm (execLcPllApply who q p refsel m n khz s) :=
  (MemoryForm.ite h h.putSource).writeAs

theorem execLcPllLoss_form {q p} (h : MemoryForm s) : OutForm (execLcPllLoss q p s) :=
  .next (.ite h h.putLcLock.bump.dropLanesOf)

theorem execLcPllLock_form {q p} (h : MemoryForm s) : OutForm (execLcPllLock q p s) := .next (.ite h.putLcLock h)

theorem execLaneConfiguration_form {who l setting} (h : MemoryForm s) :
    OutForm (execLaneConfiguration who l setting s) :=
  h.writeAs

theorem execCdrLock_form {l} (h : MemoryForm s) : OutForm (execCdrLock l s) := .next (.ite h h.putFlag.put)

theorem execAlignment_form {l} (h : MemoryForm s) : OutForm (execAlignment l s) :=
  .next (.ite h (.ite h.putFlag.putFlag.put h.putFlag.putFlag))

theorem execAdaptation_form {l} (h : MemoryForm s) : OutForm (execAdaptation l s) := .next (.ite h h.putLane.put)

theorem loseAlignment {l} (h : MemoryForm s) : MemoryForm (s.loseAlignment l) := h.putFlag.putFlag.put.bump

theorem execCdrLockLoss_form {l} (h : MemoryForm s) : OutForm (execCdrLockLoss l s) :=
  .next (.ite h h.loseAlignment.putFlag.stopRclk.abortScan)

theorem execAlignmentLoss_form {l} (h : MemoryForm s) : OutForm (execAlignmentLoss l s) :=
  .next (.ite h h.loseAlignment)

theorem execTxUnderrun_form {l} (h : MemoryForm s) : OutForm (execTxUnderrun l s) := .next (.ite h h.putLane.bump)

theorem execRxOverflow_form {l} (h : MemoryForm s) : OutForm (execRxOverflow l s) := .next (.ite h.bump h)

theorem execRecoveredClockStart_form {q i} (h : MemoryForm s) : OutForm (execRecoveredClockStart q i s) :=
  .next (.ite h (.ite h.putFlag h.putFlag))

theorem execEyeScanStart_form {who l phase voff log2Bits} (h : MemoryForm s) :
    OutForm (execEyeScanStart who l phase voff log2Bits s) :=
  h.writeAs

theorem execEyeScanDone_form {l errors} (h : MemoryForm s) : OutForm (execEyeScanDone l errors s) :=
  .next (.ite h h.put.putFlag.putFlag.putFlag)

/-! ## Commands: loads -/

theorem beginRegions {j} (h : MemoryForm s) : MemoryForm (s.beginRegions j) :=
  (h.forEach fun _ _ h2 => h2.stopLane.addFence.setWriter.setLoader.setRegion.put).beginStream

theorem noteStatus {mask st} (h : MemoryForm s) : MemoryForm (s.noteStatus mask st) :=
  h.forEach fun _ _ h1 => h1.put

theorem checkJob {i j errors} (h : MemoryForm s) : MemoryForm (s.checkJob i j errors) :=
  .ite h.checkStored.noteCheckFail.failBoot h.checkStored.setLoader.beginRegions

theorem refuseReload {j st} (h : MemoryForm s) : MemoryForm (s.refuseReload j st) := by
  unfold State.refuseReload
  split
  · exact h.reply
  · exact h.setLoader.noteStatus

theorem checkStream (h : MemoryForm s) : MemoryForm s.checkStream := by
  unfold State.checkStream
  dsimp only
  split
  · exact .ite ((MemoryForm.ite h.setLoader.noteCheckFail h.setLoader).refuseReload) h.setLoader.setLoader
  · exact .ite h.setLoader.noteCheckFail.failBoot h.setLoader.put.showAllPins.setLoader.beginRegions

theorem execImageCheck_form {errors} (h : MemoryForm s) : OutForm (execImageCheck errors s) := by
  unfold execImageCheck
  split
  · exact h
  · split
    · split
      · exact .next (.ite h h.checkJob)
      · exact h
    · exact .next (.ite h.checkStream h)

theorem failChunk {i j st} (h : MemoryForm s) : MemoryForm (s.failChunk i j st) := .ite h.failReload h.failBoot

theorem openAndRoute {i j hdr chunk leaf} (h : MemoryForm s) : MemoryForm (s.openAndRoute i j hdr chunk leaf) :=
  .ite h.failChunk ((h.foldl fun _ _ h2 => h2.takeRecord).setLoader.settleJob)

theorem takeChunk {i j hdr errors} (h : MemoryForm s) : MemoryForm (s.takeChunk i j hdr errors) :=
  .ite (.ite h.setLoader.openAndRoute (.ite h h.failChunk)) h.readSpan.readSpan.openAndRoute

theorem execChunkArrival_form {i errors} (h : MemoryForm s) : OutForm (execChunkArrival i errors s) := by
  unfold execChunkArrival
  split
  · exact h
  · split
    · exact h
    · split
      · exact h
      · exact .next (.ite h.takeChunk h)

theorem settleJobs (h : MemoryForm s) : MemoryForm s.settleJobs := h.forEach fun _ _ h1 => h1.settleJob

theorem execFrameWrite_form {k misses} (h : MemoryForm s) : OutForm (execFrameWrite k misses s) := by
  unfold execFrameWrite
  dsimp only
  split
  · exact h
  · split
    · exact h
    · split
      · exact .next (.ite h.abortRegion.settleJobs h.writeFrame)
      · exact h.writeFrame

theorem execLoadComplete_form {k} (h : MemoryForm s) : OutForm (execLoadComplete k s) := by
  unfold execLoadComplete
  split
  · exact h
  · split
    · exact h
    · split
      · exact h.completeLoad.settleJob
      · exact h

theorem execWipeDone_form {k} (h : MemoryForm s) : OutForm (execWipeDone k s) :=
  .ite h h.wipeCells.setRegion.settleHandovers

theorem execGoldFallback_form (h : MemoryForm s) : OutForm (execGoldFallback s) :=
  .ite h ((h.put.putFlag.startPlls.forEach fun _ _ h4 => h4.setRegion).setLoader)

theorem execRunEntry_form (h : MemoryForm s) : OutForm (execRunEntry s) := .ite h.put.put.setMode h

theorem execLdReload_form {m errors} (h : MemoryForm s) : OutForm (execLdReload m errors s) :=
  h.command fun _ => .ite h.reply (.ite h.reply (.ite h.reply (.ite h (.ite h.checkStored.noteCheckFail.reply
      h.checkStored.setLoader.await))))

theorem execReloadFence_form (h : MemoryForm s) : OutForm (execReloadFence s) := by
  rw [execReloadFence]
  split
  · exact h
  · refine .ite h (.ite h.setLoader.refuseReload (.next ?_))
    split
    · exact h.setLoader.setLoader.beginRegions.reply
    · exact h.setLoader.setLoader.beginRegions

/-! ## Commands: pins -/

theorem execOutputShort_form {n} (h : MemoryForm s) : OutForm (execOutputShort n s) := .ite h.putBit.gioShort h

theorem execGioRearm_form {who b pins} (h : MemoryForm s) : OutForm (execGioRearm who b pins s) := h.writeAs

theorem execFieldOvercurrent_form {n mA} (h : MemoryForm s) : OutForm (execFieldOvercurrent n mA s) :=
  .ite h.fioTrip h

theorem execGroupOverload_form {g mA} (h : MemoryForm s) : OutForm (execGroupOverload g mA s) := .ite h.groupTrip h

theorem execInrushWindowEnd_form {n} (h : MemoryForm s) : OutForm (execInrushWindowEnd n s) := h.putFio

theorem execFioRearm_form {who g pins} (h : MemoryForm s) : OutForm (execFioRearm who g pins s) := h.writeAs

theorem execFieldInputChange_form {n value} (h : MemoryForm s) : OutForm (execFieldInputChange n value s) :=
  .ite (.next (.ite h.putBit.wake h.putBit)) h

theorem execWireBreak_form {n broken} (h : MemoryForm s) : OutForm (execWireBreak n broken s) :=
  .ite (.next (.ite h.putBit.bump.noteFio h.putBit)) h

theorem setOpenLoad {n isOpen} (h : MemoryForm s) : MemoryForm (s.setOpenLoad n isOpen) :=
  .ite h (.ite h.putBit.bump.noteFio h.putBit)

theorem execOpenLoadTest_form {n mV} (h : MemoryForm s) : OutForm (execOpenLoadTest n mV s) := .ite h.setOpenLoad h

theorem execOpenLoad_form {n isOpen} (h : MemoryForm s) : OutForm (execOpenLoad n isOpen s) := .ite h.setOpenLoad h

theorem execVfieldGood_form {g mV} (h : MemoryForm s) : OutForm (execVfieldGood g mV s) :=
  .ite trivial (.ite h.put.putFlag.putFlag.putFlag.showPins h)

theorem loseField {g kind} (h : MemoryForm s) : MemoryForm (s.loseField g kind) :=
  h.putFlag.putFlag.put.bump.noteFio.showPins

theorem execVfieldUndervoltage_form {g mV} (h : MemoryForm s) : OutForm (execVfieldUndervoltage g mV s) :=
  .ite (.next (.ite h.put h.put.loseField)) h

theorem execVfieldReversal_form {g mV} (h : MemoryForm s) : OutForm (execVfieldReversal g mV s) :=
  .ite trivial (.ite (.next (.ite h.put h.put.loseField.putFlag)) h)

/-! ## Commands: safety -/

theorem execLockstepMismatch_form (h : MemoryForm s) : OutForm (execLockstepMismatch s) := .ite h.lockstepMismatch h

theorem execSafReq_form {who} (h : MemoryForm s) : OutForm (execSafReq who s) := h.writeAs

theorem execSafEnter_form {m} (h : MemoryForm s) : OutForm (execSafEnter m s) :=
  h.command fun _ => .ite h.reply h.danger.reply

theorem execSafCfgCritWrite_form {who regions} (h : MemoryForm s) : OutForm (execSafCfgCritWrite who regions s) :=
  h.writeAs

theorem execSafPllCritWrite_form {who plls} (h : MemoryForm s) : OutForm (execSafPllCritWrite who plls s) :=
  h.writeAs

theorem execSafIoCritWrite_form {who regions} (h : MemoryForm s) : OutForm (execSafIoCritWrite who regions s) :=
  h.writeAs

theorem execSafInject_form {who diag index} (h : MemoryForm s) : OutForm (execSafInject who diag index s) :=
  h.writeAs

theorem execCalInject_form {who loop} (h : MemoryForm s) : OutForm (execCalInject who loop s) := h.writeAs

theorem execEventLogEntry_form (h : MemoryForm s) : OutForm (execEventLogEntry s) := h.takeLogEntry

/-! ## Commands: scrubbers -/

theorem noteMismatch {k f outcome injected} (h : MemoryForm s) : MemoryForm (s.noteMismatch k f outcome injected) :=
  .ite h h.put.put.putFlag.stamp

theorem mismatch {k o injected} (h : MemoryForm s) : MemoryForm (s.mismatch k o injected) :=
  .ite (MemoryForm.ite h.putFlag h).setLane.bump.noteMismatch.logEvent.danger (MemoryForm.ite h.putFlag
      h).setLane.bump.noteMismatch.logEvent.laneAfter.contained

theorem execScrubCompare_form {k struck} (h : MemoryForm s) : OutForm (execScrubCompare k struck s) := by
  unfold execScrubCompare
  split
  · exact h
  · split
    · exact h.endSweep
    · exact .ite h.upset.setLane.laneAfter h.upset.mismatch

theorem execScrubRepair_form {k misses errors} (h : MemoryForm s) : OutForm (execScrubRepair k misses errors s) :=
  by
  unfold execScrubRepair
  split
  · exact h
  · exact .ite h h.repairFrame.releaseUnits

theorem execCfgScrubInject_form {who frame} (h : MemoryForm s) : OutForm (execCfgScrubInject who frame s) :=
  h.writeAs

theorem execScrubQuery_form {m} (h : MemoryForm s) : OutForm (execScrubQuery m s) :=
  h.command fun _ => .ite h.reply (.ite h.reply h.await.setQueries.settleQueries)

/-! ## Commands: security -/

theorem noteToken {t status} (h : MemoryForm s) : MemoryForm (s.noteToken t status) :=
  .ite h.put.put.put h.put.put.put.bump

theorem withToken {m action p f} (h : MemoryForm s) (hf : ∀ t bs, MemoryForm t → MemoryForm (f t bs)) :
    MemoryForm (s.withToken m action p f) :=
  .ite h.noteToken.reply (hf _ _ h.noteToken)

theorem blowFlag {n} (h : MemoryForm s) : MemoryForm (s.blowFlag n) := h.withFuses.showFuses

theorem programSlot {i hash good} (h : MemoryForm s) : MemoryForm (s.programSlot i hash good) :=
  .ite h.withFuses.blowFlag h.withFuses.showFuses

theorem execLcAdvance_form {m} (h : MemoryForm s) : OutForm (execLcAdvance m s) :=
  h.command fun _ => .ite h.reply (h.withToken fun _ _ ht => ht.await.acceptOff)

theorem execLcKeySet_form {m good} (h : MemoryForm s) : OutForm (execLcKeySet m good s) :=
  h.command fun _ => .ite (.ite h.reply h.programSlot.reply)
    (h.withToken fun _ _ ht => .ite ht.programSlot.bump.reply ht.programSlot.put.reply)

theorem execLcRevoke_form {m} (h : MemoryForm s) : OutForm (execLcRevoke m s) :=
  h.command fun _ => h.withToken fun _ _ ht => ht.blowFlag.bump.reply

theorem execLcImageKeySet_form {m} (h : MemoryForm s) : OutForm (execLcImageKeySet m s) :=
  h.command fun _ => .ite h.reply h.withFuses.blowFlag.reply

theorem execLcGoldWrite_form {m} (h : MemoryForm s) : OutForm (execLcGoldWrite m s) :=
  h.command fun _ => .ite h.reply (.ite h.reply (.ite h (.ite h.startWrite.setLoader h.startWrite)))

theorem execLcGoldCommit_form {m errors} (h : MemoryForm s) : OutForm (execLcGoldCommit m errors s) :=
  h.command fun _ => .ite h.reply (.ite h (.ite h.checkWhole.reply h.checkWhole.updateDirectory))

/-! ## Commands: the Slate -/

theorem pageResponse {t off flips} (h : MemoryForm s) : MemoryForm (s.pageResponse t off flips) := by
  unfold State.pageResponse
  dsimp only
  split <;> exact h.suspendBank.readPage.noteRead.answerTxn

theorem slateResponse {t off flips} (h : MemoryForm s) : MemoryForm (s.slateResponse t off flips) :=
  .ite h.bump.answerTxn (.ite h h.pageResponse)

theorem execSlateRead_form {id flips} (h : MemoryForm s) : OutForm (execSlateRead id flips s) := by
  unfold execSlateRead
  apply OutForm.next
  split
  · exact h
  · split
    · exact .ite h.slateResponse.releaseUnits h
    · exact h

theorem execEraseResume_form {l} (h : MemoryForm s) : OutForm (execEraseResume l s) := h.setUnits

theorem execSlateIngressTimeout_form (h : MemoryForm s) : OutForm (execSlateIngressTimeout s) := by
  unfold execSlateIngressTimeout
  dsimp only
  apply OutForm.next
  split
  · exact h.flowRequests
  · split
    · exact .ite h.flowRequests.bump.answerTxn h.flowRequests
    · exact h.flowRequests

theorem execPageProgramDone_form {l pulses} (h : MemoryForm s) : OutForm (execPageProgramDone l pulses s) := by
  unfold execPageProgramDone
  apply OutForm.next
  split
  · exact h
  · exact (MemoryForm.ite h.setKind h.failPage).notePulses.setUnits.unitEnds.releaseUnits

theorem execBlockEraseDone_form {l pulses badSpares} (h : MemoryForm s) :
    OutForm (execBlockEraseDone l pulses badSpares s) := by
  unfold execBlockEraseDone
  apply OutForm.next
  split
  · exact h
  · exact h.setUnits.eraseEnds.unitEnds.releaseUnits

theorem endPatrol (h : MemoryForm s) : MemoryForm s.endPatrol := h.put.bump

theorem execPatrolRead_form {flips} (h : MemoryForm s) : OutForm (execPatrolRead flips s) := by
  unfold execPatrolRead
  dsimp only
  apply OutForm.next
  split
  · exact h
  · split
    · exact h.endPatrol
    · exact .ite h (.ite h.suspendBank.readPage.noteRead.endPatrol h.suspendBank.readPage.noteRead.put)

theorem settingsReady (h : MemoryForm s) : MemoryForm s.settingsReady := .ite h.put h.put.logEvent

theorem execIndexRebuild_form (h : MemoryForm s) : OutForm (execIndexRebuild s) :=
  .next (.ite h (.ite h.withJournal h.withJournal.settingsReady))

theorem execCheckpoint_form {fails0 fails1} (h : MemoryForm s) : OutForm (execCheckpoint fails0 fails1 s) :=
  .next (.ite h (.ite h.refuseEnergy (.ite h (.ite h.writeBoth.settingsReady h.writeBoth))))

theorem execJournalEraseAhead_form {c} (h : MemoryForm s) : OutForm (execJournalEraseAhead c s) :=
  .next (.ite h (.ite h.refuseEnergy h.admitOp.startErase))

theorem failArchive (h : MemoryForm s) : MemoryForm s.failArchive := h.failPage.withJournal

theorem execArchiveWrite_form {failed} (h : MemoryForm s) : OutForm (execArchiveWrite failed s) := by
  unfold execArchiveWrite
  apply OutForm.next
  split
  · exact h
  · split
    · exact .ite h.refuseEnergy h.admitOp.startErase
    · exact .ite h (.ite h.refuseEnergy (.ite h.failArchive h.writeArchivePage))

theorem execExtentErase_form {x} (h : MemoryForm s) : OutForm (execExtentErase x s) :=
  .next (.ite h (.ite h.refuseEnergy h.admitOp.startErase))

/-! ## Commands: settings -/

theorem replyItem {m p v pending unreadable} (h : MemoryForm s) :
    MemoryForm (s.replyItem m p v pending unreadable) :=
  .ite h.reply (.ite h.useBank.reply (.ite h.reply h.writeBankBytes.reply))

theorem execSetRead_form {m unreadable} (h : MemoryForm s) : OutForm (execSetRead m unreadable s) :=
  h.command fun _ => by
    split
    · exact h.reply
    · split
      · exact h.reply
      · split
        · exact h.useBank.reply
        · split
          · exact h.reply
          · exact h.replyItem

theorem replyStage {m c} (h : MemoryForm s) : MemoryForm (s.replyStage m c) := h.stage.reply

theorem execSetWrite_form {m} (h : MemoryForm s) : OutForm (execSetWrite m s) :=
  h.command fun _ => by
    dsimp only
    split
    · exact h.reply
    · split
      · exact h.reply
      · split
        · exact h.useBank.reply
        · split
          · exact h.useBank
          · split
            · exact .reply (.ofFst h.useBank.readBankBytes ‹_›)
            · exact .replyStage (.ofFst h.useBank.readBankBytes ‹_›)

theorem execSetDelete_form {m} (h : MemoryForm s) : OutForm (execSetDelete m s) :=
  h.command fun _ => .ite h.reply (.ite h.reply (.ite h h.replyStage))

theorem execSetCommit_form {m fails0 fails1} (h : MemoryForm s) : OutForm (execSetCommit m fails0 fails1 s) :=
  h.command fun _ => .ite h.reply (.ite h.reply (.ite h.reply (.ite h.replyEnergyRefused (.ite h.setRunning
      h.commitOwner.reply))))

theorem execSetList_form {m} (h : MemoryForm s) : OutForm (execSetList m s) :=
  h.command fun _ => .ite h.reply (.ite h.reply h.reply)

theorem checkPages {l times flips ps} (h : MemoryForm s) : MemoryForm (s.checkPages l times flips ps).1 := by
  induction ps generalizing s with
  | nil => exact h
  | cons page ps ih => exact ih h.readTimes

theorem execPageStability_form {m flips} (h : MemoryForm s) : OutForm (execPageStability m flips s) :=
  h.command fun _ => .ite h.reply (.ite h.reply (.ite h.reply (.ite h ((MemoryForm.ite
      h.suspendBank.checkPages.putFlag h.suspendBank.checkPages).reply))))

theorem execUsrWrite_form {m} (h : MemoryForm s) : OutForm (execUsrWrite m s) :=
  h.command fun _ => .ite h.reply (.ite h.reply (.ite h (.ite h.reply (.ite h.reply (.ite h.reply h.startWrite)))))

theorem execUsrErase_form {m} (h : MemoryForm s) : OutForm (execUsrErase m s) :=
  h.command fun _ => .ite h.reply (.ite h.reply (.ite h.reply (.ite h (.ite h.replyEnergyRefused
      h.admitOp.unitErase))))

theorem execUsrExtentSet_form {m fails0 fails1} (h : MemoryForm s) : OutForm (execUsrExtentSet m fails0 fails1 s) :=
  h.command fun _ => .ite h.reply h.replyJournal

/-! ## Commands: the Spine -/

theorem execRegisterWrite_form {who off wide data} (h : MemoryForm s) :
    OutForm (execRegisterWrite who off wide data s) :=
  h.access

theorem execLatchingRead_form {who off wide} (h : MemoryForm s) : OutForm (execLatchingRead who off wide s) :=
  h.access

theorem execRequestSubmit_form {who kind addr beats} (h : MemoryForm s) :
    OutForm (execRequestSubmit who kind addr beats s) := by
  unfold execRequestSubmit
  split
  · exact h
  · split
    · exact h
    · exact h
    · exact .ite h h.submit
    · split
      · exact h
      · exact .ite h.transferIni h
    · exact h.submit

theorem execCreditGrant_form {t} (h : MemoryForm s) : OutForm (execCreditGrant t s) := .ite h.grantCredit h

theorem execSpineRequest_form {t} (h : MemoryForm s) : OutForm (execSpineRequest t s) := by
  unfold execSpineRequest
  dsimp only
  split
  · exact h.flowRequests
  · split
    · exact h.flowRequests.admitTxn
    · exact h.flowRequests

theorem execFlush_form {t} (h : MemoryForm s) : OutForm (execFlush t s) := by
  unfold execFlush
  dsimp only
  split
  · exact h.flowRequests
  · split
    · exact h.flowRequests.answerTxn
    · exact h.flowRequests

theorem execResponseArrival_form {port tag} (h : MemoryForm s) : OutForm (execResponseArrival port tag s) := by
  unfold execResponseArrival
  dsimp only
  split
  · exact .ite h.flowResponses.arrive h.flowResponses
  · exact h.flowResponses

theorem execRequesterTimeout_form {id} (h : MemoryForm s) : OutForm (execRequesterTimeout id s) := by
  unfold execRequesterTimeout
  split
  · exact .ite h.expire h
  · exact h

theorem execIniReq_form {p dtag write addr offered} (h : MemoryForm s) :
    OutForm (execIniReq p dtag write addr offered s) := by
  unfold execIniReq
  split
  · exact h
  · split
    · exact h
    · exact h.transferIni

theorem transferAnswer {p t rest bs last} (h : MemoryForm s) : MemoryForm (s.transferAnswer p t rest bs last) :=
  .ite (.ite h.putPort.designAnswer h) (.ite h h.putPort)

theorem execTgtRsp_form {p code offered} (h : MemoryForm s) : OutForm (execTgtRsp p code offered s) := by
  unfold execTgtRsp
  dsimp only
  split
  · exact h
  · split
    · exact h.bump
    · split
      · exact h
      · exact .next (.ite h.putPort h)
      · split
        · exact .next (.ite h.putPort h)
        · exact h.transferAnswer

theorem execTargetResponseTimeout_form {p} (h : MemoryForm s) : OutForm (execTargetResponseTimeout p s) := by
  unfold execTargetResponseTimeout
  dsimp only
  split
  · exact h
  · split
    · exact h
    · split
      · exact h
      · exact h.putPort.bump.answerTxn

theorem execIngressWaitTimeout_form {p} (h : MemoryForm s) : OutForm (execIngressWaitTimeout p s) := by
  unfold execIngressWaitTimeout
  dsimp only
  split
  · exact h.flowRequests
  · exact .ite h.flowRequests.bump.answerTxn h.flowRequests

theorem execResyncAck_form {p} (h : MemoryForm s) : OutForm (execResyncAck p s) := .ite h.putPort h

theorem execChannelReopen_form {c} (h : MemoryForm s) : OutForm (execChannelReopen c s) := .ite h.putChannel h

theorem execStallDetect_form {stalled} (h : MemoryForm s) : OutForm (execStallDetect stalled s) := by
  unfold execStallDetect
  extract_lets s1
  have h1 : MemoryForm s1 := by
    dsimp only [s1]
    split
    · exact h.flowRequests
    · exact h
  exact .ite h1.stall.huStall h1

theorem execSpnFairClr_form {who} (h : MemoryForm s) : OutForm (execSpnFairClr who s) := h.writeAs

theorem execSpnStallInject_form {who node input plane} (h : MemoryForm s) :
    OutForm (execSpnStallInject who node input plane s) :=
  h.writeAs

/-! ## Commands: tests -/

theorem execBstSlice_form {m} (h : MemoryForm s) : OutForm (execBstSlice m s) :=
  h.command fun _ => .ite h.reply (.ite h.reply (.ite h.reply (.ite h.reply (.ite h.replyEnergyRefused
      h.admitOp.await))))

theorem execSlicePage_form {g found} (h : MemoryForm s) : OutForm (execSlicePage g found s) := .ite h h.sliceUnit

theorem readList {addr n} (h : MemoryForm s) : MemoryForm (s.readList addr n).1 := by
  unfold State.readList
  dsimp only
  split
  · exact (.ofFst h.readBankBytes ‹_›)
  · exact (.ofFst h.readBankBytes ‹_›)

theorem acceptProgram {m p program steps force} (h : MemoryForm s) :
    MemoryForm (s.acceptProgram m p program steps force) := by
  unfold State.acceptProgram
  dsimp only
  split
  · exact h.replyEnergyRefused
  · split
    · exact h.replyRefusal
    · exact (MemoryForm.ite h.admitOp h).withTest.await.acceptOff

theorem execBstProgRun_form {m} (h : MemoryForm s) : OutForm (execBstProgRun m s) :=
  h.command fun _ => by
    dsimp only
    split
    · exact h.reply
    · split
      · exact h.reply
      · split
        · exact .ite h.reply h.acceptProgram
        · split
          · exact h.reply
          · split
            · exact h.useBank.reply
            · split
              · exact .reply (.ofFst h.useBank.readList ‹_›)
              · exact .ite (.reply (.ofFst h.useBank.readList ‹_›)) (.acceptProgram (.ofFst h.useBank.readList ‹_›))

theorem afterTest {program} (h : MemoryForm s) : MemoryForm (s.afterTest program) := by
  unfold State.afterTest
  split
  · exact h
  · split
    · exact .ite h.withPower.put h.orderlyOff
    · exact .ite h.startLoads h

theorem execSelftestDone_form {counts fails} (h : MemoryForm s) : OutForm (execSelftestDone counts fails s) := by
  unfold execSelftestDone
  split
  · exact h
  · extract_lets _ _ _ _ _ s3 s4
    have h3 : MemoryForm s3 := .ite h.testBlockSteps.releaseOp.releaseOp.withTest.showTests.logTest.showRecord
        h.testBlockSteps.releaseOp.releaseOp.withTest.showTests.logTest
    have h4 : MemoryForm s4 := .ite h3.putFlag h3
    exact (MemoryForm.ite (h4.forEach fun _ _ h6 => h6.scrubRestart) h4).afterTest

/-! ## Every command -/

theorem exec_form {i} (h : MemoryForm s) : OutForm (exec i s) := by
  unfold exec
  split
  · exact execVinGood_form h
  · exact execTimebaseSwitch_form h
  · exact execImageCheck_form h
  · exact execChunkArrival_form h
  · exact execFrameWrite_form h
  · exact execLoadComplete_form h
  · exact execWipeDone_form h
  · exact execGoldFallback_form h
  · exact execRunEntry_form h
  · exact execPerstRelease_form h
  · exact execLinkUp_form h
  · exact execPerstLow_form h
  · exact execHotReset_form h
  · exact execLinkDown_form h
  · exact execFunctionLevelReset_form h
  · exact execMailboxClearDone_form h
  · exact execLinkPowerState_form h
  · exact execBarTlp_form h
  · exact execSpiRead_form h
  · exact execSpiWriteWord_form h
  · exact execSpiStatus_form h
  · exact execSpiUnknownOperation_form h
  · exact execSpiCsRise_form h
  · exact execMailboxEntryWrite_form h
  · exact execMbxReqTailWrite_form h
  · exact execMbxRspHeadWrite_form h
  · exact execMbxClear_form h
  · exact execPacketStart_form h
  · exact execNop_form h
  · exact execHostAttachGet_form h
  · exact execHostAttachSet_form h
  · exact execRegisterWrite_form h
  · exact execLatchingRead_form h
  · exact execRequestSubmit_form h
  · exact execCreditGrant_form h
  · exact execSpineRequest_form h
  · exact execFlush_form h
  · exact execResponseArrival_form h
  · exact execRequesterTimeout_form h
  · exact execIniReq_form h
  · exact execTgtRsp_form h
  · exact execTargetResponseTimeout_form h
  · exact execIngressWaitTimeout_form h
  · exact execResyncAck_form h
  · exact execChannelReopen_form h
  · exact execStallDetect_form h
  · exact execSpineRateMeasure_form h
  · exact execMarginProbe_form h
  · exact execSpnFairClr_form h
  · exact execSpnStallInject_form h
  · exact execBnkOwnerHandover_form h
  · exact execAttRegionParentHandover_form h
  · exact execAttGroupParentHandover_form h
  · exact execClearOnHandover_form h
  · exact execOwnRead_form h
  · exact execOwnHandover_form h
  · exact execOwnRecordGet_form h
  · exact execOwnRecordSet_form h
  · exact execBankRead_form h
  · exact execBankWrite_form h
  · exact execScrubStep_form h
  · exact execScrubPassOverdue_form h
  · exact execBankClear_form h
  · exact execBankClearDone_form h
  · exact execBnkInject_form h
  · exact execBnkParkWrite_form h
  · exact execSlicePage_form h
  · exact execDmaDoorbell_form h
  · exact execRingEnable_form h
  · exact execRingDisable_form h
  · exact execRingHalt_form h
  · exact execRingResume_form h
  · exact execDmaIssue_form h
  · exact execDescriptorStart_form h
  · exact execChainNext_form h
  · exact execCompletionWrite_form h
  · exact execMsixSend_form h
  · exact execAttKeyChange_form h
  · exact execAttMapWrite_form h
  · exact execAttSweep_form h
  · exact execSlateRead_form h
  · exact execEraseResume_form h
  · exact execSlateIngressTimeout_form h
  · exact execPageProgramDone_form h
  · exact execBlockEraseDone_form h
  · exact execPatrolRead_form h
  · exact execCheckpoint_form h
  · exact execJournalEraseAhead_form h
  · exact execIndexRebuild_form h
  · exact execArchiveWrite_form h
  · exact execExtentErase_form h
  · exact execSetRead_form h
  · exact execSetWrite_form h
  · exact execSetDelete_form h
  · exact execSetCommit_form h
  · exact execSetList_form h
  · exact execPageStability_form h
  · exact execUsrWrite_form h
  · exact execUsrErase_form h
  · exact execUsrExtentSet_form h
  · exact execLedgerSample_form h
  · exact execCapacitanceMeasurement_form h
  · exact execExtHoldChargeTimeout_form h
  · exact execReserveShort_form h
  · exact execReserveShortClear_form h
  · exact execHoldupEntry_form h
  · exact execHoldupRound_form h
  · exact execHoldupOff_form h
  · exact execVinReturn_form h
  · exact execNrgQuery_form h
  · exact execNrgSnapshotRead_form h
  · exact execNrgCapMeasure_form h
  · exact execPwrDoze_form h
  · exact execDozeEntryComplete_form h
  · exact execDozeWake_form h
  · exact execDozeExit_form h
  · exact execPwrRegion_form h
  · exact execPwrBankGroup_form h
  · exact execPwrQuad_form h
  · exact execDevShutdown_form h
  · exact execDevReboot_form h
  · exact execOrderlyCommit_form h
  · exact execRestart_form h
  · exact execVinOff_form h
  · exact execNresetIn_form h
  · exact execPllApply_form h
  · exact execReferenceWindow_form h
  · exact execPllLock_form h
  · exact execPllQualified_form h
  · exact execPllLoss_form h
  · exact execPllSet_form h
  · exact execPllSetTimeout_form h
  · exact execPllBootSet_form h
  · exact execPllBandLoad_form h
  · exact execTmbSample_form h
  · exact execAlarmArm_form h
  · exact execAlarmDisarm_form h
  · exact execAlarmFire_form h
  · exact execClrUncert_form h
  · exact execLcPllApply_form h
  · exact execLcPllLoss_form h
  · exact execLcPllLock_form h
  · exact execLaneConfiguration_form h
  · exact execCdrLock_form h
  · exact execAlignment_form h
  · exact execAdaptation_form h
  · exact execTxUnderrun_form h
  · exact execRxOverflow_form h
  · exact execRecoveredClockStart_form h
  · exact execEyeScanStart_form h
  · exact execEyeScanDone_form h
  · exact execReferenceOscillatorWindow_form h
  · exact execCorrectionHoldExpiry_form h
  · exact execSlateReadReferenceWindow_form h
  · exact execEnergyMeterWindow_form h
  · exact execThermalWindow_form h
  · exact execThermalSample_form h
  · exact execCalInject_form h
  · exact execLockstepMismatch_form h
  · exact execSafReq_form h
  · exact execSafEnter_form h
  · exact execSafCfgCritWrite_form h
  · exact execSafPllCritWrite_form h
  · exact execSafIoCritWrite_form h
  · exact execSafInject_form h
  · exact execEventLogEntry_form h
  · exact execScrubCompare_form h
  · exact execScrubRepair_form h
  · exact execCfgScrubInject_form h
  · exact execScrubQuery_form h
  · exact execLdReload_form h
  · exact execReloadFence_form h
  · exact execImgDirRead_form h
  · exact execImgAlloc_form h
  · exact execImgWrite_form h
  · exact execImgCommit_form h
  · exact execImgSetState_form h
  · exact execImgSelect_form h
  · exact execImgRegionSelect_form h
  · exact execBstSlice_form h
  · exact execBstProgRun_form h
  · exact execSelftestDone_form h
  · exact execLcAdvance_form h
  · exact execLcKeySet_form h
  · exact execLcRevoke_form h
  · exact execLcImageKeySet_form h
  · exact execLcGoldWrite_form h
  · exact execLcGoldCommit_form h
  · exact execTestLogicReset_form h
  · exact execExtest_form h
  · exact execSamplePreload_form h
  · exact execIdcode_form h
  · exact execClamp_form h
  · exact execHighz_form h
  · exact execExtestPulse_form h
  · exact execExtestTrain_form h
  · exact execBypass_form h
  · exact execJtagReg_form h
  · exact execJtagLoad_form h
  · exact execOutputShort_form h
  · exact execGioRearm_form h
  · exact execFieldOvercurrent_form h
  · exact execGroupOverload_form h
  · exact execInrushWindowEnd_form h
  · exact execFioRearm_form h
  · exact execFieldInputChange_form h
  · exact execWireBreak_form h
  · exact execOpenLoadTest_form h
  · exact execOpenLoad_form h
  · exact execVfieldGood_form h
  · exact execVfieldUndervoltage_form h
  · exact execVfieldReversal_form h
  · exact execPcieCompletion_form h
  · exact execPcieCompletionTimeout_form h
  · exact execRetentionLoss_form h
  · exact execCdrLockLoss_form h
  · exact execAlignmentLoss_form h
  · exact execFabricClockEdge_form h

/-! ## The step -/

theorem step_form (h : MemoryForm s) : OutForm (step s) := by
  unfold step
  split
  · exact h.idle
  · exact exec_form h.withPending

end MemoryForm

/-- Settles O57: `MemoryForm.step_form`, which goes through every command's meaning (`MemoryForm.exec_form`). -/
theorem memoriesKeepTheirForm : Obligations.MemoriesKeepTheirForm := by
  unfold Obligations.MemoriesKeepTheirForm
  intro s t hs hst
  have ht : OutForm (step s) := hs.step_form
  rw [show step s = .next t from hst] at ht
  exact ht

end Sys2Proof.Machine
end

section
/-! DMA (10 R285 to R287, R290, R297, R301, R302, R306, R307, R311): the settings and the registers of a ring as their
writers set them, and the steps of the engine. -/

namespace Sys2Proof.Machine

/-! ## The settings (R311) -/

/-- Outside SAFE a write that its port issues reaches every register. -/
theorem RegisterOpen.of_not_safe {s : State} {who : Requester} (r : Reg) (hp : s.mode ≠ .off) (hs : s.mode ≠ .safe)
    (hi : WriteIssues s who) : RegisterOpen s who r :=
  ⟨hp, hi, fun h => absurd h hs⟩

/-- A field below the lowest `n` bits of a word is read from those bits. -/
theorem bitsOf_mod {lo w n : Nat} (v : Nat) (h : lo + w ≤ n) : bitsOf (v % 2 ^ n) lo w = v / 2 ^ lo % 2 ^ w := by
  obtain ⟨k, rfl⟩ := Nat.exists_eq_add_of_le h
  rw [bitsOf, Nat.pow_add, Nat.pow_add, Nat.mul_assoc, Nat.mod_mul_right_div_self, Nat.mod_mul_right_mod]

theorem bitsOf_low_mod {w n : Nat} (v : Nat) (h : w ≤ n) : bitsOf (v % 2 ^ n) 0 w = v % 2 ^ w := by
  rw [bitsOf_mod v (by omega), Nat.pow_zero, Nat.div_one]

section
variable {s : State} {o v : Nat}

theorem writeDmaTimeout_took (ho : s.maintains o = true) (hv : 10 ≤ bitsOf v 0 14 ∧ bitsOf v 0 14 ≤ 10000) :
    s.writeDmaTimeout o v = .took (s.put .DMA_TIMEOUT_TIMEOUT_US (bitsOf v 0 14)) := by
  simp [State.writeDmaTimeout, ho, Nat.not_lt.2 hv.1, Nat.not_lt.2 hv.2]

theorem writeDmaTimeout_rejected (ho : s.maintains o = true) (hv : bitsOf v 0 14 < 10 ∨ 10000 < bitsOf v 0 14) :
    s.writeDmaTimeout o v = .rejected s := by
  simp [State.writeDmaTimeout, ho, hv]

theorem writeDmaTimeout_notOwner (v : Nat) (ho : s.maintains o = false) : s.writeDmaTimeout o v = .notOwner s := by
  simp [State.writeDmaTimeout, ho]

theorem writeGroupCfg_took (g : Nat) (ho : s.maintains o = true) (hv : 1 ≤ bitsOf v 4 12 ∧ bitsOf v 4 12 ≤ 2048) :
    s.writeGroupCfg g o v =
      .took ((s.put .DMA_GROUP_CFG_WEIGHT (bitsOf v 0 4) g).put .DMA_GROUP_CFG_TAG_CAP (bitsOf v 4 12) g) := by
  have hlow : bitsOf v 4 12 ≠ 0 := Nat.ne_of_gt hv.1
  simp [State.writeGroupCfg, ho, hlow, Nat.not_lt.2 hv.2]

theorem writeGroupCfg_rejected (g : Nat) (ho : s.maintains o = true)
    (hv : bitsOf v 4 12 < 1 ∨ 2048 < bitsOf v 4 12) : s.writeGroupCfg g o v = .rejected s := by
  have hbad : bitsOf v 4 12 = 0 ∨ 2048 < bitsOf v 4 12 := by simpa using hv
  simp [State.writeGroupCfg, ho, hbad]

theorem writeGroupCfg_notOwner (g v : Nat) (ho : s.maintains o = false) : s.writeGroupCfg g o v = .notOwner s := by
  simp [State.writeGroupCfg, ho]

end

/-- Settles O51: each register takes, rejects or refuses the write of its field's value (`writeDmaTimeout_took` and the
like); a rejection or refusal leaves nothing but the answer and, for a value, its capture (`accessAt_rejected`,
`accessAt_notOwner`). In SAFE these two come first by the order of R39. -/
theorem dmaSettingsAreWrittenByTheirOwners : Obligations.DmaSettingsAreWrittenByTheirOwners := by
  unfold Obligations.DmaSettingsAreWrittenByTheirOwners
  refine ⟨?timeout, ?badTimeout, ?group, ?badGroup, ?other⟩
  case timeout =>
    rintro who off data _ s hp hsafe ha hl ho rfl hv hi
    rw [← bitsOf_low_mod (n := 32) data.toNat (by decide)] at hv ⊢
    rw [exec_registerWrite, registerWrite_at s who off data _ 0 ha hl,
      accessAt_took s _ who _ .DMA_TIMEOUT 0 _ (.of_not_safe _ hp hsafe hi) (by decide)
        (writeDmaTimeout_took ((maintains_iff s _).2 ho) hv)]
  case badTimeout =>
    rintro who off data _ s hp ha hl ho rfl hv hi
    rw [← bitsOf_low_mod (n := 32) data.toNat (by decide)] at hv
    rw [exec_registerWrite, registerWrite_at s who off data _ 0 ha hl,
      accessAt_rejected s who _ .DMA_TIMEOUT 0 _ hp hi (by decide)
        (writeDmaTimeout_rejected ((maintains_iff s _).2 ho) hv)]
  case group =>
    rintro who off data g _ s hp hsafe ha hl ho rfl hv hi
    rw [← bitsOf_low_mod (w := 4) (n := 32) data.toNat (by decide)]
    rw [← bitsOf_mod (n := 32) data.toNat (by decide)] at hv ⊢
    rw [exec_registerWrite, registerWrite_at s who off data _ g ha hl,
      accessAt_took s _ who _ .DMA_GROUP_CFG g _ (.of_not_safe _ hp hsafe hi) (by decide)
        (writeGroupCfg_took g ((maintains_iff s _).2 ho) hv)]
  case badGroup =>
    rintro who off data g _ s hp ha hl ho rfl hv hi
    rw [← bitsOf_mod (n := 32) data.toNat (by decide)] at hv
    rw [exec_registerWrite, registerWrite_at s who off data _ g ha hl,
      accessAt_rejected s who _ .DMA_GROUP_CFG g _ hp hi (by decide)
        (writeGroupCfg_rejected g ((maintains_iff s _).2 ho) hv)]
  case other =>
    rintro who off data _ g s hp ha hl hr h1 h14 had hi
    have hno : s.maintains who.owner = false := (maintains_eq_false_iff s _).2 ⟨h1, h14, had⟩
    rw [exec_registerWrite, registerWrite_at s who off data _ g ha hl]
    obtain rfl | rfl := hr
    · rw [accessAt_notOwner s who _ .DMA_TIMEOUT g _ hp hi (by decide) (writeDmaTimeout_notOwner _ hno)]
    · rw [accessAt_notOwner s who _ .DMA_GROUP_CFG g _ hp hi (by decide) (writeGroupCfg_notOwner g _ hno)]

/-! ## The doorbell (R285, R286) -/

theorem exec_dmaDoorbell (who : Requester) (r : Fin 8192) (tail : BitVec 32) (s : State) :
    exec (.dmaDoorbell who r tail) s = .next (s.writeAs who .DMA_RING_TAIL r tail) := rfl

/-- Who rings the doorbell of R286: a writer of the ring, or the family of the group's parent. -/
theorem ringsDoorbell_iff (s : State) (r o : Nat) :
    (s.writesRing r o || (s.top (ringOwner r) != 0 && s.top o == s.top (ringOwner r))) = true ↔
      s.writesRing r o = true ∨ (s.top (ringOwner r) ≠ 0 ∧ s.top o = s.top (ringOwner r)) := by
  simp

theorem writeRingTail_took {s : State} {r o v : Nat}
    (ho : s.writesRing r o = true ∨ (s.top (ringOwner r) ≠ 0 ∧ s.top o = s.top (ringOwner r)))
    (hon : s.ringState r ≠ 0) (hroom : (v + 2 ^ 32 - s.get .DMA_RING_HEAD_HEAD r) % 2 ^ 32 ≤ s.ringSize r)
    (hkeep : s.ringOccupancy r ≤ (v + 2 ^ 32 - s.get .DMA_RING_HEAD_HEAD r) % 2 ^ 32) :
    s.writeRingTail r o v = .took ((s.put .DMA_RING_TAIL_TAIL v r).wake 1 r) := by
  simp only [State.writeRingTail, (ringsDoorbell_iff s r o).2 ho]
  simpa [hon] using And.intro hroom hkeep

/-! ## The control word of a ring (R287) -/

section
variable (enable halt resume : Bool) {size vector : Nat} (hsize : size < 32) (hvector : vector < 2048)
include hsize hvector

theorem ringCtl_toNat : (ringCtl enable halt resume size vector).toNat =
    enable.toNat + 2 * halt.toNat + 4 * resume.toNat + 2 ^ 8 * size + 2 ^ 16 * vector := by
  have henable := enable.toNat_lt
  have hhalt := halt.toNat_lt
  have hresume := resume.toNat_lt
  simp only [ringCtl, BitVec.toNat_ofNat]
  omega

theorem ringCtl_enable : (ringCtl enable halt resume size vector).toNat.testBit 0 = enable :=
  testBit_of_fields (low := 0) (halt.toNat + 2 * resume.toNat + 2 ^ 7 * size + 2 ^ 15 * vector) (by decide)
    (by rw [ringCtl_toNat _ _ _ hsize hvector]; omega)

theorem ringCtl_halt : (ringCtl enable halt resume size vector).toNat.testBit 1 = halt :=
  testBit_of_fields (low := enable.toNat) (resume.toNat + 2 ^ 6 * size + 2 ^ 14 * vector) enable.toNat_lt
    (by rw [ringCtl_toNat _ _ _ hsize hvector]; omega)

theorem ringCtl_resume : (ringCtl enable halt resume size vector).toNat.testBit 2 = resume := by
  have henable := enable.toNat_lt
  have hhalt := halt.toNat_lt
  exact testBit_of_fields (low := enable.toNat + 2 * halt.toNat) (2 ^ 5 * size + 2 ^ 13 * vector) (by omega)
    (by rw [ringCtl_toNat _ _ _ hsize hvector]; omega)

theorem ringCtl_size : bitsOf (ringCtl enable halt resume size vector).toNat 8 5 = size := by
  have henable := enable.toNat_lt
  have hhalt := halt.toNat_lt
  have hresume := resume.toNat_lt
  exact bitsOf_of_fields (low := enable.toNat + 2 * halt.toNat + 4 * resume.toNat) (2 ^ 3 * vector) (by omega) hsize
    (by rw [ringCtl_toNat _ _ _ hsize hvector]; omega)

theorem ringCtl_vector : bitsOf (ringCtl enable halt resume size vector).toNat 16 11 = vector := by
  have henable := enable.toNat_lt
  have hhalt := halt.toNat_lt
  have hresume := resume.toNat_lt
  exact bitsOf_of_fields (low := enable.toNat + 2 * halt.toNat + 4 * resume.toNat + 2 ^ 8 * size) 0 (by omega) hvector
    (by rw [ringCtl_toNat _ _ _ hsize hvector]; omega)

end

/-! ## The writes of the control word (R287) -/

theorem exec_ringEnable (who : Requester) (r : Fin 8192) (size : BitVec 5) (vector : BitVec 11) (s : State) :
    exec (.ringEnable who r size vector) s =
      .next (s.writeAs who .DMA_RING_CTL r (ringCtl true false false size.toNat vector.toNat)) := rfl

theorem exec_ringHalt (who : Requester) (r : Fin 8192) (s : State) :
    exec (.ringHalt who r) s = .next (s.writeCtl who r true true false) := rfl

theorem exec_ringDisable (who : Requester) (r : Fin 8192) (s : State) :
    exec (.ringDisable who r) s = .next (s.writeCtl who r false false false) := rfl

theorem exec_ringResume (who : Requester) (r : Fin 8192) (s : State) :
    exec (.ringResume who r) s = .next (s.writeCtl who r true false true) := rfl

/-- SIZE_LOG2, VECTOR and ENABLE of an accepted control word, stored. -/
def State.storeCtl (s : State) (r : Nat) (enable : Bool) (size vector : Nat) : State :=
  ((s.put .DMA_RING_CTL_SIZE_LOG2 size r).put .DMA_RING_CTL_VECTOR vector r).putFlag .DMA_RING_CTL_ENABLE enable r

/-- What ENABLE 0 → 1 does besides. -/
def State.startRing (s : State) (r : Nat) : State :=
  ((((s.put .DMA_RING_HEAD_HEAD 0 r).put .DMA_RING_TAIL_TAIL 0 r).putRing r { lastIrq := (s.ring r).lastIrq }).put
    .DMA_RING_STAT_STATE 1 r).put .DMA_RING_STAT_HALT_CAUSE 0 r

/-- What ENABLE 1 → 0 does besides. -/
def State.stopRing (s : State) (r : Nat) : State :=
  (s.putRing r { lastIrq := (s.ring r).lastIrq }).put .DMA_RING_STAT_STATE 0 r

/-- What RESUME does besides. -/
def State.resumeRing (s : State) (r : Nat) : State :=
  ((s.putRing r { s.ring r with next := s.get .DMA_RING_HEAD_HEAD r, jobs := [], cut := false, stuck := false }).put
    .DMA_RING_STAT_STATE 1 r).put .DMA_RING_STAT_HALT_CAUSE 0 r

@[simp] theorem ring_put (s : State) (f : Fld) (v i r : Nat) : (s.put f v i).ring r = s.ring r := rfl

@[simp] theorem ring_putFlag (s : State) (f : Fld) (b : Bool) (i r : Nat) : (s.putFlag f b i).ring r = s.ring r := rfl

section
variable {s : State} {r o : Nat}

theorem writeRingCtl_starts {size vector : Nat} (ho : s.writesRing r o = true) (hst : s.ringState r = 0)
    (hv : vector ≠ 0) (hvector : vector < 2048) (hlow : 4 ≤ size) (hhigh : size ≤ 16)
    (hbase : s.get .DMA_RING_BASE_BASE r % 4096 = 0) (hcq : s.get .DMA_RING_CQ_CQ r % 4096 = 0) :
    s.writeRingCtl r o (ringCtl true false false size vector).toNat =
      .took ((s.storeCtl r true size vector).startRing r) := by
  have hsize : size < 32 := by omega
  simp only [State.writeRingCtl, ringCtl_enable _ _ _ hsize hvector, ringCtl_resume _ _ _ hsize hvector,
    ringCtl_size _ _ _ hsize hvector, ringCtl_vector _ _ _ hsize hvector]
  simp [ho, hst, hv, Nat.not_lt.2 hlow, Nat.not_lt.2 hhigh, hbase, hcq, State.storeCtl, State.startRing]

/-- The control word of an enabled ring repeats its size and vector; DISABLE and RESUME want the ring halted. -/
theorem writeRingCtl_repeats {enable halt resume : Bool} (ho : s.writesRing r o = true) (hst : s.ringState r ≠ 0)
    (hv : s.get .DMA_RING_CTL_VECTOR r ≠ 0) (hvector : s.get .DMA_RING_CTL_VECTOR r < 2048)
    (hsize : s.get .DMA_RING_CTL_SIZE_LOG2 r < 32) (hhalted : enable = false ∨ resume = true → s.ringState r = 3)
    (hact : halt = true ∨ enable = false ∨ resume = true) :
    s.writeRingCtl r o
        (ringCtl enable halt resume (s.get .DMA_RING_CTL_SIZE_LOG2 r) (s.get .DMA_RING_CTL_VECTOR r)).toNat =
      .took (let t := s.storeCtl r enable (s.get .DMA_RING_CTL_SIZE_LOG2 r) (s.get .DMA_RING_CTL_VECTOR r)
        if !enable then t.stopRing r else if resume then t.resumeRing r else t.haltRing r 2 false) := by
  simp only [State.writeRingCtl, ringCtl_enable _ _ _ hsize hvector, ringCtl_resume _ _ _ hsize hvector,
    ringCtl_halt _ _ _ hsize hvector, ringCtl_size _ _ _ hsize hvector, ringCtl_vector _ _ _ hsize hvector]
  cases enable with
  | false => simp [ho, hv, hhalted, State.storeCtl, State.stopRing]
  | true =>
    cases resume with
    | true => simp [ho, hv, hhalted, State.storeCtl, State.resumeRing]
    | false =>
      obtain rfl : halt = true := by simpa using hact
      simp [ho, hv, hst, State.storeCtl]

end

theorem writeCtl_took {s t : State} {who : Requester} {r : Nat} {enable halt resume : Bool}
    (h : RegisterOpen s who .DMA_RING_CTL) (hw : s.writeRingCtl r who.owner
      (ringCtl enable halt resume (s.get .DMA_RING_CTL_SIZE_LOG2 r) (s.get .DMA_RING_CTL_VECTOR r)).toNat = .took t) :
    s.writeCtl who r enable halt resume = t.acked :=
  writeAs_took s t who .DMA_RING_CTL r _ h (by decide) hw

/-- Settles O19: the doorbell and the control word are taken with their effect (`writeRingTail_took`,
`writeRingCtl_starts`, `writeRingCtl_repeats`), and a write that is taken does nothing else (`writeAs_took`). That HALT,
RESUME and DISABLE keep the size and the vector is log entry 64. -/
theorem ringRegisterWrites : Obligations.RingRegisterWrites := by
  unfold Obligations.RingRegisterWrites
  refine ⟨?doorbell, ?enable, ?halt, ?disable, ?resume⟩
  case doorbell =>
    intro who r tail s hopen ho hon hroom hkeep
    rw [exec_dmaDoorbell, writeAs_took s _ who .DMA_RING_TAIL r _ hopen (by decide)
      (writeRingTail_took ho hon hroom hkeep)]
  case enable =>
    intro who r size vector s hopen ho hst hv hlow hhigh hbase hcq
    have hvector : vector.toNat ≠ 0 := by simpa [← BitVec.toNat_inj] using hv
    rw [exec_ringEnable, writeAs_took s _ who .DMA_RING_CTL r _ hopen (by decide)
      (writeRingCtl_starts ho hst hvector vector.isLt hlow hhigh hbase hcq)]
    rfl
  case halt =>
    intro who r s hopen ho hst hv hvector hsize
    rw [exec_ringHalt, writeCtl_took hopen
      (writeRingCtl_repeats ho (by simp [hst]) hv hvector hsize (by simp) (by simp))]
    rfl
  case disable =>
    intro who r s hopen ho hst hv hvector hsize
    rw [exec_ringDisable, writeCtl_took hopen
      (writeRingCtl_repeats ho (by simp [hst]) hv hvector hsize (fun _ => hst) (by simp))]
    rfl
  case resume =>
    rintro who r _ s hopen ho hst hv hvector hsize rfl
    rw [exec_ringResume, writeCtl_took hopen
      (writeRingCtl_repeats ho (by simp [hst]) hv hvector hsize (fun _ => hst) (by simp))]
    rfl

/-! ## The steps of the engine (R290, R297, R301, R302, R306, R307) -/

theorem exec_dmaIssue (p : Fin 8) (s : State) : exec (.dmaIssue p) s = execDmaIssue p s := rfl

theorem exec_descriptorStart (r : Fin 8192) (ix : Fin 8) (s : State) :
    exec (.descriptorStart r ix) s = execDescriptorStart r ix s := rfl

theorem exec_chainNext (r : Fin 8192) (ix : Fin 8) (s : State) : exec (.chainNext r ix) s = execChainNext r ix s := rfl

theorem exec_completionWrite (r : Fin 8192) (s : State) : exec (.completionWrite r) s = execCompletionWrite r s := rfl

theorem exec_msixSend (r : Fin 8192) (s : State) : exec (.msixSend r) s = execMsixSend r s := rfl

theorem exec_attSweep (s : State) : exec .attSweep s = execAttSweep s := rfl

section
variable {s : State} {r : Fin 8192} {ix : Fin 8} {j : DmaJob}

theorem execAttSweep_sweeps (hp : s.mode ≠ .off) : execAttSweep s = .next s.sweep :=
  if_pos ((coreOn_iff s).2 hp)

section
variable (hrun : s.dmaRuns = true)
include hrun

theorem execDmaIssue_issues (p : Fin 8) : execDmaIssue p s = .next (s.portIssue p) :=
  if_pos hrun

theorem execDescriptorStart_starts {d : Descriptor} (hj : s.job r ix = some j) (hphase : j.phase = .start)
    (hd : j.desc = some d) : execDescriptorStart r ix s = .next (s.startDescriptor r ix j d) := by
  simp only [execDescriptorStart, hj, hphase, hd, if_pos hrun]

theorem execChainNext_continues (hj : s.job r ix = some j) (hphase : j.phase = .ended) :
    execChainNext r ix s = .next ((s.chainNext r ix j).settleRing r) := by
  simp [execChainNext, hj, hrun, hphase]

theorem execCompletionWrite_retires (hj : s.job r 0 = some j) (hphase : j.phase = .acked) :
    execCompletionWrite r s = .next (s.retireSlot r j) := by
  simp [execCompletionWrite, hj, hrun, hphase]

/-- A pending vector falls before its message goes to the host that the ring then has. -/
theorem execMsixSend_sends {k : Nat} {t : State} (hpend : s.flag .DMA_RING_STAT_IRQ_PENDING r = true)
    (hover : s.holdoffOver r = true) (ht : t = s.putFlag .DMA_RING_STAT_IRQ_PENDING false r)
    (hk : t.ringHost r = some k) : execMsixSend r s =
      .next ((t.putRing r { t.ring r with lastIrq := some t.now }).sendMsix k (t.get .DMA_RING_CTL_VECTOR r)) := by
  subst ht
  rw [execMsixSend, if_neg (by simp [hrun, hpend, hover])]
  simp only [hk]

end
end

/-- Settles O20: each step acts when its job or its vector is due (`execDmaIssue_issues` and the like); what it does is
the operation that its rule names (log entries 63, 64 and 66). -/
theorem dmaEngineSteps : Obligations.DmaEngineSteps := by
  unfold Obligations.DmaEngineSteps
  refine ⟨?issue, ?start, ?chain, ?completion, ?vector, ?sweep⟩
  case issue =>
    intro p s hrun
    rw [exec_dmaIssue, execDmaIssue_issues hrun]
  case start =>
    intro r ix j d s hrun hj hphase hd
    rw [exec_descriptorStart, execDescriptorStart_starts hrun hj hphase hd]
  case chain =>
    intro r ix j s hrun hj hphase
    rw [exec_chainNext, execChainNext_continues hrun hj hphase]
  case completion =>
    intro r j s hrun hj hphase
    rw [exec_completionWrite, execCompletionWrite_retires hrun hj hphase]
  case vector =>
    intro r k t s hrun hpend hover ht hk
    rw [exec_msixSend, execMsixSend_sends hrun hpend hover ht hk]
  case sweep =>
    intro s hp
    rw [exec_attSweep, execAttSweep_sweeps hp]

end Sys2Proof.Machine
end

section
/-! The Slate die (11 R312, R320, R329, R333): what a run of keys holds after a list is written to it or the run is
cleared, and from it what the program of a page and the erase of a physical block change and leave alone. -/

namespace Sys2Proof

section
variable {α : Type} {d : α}

/-! ## Runs of keys -/

theorem SMap.look_putList_outside [DecidableEq α] (vs : List α) (m : SMap α) {lo k : Nat}
    (h : k < lo ∨ lo + vs.length ≤ k) : SMap.look d (SMap.putList d m lo vs) k = SMap.look d m k := by
  induction vs generalizing m lo with
  | nil => rfl
  | cons v vs ih =>
    rw [List.length_cons] at h
    rw [SMap.putList, ih _ (by omega), SMap.look_put_ne _ _ _ _ (by omega)]

theorem SMap.look_putList_inside [DecidableEq α] (vs : List α) (m : SMap α) (lo : Nat) (x : α) {i : Nat}
    (h : i < vs.length) : SMap.look d (SMap.putList d m lo vs) (lo + i) = vs.getD i x := by
  induction vs generalizing m lo i with
  | nil => exact absurd h (Nat.not_lt_zero i)
  | cons v vs ih =>
    cases i with
    | zero => exact (SMap.look_putList_outside vs _ (.inl (Nat.lt_succ_self lo))).trans (SMap.look_put_same ..)
    | succ i =>
      have hrest := ih (SMap.put d m lo v) (lo + 1) (Nat.lt_of_succ_lt_succ h)
      rwa [Nat.add_right_comm] at hrest

theorem SMap.look_clearRange_inside (m : SMap α) {lo n k : Nat} (hlow : lo ≤ k) (hhigh : k < lo + n) :
    SMap.look d (m.clearRange lo n) k = d := by
  rw [SMap.clearRange, SMap.look_drop, if_pos (by simp [hlow, hhigh])]

theorem SMap.look_clearRange_outside (m : SMap α) {lo n k : Nat} (h : k < lo ∨ lo + n ≤ k) :
    SMap.look d (m.clearRange lo n) k = SMap.look d m k := by
  rw [SMap.clearRange, SMap.look_drop, if_neg (by simp only [Bool.and_eq_true, decide_eq_true_eq]; omega)]

end

end Sys2Proof

namespace Sys2Proof.Machine

/-! ## The program of a page (R312, R320) -/

@[simp] theorem programPage_regs (s : State) (l page : Nat) (ws : List DWord) : (s.programPage l page ws).regs = s.regs :=
  rfl

theorem programPage_page (s : State) (l page : Nat) (ws : List DWord) :
    (s.programPage l page ws).slate.page = SMap.put .erased s.slate.page (64 * s.physOf l + page) .programmed := rfl

theorem programPage_word (s : State) (l page : Nat) (ws : List DWord) : (s.programPage l page ws).slate.word =
    SMap.putList (BitVec.allOnes 64) s.slate.word (512 * (64 * s.physOf l + page)) ws := rfl

/-! ## The erase of a physical block (R329, R333) -/

@[simp] theorem erasePhys_regs (s : State) (p : Nat) : (s.erasePhys p).regs = s.regs := rfl

theorem erasePhys_page (s : State) (p : Nat) :
    (s.erasePhys p).slate.page = s.slate.page.clearRange (64 * p) 64 := rfl

theorem erasePhys_word (s : State) (p : Nat) :
    (s.erasePhys p).slate.word = s.slate.word.clearRange (32768 * p) 32768 := rfl

theorem blockErases_erasePhys_same (s : State) (p : Nat) :
    (s.erasePhys p).blockErases p = min (s.blockErases p + 1) 0xFFFF_FFFF := SMap.look_put_same ..

theorem blockErases_erasePhys_ne (s : State) {p k : Nat} (h : k ≠ p) :
    (s.erasePhys p).blockErases k = s.blockErases k := SMap.look_put_ne _ _ _ _ h

/-- Settles O55: a program writes one entry of the page kinds and the run of its words, an erase clears the two runs of its
block; what a key in and outside such a run holds is `SMap.look_putList_inside` and the like. -/
theorem slateProgramsAndErasesChangeTheirOwnPages : Obligations.SlateProgramsAndErasesChangeTheirOwnPages := by
  unfold Obligations.SlateProgramsAndErasesChangeTheirOwnPages
  refine ⟨?program, ?erase⟩
  case program =>
    intro s l page ws _ hlen
    simp only [programPage_word, programPage_page]
    refine ⟨fun i hi => ?_, SMap.look_put_same .., fun k hk => ?_, fun k hk => SMap.look_put_ne _ _ _ _ hk,
      programPage_regs ..⟩
    · exact SMap.look_putList_inside ws _ _ _ (by omega)
    · exact SMap.look_putList_outside ws _ (by omega)
  case erase =>
    intro s p
    simp only [erasePhys_word, erasePhys_page]
    exact ⟨fun _ => SMap.look_clearRange_inside _, fun _ => SMap.look_clearRange_inside _,
      fun _ => SMap.look_clearRange_outside _, fun _ => SMap.look_clearRange_outside _, blockErases_erasePhys_same s p,
      fun _ hk => blockErases_erasePhys_ne s hk, erasePhys_regs s p⟩

end Sys2Proof.Machine
end

section
/-! The Slate controller's own steps (11 R316 to R323, R332, R333): a window read that is served or times out, an erase that
resumes, the patrol, and the ends of programs and erases. The rules are stated of the commands' own functions, to which
`exec` comes down by definition. -/

namespace Sys2Proof.Machine

section
variable {s : State}

/-! ## Window reads (R316, R317, R319) -/

theorem execSlateRead_serves {id off : Nat} {t : Txn} (flips : List Nat) (ht : s.takenTxn id = some t)
    (ha : decodeAddr t.addr = some (.slate off)) (hr : t.kind = .read) :
    execSlateRead id flips s = .next (s.slateResponse t off flips).releaseUnits := by
  simp [execSlateRead, ht, ha, hr]

/-- A read that passes the window's checks and finds the queue of its flash bank full is answered TIMEOUT. -/
theorem execSlateIngressTimeout_answers {u : State} {t : Txn} {off : Nat} (hu : s.flowRequests = u)
    (ht : (u.spine.ingress.find? fun x => portOf x.addr == 95) = some t) (ha : decodeAddr t.addr = some (.slate off))
    (hr : t.kind = .read) (hpass : u.slateCheck t.owner off false = .ok)
    (hfull : u.slateQueueFull (u.flashBank (off / 0x4_0000)) = true) :
    execSlateIngressTimeout s = .next ((u.bump .SLT_QUEUE_QFULL_TIMEOUTS).answerTxn t (t.reject .timeout)) := by
  simp [execSlateIngressTimeout, hu, ht, ha, hr, hpass, hfull]

/-! ## The patrol (R332) -/

section
variable (hm : s.mode = .boot ∨ s.mode = .run ∨ s.mode = .safe) (hmap : s.flag .SLT_STAT_MAP_LOADED = true)
include hm hmap

/-- The patrol goes on in BOOT, RUN and SAFE once the block map is loaded. -/
theorem patrol_goes_on : (!(s.mode == .boot || s.mode == .run || s.mode == .safe) || !s.flag .SLT_STAT_MAP_LOADED)
    = false := by
  rcases hm with hm | hm | hm <;> simp [hm, hmap]

theorem execPatrolRead_ends (flips : List Nat)
    (hnone : ((List.range (262144 - s.get .SLT_PATROL_NEXT_PAGE)).map (s.get .SLT_PATROL_NEXT_PAGE + ·)).find?
      s.patrolled = none) : execPatrolRead flips s = .next s.endPatrol := by
  rw [execPatrolRead, patrol_goes_on hm hmap]
  simp only [hnone]
  rfl

/-- The next page of the pass is read once nothing else of its flash bank goes first. -/
theorem execPatrolRead_reads {flips : List Nat} {n : Nat} {t : State} {r : PageRead} {ws : List DWord}
    (hnext : ((List.range (262144 - s.get .SLT_PATROL_NEXT_PAGE)).map (s.get .SLT_PATROL_NEXT_PAGE + ·)).find?
      s.patrolled = some n) (hheld : s.readHeld (s.flashBank (n / 64)) false = false)
    (hwaits : s.readWaits (s.flashBank (n / 64)) = false)
    (hread : (s.suspendBank (s.flashBank (n / 64)) false).readPage (n / 64) (n % 64) flips = (t, r, ws))
    (hlast : n + 1 ≠ 262144) :
    execPatrolRead flips s = .next ((t.noteRead (n / 64) (n % 64) r).put .SLT_PATROL_NEXT_PAGE (n + 1)) := by
  rw [execPatrolRead, patrol_goes_on hm hmap]
  simp only [hnext, hheld, hwaits, hread, if_neg hlast]
  rfl

end

/-! ## The ends of programs and erases (R321, R333, R335) -/

/-- A program ends with its page programmed where it has verified within 31 pulses, and failed where not. -/
theorem execPageProgramDone_ends {l : Fin 4096} {pulses : BitVec 6} {u : FlashUnit} {v : State} {good : Bool}
    (hu : (s.slate.units.find? fun u => !u.erase && u.runs && u.block == l.val) = some u)
    (hgood : decide (pulses.toNat ≤ 31) = good)
    (hv : v = if good then s.setKind u.block u.page .programmed else s.failPage u.block u.page) :
    execPageProgramDone l pulses s = .next
      (((v.notePulses u.block pulses.toNat).setUnits (v.slate.units.erase u)).unitEnds u good).releaseUnits := by
  subst hgood hv
  simp only [execPageProgramDone, hu]

theorem execBlockEraseDone_ends {l : Fin 4096} {pulses : BitVec 4} {bad : Nat} {u : FlashUnit} {t : State}
    (hu : (s.slate.units.find? fun u => u.erase && u.runs && u.block == l.val) = some u)
    (ht : t = (s.setUnits (s.slate.units.erase u)).eraseEnds u.block pulses.toNat bad) :
    execBlockEraseDone l pulses bad s = .next (t.unitEnds u (t.blockState u.block ≠ 2)).releaseUnits := by
  subst ht
  simp only [execBlockEraseDone, hu]

end

/-- Settles O22: a read is served or answered TIMEOUT (`execSlateRead_serves`, `execSlateIngressTimeout_answers`), suspended
erases resume as ERASE_RESUME is defined, and the patrol ends its pass or reads on (`execPatrolRead_ends`,
`execPatrolRead_reads`). That only a read that finds the queue full times out is log entry 67, that its 8 us arrive as the
command entry 10, and the reach of the patrol entry 70. -/
theorem slateReadsAndPatrol : Obligations.SlateReadsAndPatrol := by
  unfold Obligations.SlateReadsAndPatrol
  refine ⟨?read, ?resume, ?timeout, ?passEnds, ?nextPage⟩
  case read =>
    intro id flips t off s ht ha hr
    exact execSlateRead_serves flips ht ha hr
  case resume =>
    intro l s
    rfl
  case timeout =>
    intro u t off s hu ht ha hr hpass hfull
    exact execSlateIngressTimeout_answers hu.symm ht ha hr hpass hfull
  case passEnds =>
    intro flips s hm hmap hnone
    exact execPatrolRead_ends hm hmap flips hnone
  case nextPage =>
    intro flips n t r ws s hm hmap hnext hheld hwaits hread hlast
    exact execPatrolRead_reads hm hmap hnext hheld hwaits hread hlast

/-- Settles O23: both ends of a program are one rule (`execPageProgramDone_ends`), the pulses deciding between them; an
erase ends by `execBlockEraseDone_ends`. -/
theorem programsAndErasesEnd : Obligations.ProgramsAndErasesEnd := by
  unfold Obligations.ProgramsAndErasesEnd
  refine ⟨?verified, ?failed, ?erased⟩
  case verified =>
    intro l pulses u v s hu hp hv
    exact execPageProgramDone_ends hu (decide_eq_true hp) hv
  case failed =>
    intro l pulses u v s hu hp hv
    exact execPageProgramDone_ends hu (decide_eq_false (Nat.not_le.2 hp)) hv
  case erased =>
    intro l pulses bad u t s hu ht
    exact execBlockEraseDone_ends hu ht

end Sys2Proof.Machine
end

section
/-! The MGC's background work on the store (11 R346 to R349): what each of its steps does while such work may start, and
the statement of that upkeep. -/

namespace Sys2Proof.Machine

section
variable {s : State} (hwork : s.storeWork = true)
include hwork

/-! ## The index and checkpoints (R346, R347) -/

theorem execIndexRebuild_builds {t : State} (hi : s.journal.indexed = false)
    (ht : t = { s with journal := { s.journal with indexed := true } }) :
    execIndexRebuild s = .next (if t.copiesDiffer then t else t.settingsReady) := by
  subst ht
  simp [execIndexRebuild, hwork, hi]

theorem execCheckpoint_writes {fails0 fails1 : Nat} {t : State} (hdue : s.checkpointDue = true)
    (hworn : s.journalWorn = false) (hadmits : s.admits 6 = true)
    (hroom : s.roomFor (txnPages s.checkpointChanges + (4095 + s.pendingBytes) / 4096 + 4) (fails0 + fails1) = true)
    (hfree : s.logsFree = true) (ht : t = s.writeBoth 0x01 s.checkpointChanges true fails0 fails1) :
    execCheckpoint fails0 fails1 s = .next (if t.recovering then t.settingsReady else t) := by
  subst ht
  simp [execCheckpoint, hwork, hdue, hworn, hadmits, hroom, hfree]

/-! ## Erases under class 1 (R346, R348, R349) -/

theorem execJournalEraseAhead_erases {c : Fin 2} {l : Nat} (hin : s.copyOut c = false)
    (hfree : (s.copy c).ahead < (s.copy c).free) (hidle : (s.slate.units.any fun u => u.user == .ahead c.val) = false)
    (hadmits : s.admits 1 = true)
    (hl : l = (Partition.settings c.val).base + ((s.copy c).block + 1 + (s.copy c).ahead) % 64) :
    execJournalEraseAhead c s =
      .next ((s.admitOp 1 l).startErase l (.ahead c.val) (some 1) (s.streaming (s.flashBank l))) := by
  subst hl
  rw [execJournalEraseAhead, if_neg (by simp [hwork, hin, hidle, Nat.not_le.2 hfree]), if_neg (by simp [hadmits])]

theorem execArchiveWrite_erases {l : Nat} (failed : Bool) (hlock : s.bit .SLT_PART_LOG_LOCK 0 = false)
    (herase : s.archiveErase = some l) (hadmits : s.admits 1 = true) : execArchiveWrite failed s =
      .next ((s.admitOp 1 l).startErase l .archive (some 1) (s.streaming (s.flashBank l))) := by
  simp [execArchiveWrite, hwork, hlock, herase, hadmits]

theorem execExtentErase_erases {x : Fin 64} {l : Nat} (hleft : SMap.look 0 s.journal.extentLeft x.val ≠ 0)
    (hlock : s.flag .SLT_PART_USER_LOCK = false)
    (hl : l = (Partition.user x.val).base + (32 - SMap.look 0 s.journal.extentLeft x.val))
    (hidle : s.blockBusy l = false) (hadmits : s.admits 1 = true) : execExtentErase x s =
      .next ((s.admitOp 1 l).startErase l (.extent x.val) (some 1) (s.streaming (s.flashBank l))) := by
  subst hl
  simp [execExtentErase, hwork, hleft, hlock, hidle, hadmits]

/-! ## The archive's pages (R349) -/

theorem execArchiveWrite_writes (failed : Bool) (hlock : s.bit .SLT_PART_LOG_LOCK 0 = false)
    (herase : s.archiveErase = none) (hdue : 1024 ≤ s.unarchived.length) (hready : s.archiveReady = true)
    (hfree : s.archiveFree = true) (hadmits : s.admits 0 = true) :
    execArchiveWrite failed s = .next (if failed then s.failArchive else s.writeArchivePage) := by
  simp [execArchiveWrite, hwork, hlock, herase, Nat.not_lt.2 hdue, hready, hfree, hadmits]

end

/-- Settles O24: while background work may start, each step whose conditions hold does its part
(`execCheckpoint_writes`, `execJournalEraseAhead_erases` and the like). That blocks are erased ahead while any free block
remains, that the work waits for an orderly OFF to be over, and that the archive's erase goes before its page are log
entries 70 and 71. -/
theorem journalUpkeep : Obligations.JournalUpkeep := by
  unfold Obligations.JournalUpkeep
  refine ⟨?index, ?checkpoint, ?ahead, ?archivePage, ?archiveErase, ?extent⟩
  case index =>
    intro t s hwork hi ht
    exact execIndexRebuild_builds hwork hi ht
  case checkpoint =>
    intro f0 f1 s hwork hdue hworn hadmits hroom hfree
    exact execCheckpoint_writes hwork hdue hworn hadmits hroom hfree rfl
  case ahead =>
    intro c l s hwork hin hfree hidle hadmits hl
    exact execJournalEraseAhead_erases hwork hin hfree hidle hadmits hl
  case archivePage =>
    intro failed s hwork hlock herase hdue hready hfree hadmits
    exact execArchiveWrite_writes hwork failed hlock herase hdue hready hfree hadmits
  case archiveErase =>
    intro failed l s hwork hlock herase hadmits
    exact execArchiveWrite_erases hwork failed hlock herase hadmits
  case extent =>
    intro x l s hwork hleft hlock hl hidle hadmits
    exact execExtentErase_erases hwork hleft hlock hl hidle hadmits

end Sys2Proof.Machine
end

section
/-! The settings commands (11 R339 to R344, R350 to R352): what each command that runs does with the sender's items once
recovery is over, and the statement of their replies. -/

namespace Sys2Proof.Machine

/-! ## Replies -/

/-- An item that fits is written to the sender's bank unless it can be read from neither copy. -/
theorem replyItem_ok {s : State} {m : Nat} {p : Packet} {v : List Byte} {pending bad : Bool} (hfits : v.length ≤ p.p 1)
    (hbank : (s.useBank (mailOwner m) (p.p64 2) v.length).2 = St.ok) (hbad : (bad && !pending) = false) :
    s.replyItem m p v pending bad = (s.writeBankBytes (p.p64 2) v).reply m St.ok
      [BitVec.ofNat 32 v.length, BitVec.ofNat 32 (1 + 2 * pending.toNat)] := by
  simp [State.replyItem, Nat.not_lt.2 hfits, hbank, hbad]

theorem replyStage_ok {t u : State} {c : Change} (m : Nat) (hc : t.stage c = (St.ok, u)) :
    t.replyStage m c = u.reply m St.ok [BitVec.ofNat 32 u.pendingBytes] := by
  simp [State.replyStage, hc]

section
variable {s : State} {m : Fin 5} {p : Packet} (hready : s.recovering = false)
include hready

/-! ## SET_READ (R340, R351) -/

section
variable (hc : CommandRuns s m 0x20 p) (hid : p.p 0 < 65536)
  (huse : (s.useBank (mailOwner m) (p.p64 2) 0).2 = St.ok)
include hc hid huse

theorem execSetRead_found {bad pending : Bool} {v : List Byte}
    (hitem : s.itemValue (s.itemOwner p) (p.p 0) = (some v, pending)) (hfits : v.length ≤ p.p 1)
    (hbank : (s.useBank (mailOwner m) (p.p64 2) v.length).2 = St.ok) (hbad : (bad && !pending) = false) :
    execSetRead m bad s = .next ((s.writeBankBytes (p.p64 2) v).reply m St.ok
      [BitVec.ofNat 32 v.length, BitVec.ofNat 32 (1 + 2 * pending.toNat)]) := by
  rw [execSetRead, command_runs s m 0x20 p _ hc]
  simp [hready, Nat.not_le.2 hid, huse, hitem, replyItem_ok hfits hbank hbad]

theorem execSetRead_missing {x : Bool} (bad : Bool) (hitem : s.itemValue (s.itemOwner p) (p.p 0) = (none, x)) :
    execSetRead m bad s = .next (s.reply m St.ok [0, 0]) := by
  rw [execSetRead, command_runs s m 0x20 p _ hc]
  simp [hready, Nat.not_le.2 hid, huse, hitem]

end

/-! ## SET_WRITE and SET_DELETE (R340, R350, R351) -/

theorem execSetWrite_stages {w t u : State} {v : List Byte} (hc : CommandRuns s m 0x21 p) (hid : p.p 0 < 65536)
    (hlen : p.p 1 < 65536) (huse : s.useBank (mailOwner m) (p.p64 2) (p.p 1) = (w, St.ok))
    (hidle : w.committing m (w.itemOwner p) = false) (hread : w.readBankBytes (p.p64 2) (p.p 1) = (t, some v))
    (hstage : t.stage { owner := w.itemOwner p, id := p.p 0, value := some v } = (St.ok, u)) :
    execSetWrite m s = .next (u.reply m St.ok [BitVec.ofNat 32 u.pendingBytes]) := by
  rw [execSetWrite, command_runs s m 0x21 p _ hc]
  simp [hready, Nat.not_le.2 hid, Nat.not_le.2 hlen, huse, hidle, hread, replyStage_ok m hstage]

theorem execSetDelete_stages {u : State} (hc : CommandRuns s m 0x22 p) (hid : p.p 0 < 65536)
    (hidle : s.committing m (s.itemOwner p) = false)
    (hstage : s.stage { owner := s.itemOwner p, id := p.p 0, value := none } = (St.ok, u)) :
    execSetDelete m s = .next (u.reply m St.ok [BitVec.ofNat 32 u.pendingBytes]) := by
  rw [execSetDelete, command_runs s m 0x22 p _ hc]
  simp [hready, Nat.not_le.2 hid, hidle, replyStage_ok m hstage]

/-! ## SET_COMMIT (R341, R346) -/

theorem execSetCommit_empty (fails0 fails1 : Nat) (hc : CommandRuns s m 0x23 p) (hnone : s.stagedOf (s.itemOwner p) = []) :
    execSetCommit m fails0 fails1 s = .next (s.reply m St.ok (twoWords (s.get .SLT_SET_SEQ_SEQ))) := by
  rw [execSetCommit, command_runs s m 0x23 p _ hc]
  simp [hready, hnone]

/-- Staged changes of sound copies are committed once both have room and their flash banks are free; till then the
command waits. -/
theorem execSetCommit_staged (fails0 fails1 : Nat) (hc : CommandRuns s m 0x23 p)
    (hsome : s.stagedOf (s.itemOwner p) ≠ []) (hworn : s.journalWorn = false) (hadmits : s.admits 6 = true) :
    execSetCommit m fails0 fails1 s = .next (
      if (s.roomFor (txnPages (s.stagedOf (s.itemOwner p)) + 4) (fails0 + fails1) && s.logsFree) = true then
        (s.commitOwner (s.itemOwner p) fails0 fails1).reply m St.ok
          (twoWords ((s.commitOwner (s.itemOwner p) fails0 fails1).get .SLT_SET_SEQ_SEQ))
      else s.setRunning m (some { p with progress := 1 })) := by
  rw [execSetCommit, command_runs s m 0x23 p _ hc]
  simp only [hready, List.isEmpty_eq_false_iff.2 hsome, hworn, hadmits]
  cases s.roomFor (txnPages (s.stagedOf (s.itemOwner p)) + 4) (fails0 + fails1) && s.logsFree <;> rfl

/-! ## SET_LIST (R352) -/

theorem execSetList_lists {l : List (Nat × Nat)} (hc : CommandRuns s m 0x24 p) (hid : p.p 0 < 65536)
    (hl : l = (s.itemList (s.itemOwner p)).filter fun i => decide (p.p 0 ≤ i.1)) :
    execSetList m s = .next (s.reply m St.ok (BitVec.ofNat 32 ((l.take 200).length + 256 *
      (decide (200 < l.length)).toNat) :: (l.take 200).map fun i => BitVec.ofNat 32 (i.1 + 65536 * i.2))) := by
  subst hl
  rw [execSetList, command_runs s m 0x24 p _ hc]
  simp only [hready, if_neg (Nat.not_le.2 hid)]
  rfl

end

/-- Settles O25: each command that runs (`command_runs`) acts on the items as its row says; SET_COMMIT commits or waits by
one rule (`execSetCommit_staged`). That it writes both copies in one step, that a staged deletion reads as not found, and
that SET_LIST shows what the next commit would leave are log entry 72. -/
theorem settingsCommandsReply : Obligations.SettingsCommandsReply := by
  unfold Obligations.SettingsCommandsReply
  refine ⟨?readFound, ?readMissing, ?write, ?delete, ?commit, ?commitEmpty, ?commitWaits, ?list⟩
  case readFound =>
    intro m bad p v pending s hc hready hid huse hitem hfits hbank hbad
    exact execSetRead_found hready hc hid huse hitem hfits hbank hbad
  case readMissing =>
    intro m bad p x s hc hready hid huse hitem
    exact execSetRead_missing hready hc hid huse bad hitem
  case write =>
    intro m p w t u v s hc hready hid hlen huse hidle hread hstage
    exact execSetWrite_stages hready hc hid hlen huse hidle hread hstage
  case delete =>
    intro m p u s hc hready hid hidle hstage
    exact execSetDelete_stages hready hc hid hidle hstage
  case commit =>
    rintro m f0 f1 p _ s hc hready hsome hworn hadmits hroom hfree rfl
    exact (execSetCommit_staged hready f0 f1 hc hsome hworn hadmits).trans (congrArg _ (if_pos (by simp [hroom, hfree])))
  case commitEmpty =>
    intro m f0 f1 p s hc hready hnone
    exact execSetCommit_empty hready f0 f1 hc hnone
  case commitWaits =>
    intro m f0 f1 p s hc hready hsome hworn hadmits hwait
    have hheld : ¬ (s.roomFor (txnPages (s.stagedOf (s.itemOwner p)) + 4) (f0 + f1) && s.logsFree) = true := by
      rcases hwait with h | h <;> simp [h]
    exact (execSetCommit_staged hready f0 f1 hc hsome hworn hadmits).trans (congrArg _ (if_neg hheld))
  case list =>
    intro m p l s hc hready hid hl
    exact execSetList_lists hready hc hid hl

end Sys2Proof.Machine
end

section
/-! The commands of the user area (11 R328, R338, R348, R353): the stability check of pages, writes and erases in an extent,
the record of the extents, and the statement of these commands. -/

namespace Sys2Proof.Machine

/-- A write whose source the sender may read and whose pages the ledger admits starts its first unit. -/
theorem startWrite_starts {s u t : State} {m addr len : Nat} {p : Packet} {bs : List Byte} (base pos : Nat)
    (huse : s.useBank (mailOwner m) addr len = (u, St.ok)) (hread : u.readBankBytes addr len = (t, some bs))
    (hadmits : t.admits (opClass p.opcode) = true) :
    s.startWrite m p base pos addr len false = (t.admitOp (opClass p.opcode) m).nextUnit m
      { p with note := [base, pos, len / 4096] ++ (wordsOf bs (len / 8)).map (·.toNat) } false := by
  simp [State.startWrite, huse, hread, hadmits]

section
variable {s : State} {m : Fin 5} {p : Packet}

/-! ## PAGE_STABILITY (R328) -/

theorem execPageStability_stable {flips : List (List (List Nat))} {l : Nat} {t : State} {as : List Stability}
    (hc : CommandRuns s m 0x25 p) (hp : p.p 0 < 2 ^ 23) (hr : bitsOf (p.p 0) 18 4 ≠ 1)
    (hl : l = bitsOf (p.p 0) 0 18 / 64) (hpart : partitionOf l ≠ .spares)
    (hmay : s.mayReadSlate (mailOwner m) l = true) (herase : s.erasing l = false)
    (hheld : s.readHeld (s.flashBank l) false = false)
    (hcheck : (s.suspendBank (s.flashBank l) false).checkPages l
      (if bitsOf (p.p 0) 18 4 = 0 then 4 else bitsOf (p.p 0) 18 4)
      (fun q => flips.getD (if (p.p 0).testBit 22 then q else 0) [])
      (if (p.p 0).testBit 22 then List.range 64 else [bitsOf (p.p 0) 0 18 % 64]) = (t, as))
    (hstable : stabilityWord as % 4 ≠ 2) :
    execPageStability m flips s = .next (t.reply m St.ok [BitVec.ofNat 32 (stabilityWord as)]) := by
  subst hl
  rw [execPageStability, command_runs s m 0x25 p _ hc]
  rw [if_neg (by simpa [hr, hpart] using hp)]
  simp only [hmay, herase, hheld, hcheck, if_neg hstable]
  rfl

/-! ## Writes and erases in an extent (R338, R353) -/

theorem execUsrWrite_starts {u t : State} {l : Nat} {bs : List Byte} (hc : CommandRuns s m 0x26 p) (hx : p.p 0 < 64)
    (halign : p.p 1 % 4096 = 0) (hoff : p.p 1 < 0x80_0000) (hsrc : sourceShape (p.p64 2) (p.p 4) = true)
    (hend : p.p 1 % 262144 + p.p 4 ≤ 262144) (howns : s.ownsExtent p (p.p 0) = true)
    (hl : l = (Partition.user (p.p 0)).base + p.p 1 / 262144) (hidle : s.blockBusy l = false)
    (hquiet : s.streaming (s.flashBank l) = false) (hnext : s.nextPage l ≤ p.p 1 % 262144 / 4096)
    (hlock : s.flag .SLT_PART_USER_LOCK = false) (hretire : SMap.look false s.slate.retire l = false)
    (huse : s.useBank (mailOwner m) (p.p64 2) (p.p 4) = (u, St.ok))
    (hread : u.readBankBytes (p.p64 2) (p.p 4) = (t, some bs)) (hadmits : t.admits (opClass p.opcode) = true) :
    execUsrWrite m s = .next ((t.admitOp (opClass p.opcode) m).nextUnit m
      { p with note := [(Partition.user (p.p 0)).base, p.p 1 / 4096, p.p 4 / 4096] ++
        (wordsOf bs (p.p 4 / 8)).map (·.toNat) } false) := by
  subst hl
  rw [execUsrWrite, command_runs s m 0x26 p _ hc]
  rw [if_neg (by simp [Nat.not_le.2 hx, halign, Nat.not_le.2 hoff, hsrc, Nat.not_lt.2 hend])]
  simp only [howns, hidle, hquiet, if_neg (Nat.not_lt.2 hnext), hlock, hretire, startWrite_starts _ _ huse hread hadmits]
  rfl

theorem execUsrErase_starts {x l : Nat} (hc : CommandRuns s m 0x27 p) (hp : p.p 0 < 2048) (hx : x = bitsOf (p.p 0) 0 6)
    (howns : s.ownsExtent p x = true) (hl : l = (Partition.user x).base + bitsOf (p.p 0) 6 5)
    (hlock : s.flag .SLT_PART_USER_LOCK = false) (hidle : s.blockBusy l = false) (hadmits : s.admits 5 = true) :
    execUsrErase m s = .next ((s.admitOp 5 m).unitErase m p l) := by
  subst hx hl
  rw [execUsrErase, command_runs s m 0x27 p _ hc]
  simp only [if_neg (Nat.not_le.2 hp), howns, hlock, hidle, hadmits]
  rfl

/-! ## The record of the extents (R348, R352) -/

/-- USR_EXTENT_SET of a family that an extent may have, or of none, commits the record as item 5 of the journal. -/
theorem execUsrExtentSet_commits {fails0 fails1 f : Nat} {u : State} (hc : CommandRuns s m 0x28 p) (hp : p.p 0 < 65536)
    (hgap : bitsOf (p.p 0) 6 2 = 0) (hf : f = bitsOf (p.p 0) 8 8) (hfamily : f = 0 ∨ (0x10 ≤ f ∧ f ≤ 0x14))
    (hj : JournalTakes s 5 (s.extentRecord (bitsOf (p.p 0) 0 6) (BitVec.ofNat 8 f)) fails0 fails1 u) :
    execUsrExtentSet m fails0 fails1 s = .next ((u.commitOwner 0x01 fails0 fails1).reply m St.ok) := by
  subst hf
  rw [execUsrExtentSet, command_runs s m 0x28 p _ hc]
  rw [if_neg (by simpa [Nat.not_le.2 hp, hgap] using or_iff_not_imp_left.1 hfamily), replyJournal_takes s u m 5 _ _ _ hj]

end

/-- Settles O26: each command that runs (`command_runs`) passes its checks and starts or completes its work;
USR_EXTENT_SET leaves the record to the journal (`replyJournal_takes`). -/
theorem userAreaCommands : Obligations.UserAreaCommands := by
  unfold Obligations.UserAreaCommands
  refine ⟨?stability, ?write, ?erase, ?extentSet⟩
  case stability =>
    intro m flips p l t as s hc hp hr hl hpart hmay herase hheld hcheck hstable
    exact execPageStability_stable hc hp hr hl hpart hmay herase hheld hcheck hstable
  case write =>
    intro m p u t l bs s hc hx halign hoff hsrc hend howns hl hidle hquiet hnext hlock hretire huse hread hadmits
    exact execUsrWrite_starts hc hx halign hoff hsrc hend howns hl hidle hquiet hnext hlock hretire huse
      hread hadmits
  case erase =>
    intro m p x l s hc hp hx howns hl hlock hidle hadmits
    exact execUsrErase_starts hc hp hx howns hl hlock hidle hadmits
  case extentSet =>
    intro m f0 f1 f p u s hc hp hgap hf hfamily hj
    exact execUsrExtentSet_commits hc hp hgap hf hfamily hj

end Sys2Proof.Machine
end
